-- ==== Sys2Proof/Word.lean ====
section
/-! DEFINITION. The word types of the IV-3264 model: bytes, the 16, 32 and 64-bit words of host-visible
structures (R5), sparse maps and fixed tables. -/
namespace Sys2Proof

/-- One byte of a host-visible structure (R5). -/
abbrev Byte := BitVec 8
/-- A two-byte field (R5). -/
abbrev W16 := BitVec 16
/-- A four-byte field (R5). -/
abbrev W32 := BitVec 32
/-- An eight-byte field: TIME (R55), a line coordinate (R7), a Q32.32 quantity (R314). -/
abbrev W64 := BitVec 64

/-- Sparse data by key, kept with strictly rising keys and without any entry equal to the value an
unlisted key reads as (the canonical form of `SMap.wf`). -/
abbrev SMap (α : Type) := List (Nat × α)

/-- A fixed number of like things, indexed from 0. -/
abbrev Tab (α : Type) (n : Nat) := Vector α n

end Sys2Proof
end

