-- ==== Sys2Proof/Syntax.lean ====
section
/-! DEFINITION. The commands of the block: one constructor of `Instr` per row of the operation table. Every
constructor carries `dt`, the number of 10 ns ANG cycles that pass before the command takes effect (R55), and
the operands that the outside world, or a part of the device whose value the spec leaves open, decides. -/
namespace Sys2Proof

/-- A host link or port, numbered as `part[p].port` (Table 3.26). -/
inductive Port where
  | none | pa | pa0 | pa1 | pb | pb0 | pb1 | qa | qb
  deriving DecidableEq, Repr

/-- The partition a host access names and the port it arrives on (R74). -/
structure Via where
  port : Port
  part : Fin 8
  deriving DecidableEq, Repr

/-- A mailbox request (Table 3.18). `data` holds the bytes from offset 16 on; bytes beyond it are zero. -/
structure Request where
  tag : W16
  length : W16
  form : Byte
  flags : Byte
  bulkOff : W32
  bulkLen : W32
  data : List Byte
  deriving DecidableEq, Repr

/-- A request that a host places in slot `slot` of its mailbox page and submits by its doorbell (R81). -/
structure Mbox where
  via : Via
  slot : Fin 16
  rq : Request
  deriving DecidableEq, Repr

/-- The windows of a partition (R74, Table 3.3). -/
inductive Window where
  | control | store | signal | reserved
  deriving DecidableEq, Repr

/-- The data phase of a host access (R73, R74): a read of `n` bytes, or a write of the bytes that arrived.
`early` marks a QSPI transaction whose CS_N rose in the data phase. -/
inductive Phase where
  | read (n : Nat)
  | write (bytes : List Byte)
  deriving DecidableEq, Repr

/-- One host access to a window (R73, R74, R77). -/
structure Access where
  via : Via
  window : Window
  offset : Nat
  phase : Phase
  early : Bool
  deriving DecidableEq, Repr

/-- Frame kinds (Table 7.1, format bits 1:0). -/
inductive FrameKind where
  | cc | fd | xl
  deriving DecidableEq, Repr

/-- A frame another node sent, as the engine received it (Table 7.1). `sof` is the stamp of R161, `dlc` the
DLC as received and `edges` the phases of its recessive-to-dominant edges in per mille of t_bitA (R423). -/
structure RxFrame where
  id : W32
  kind : FrameKind
  brs : Bool
  esi : Bool
  rtr : Bool
  sec : Bool
  dlc : Nat
  payload : List Byte
  sdt : Byte
  vcid : Byte
  af : W32
  sof : W64
  edges : List Int
  deriving DecidableEq, Repr

/-- What an attempt of the engine sends: an object, an angle reference message (R265), a time-mode reference
message (R269) or a test frame (R191, R209). -/
inductive TxWhat where
  | object (o : Fin 128)
  | arm
  | ref
  | test
  deriving DecidableEq, Repr

/-- A frame the engine sent completely (R161, R168): its start-of-frame stamp, the loop delay measured in it
(1.5625 ns units), whether another node acknowledged it, and the phases of its echoed data edges (R423). -/
structure TxEnd where
  what : TxWhat
  sof : W64
  loop : Option Nat
  acked : Bool
  edges : List Int
  deriving DecidableEq, Repr

/-- A channel whose CRXD is low, and for how many ns it has been low without a break while the engine drives CTXD high
(R196). -/
structure CrxdLow where
  chan : Fin 32
  low : Nat
  deriving DecidableEq, Repr

/-- The kinds of bus error that the diagnostic record counts (Table 6.5). `flag` is an error flag that the
engine did not start. -/
inductive ErrKind where
  | bit | stuff | form | crc | ack | flag
  deriving DecidableEq, Repr

/-- The field of a frame in which an error arose (R193, Table 6.6). -/
inductive Field where
  | arbitration | control | data | crc | other
  deriving DecidableEq, Repr

/-- A detected error or a received error flag (R184). `attempt` names the attempt it ended, if the channel was
the transmitter; `sof` is the start of the frame it ended, `id` that frame's identifier where the engine has received
it, and `loop` the loop delay measured in it (R168). `extra` is the number of further events of ISO 11898-1:2024 that add 8 to the same counter;
`firstDominant` that a receiver saw a dominant bit first after its error flag; `dominantSeen` that an
error-passive transmitter saw a dominant bit while sending its passive error flag (R189). -/
structure BusErr where
  attempt : Option TxWhat
  kind : ErrKind
  field : Field
  sof : W64
  id : Option W32
  loop : Option Nat
  extra : Nat
  firstDominant : Bool
  dominantSeen : Bool
  deriving DecidableEq, Repr

/-- A quadrature edge at the filtered inputs (R37, R38). `up` is the counting direction before
`lc[n].dir_invert`; `both` says that A and B changed in the same 10 ns sample. `speed` and `accel` are the
estimates that the tracking estimator delivers after the edge (R46, R49). -/
structure EncEdge where
  up : Bool
  both : Bool
  speed : W64
  accel : W64
  deriving DecidableEq, Repr

/-- One SSI read (R40, R41): the data bits as one number, the level of the parity bit that follows them, whether SSI_DAT
was high before the first clock edge, and the estimates that the estimator delivers for the instant at which the
position is valid. -/
structure SsiRead where
  bits : BitVec 48
  parity : Bool
  startHigh : Bool
  speed : W64
  accel : W64
  deriving DecidableEq, Repr

/-- What the boot flow meets (R396, R402): unreadable firmware slots (R401), a self-test step that fails the
start with its detail, the rows, channels and gateway units its tests find faulty, a stall of the start before
READY, whether a fresh canary sample supports the recorded CORE frequency (R428), and the ANG cycles from the release of
the reset to the end of the start, or to its stall. -/
structure BootObs where
  readErrA : Bool
  readErrB : Bool
  failStep : Option (Nat × W32)
  badRows : List (Nat × Nat)
  badChans : List Nat
  badUnits : List Nat
  stall : Bool
  coreOk : Bool
  took : Nat
  mapLost : Bool
  deriving DecidableEq, Repr

/-- The straps BOOT_SEL[1:0] (Table 13.2). -/
abbrev Straps := BitVec 2

/-- An error the scrubber or an access finds in the 64-bit lane at index `lane` (R119, R120). -/
structure LaneError where
  lane : Nat
  uncorrectable : Bool
  deriving DecidableEq, Repr

/-- An occurrence that a source passes through its handshake (R360): sub-cause, detail word, whether its
condition persists. -/
structure Occ where
  sub : Byte
  detail : W32
  persists : Bool
  deriving DecidableEq, Repr

/-- One 1 ms sample of the monitors (Table 14.1): slack of the seven domains in per mille, temperature in
0.1 degree C, and the rails in mV. -/
structure Sample where
  slack : List Int
  temp : Int
  v08 : Nat
  v18 : Nat
  v33 : Nat
  deriving DecidableEq, Repr

/-- A keep-store margin scan (R434): the words that failed the shifted read, those whose rewrite failed, and
the smallest reference shift in per cent that any word still read with. -/
structure KsScan where
  weak : List Nat
  failed : List Nat
  margin : Nat
  deriving DecidableEq, Repr

/-- What a re-qualification tests (R209, R372). -/
inductive Requal where
  | chan (c : Fin 32)
  | unit (u : Fin 2)
  deriving DecidableEq, Repr

/-- The I/O rails of R445. -/
inductive Rail where
  | v33 | v18
  deriving DecidableEq, Repr

/-- The pads that R198 reads back. -/
inductive Pad where
  | ctxd | cmode | cstb
  deriving DecidableEq, Repr

/-- The instructions of the test access port (R458). -/
inductive TapInstr where
  | bypass | idcode | samplePreload | extest | extestPulse | extestTrain | clamp | highz
  deriving DecidableEq, Repr

/-- The commands of the block: one constructor per row of the operation table, with the rule the row names. -/
inductive Instr where
  /-- GET_INFO (R466): Returns the partition's interface version, state, port, quotas and their use, bulk size and heartbeat state. -/
  | getInfo (dt : Nat) (m : Mbox)
  /-- PART_STATUS (R466): Returns the state, heartbeat, pending commit ids and error counts of a partition without clearing them. -/
  | partStatus (dt : Nat) (m : Mbox)
  /-- PART_RESET (R112): P0 starts a partition reset of another partition; this is a long-running command. -/
  | partReset (dt : Nat) (m : Mbox)
  /-- RIGHTS_GRANT (R96): The owner or P0 grants a partition expert rights on a resource. -/
  | rightsGrant (dt : Nat) (m : Mbox)
  /-- RIGHTS_REVOKE (R96): The owner or P0 removes a partition's expert rights on a resource; values already in force are kept. -/
  | rightsRevoke (dt : Nat) (m : Mbox)
  /-- RIGHTS_LIST (R466): Returns a resource's owner and the bitmap of partitions that hold expert rights on it. -/
  | rightsList (dt : Nat) (m : Mbox)
  /-- PARAM_SET (R93): Checks every parameter entry, then applies all of them in order, each at its commit point, or applies none. -/
  | paramSet (dt : Nat) (m : Mbox)
  /-- PARAM_GET (R94): Returns the active or the staged value of each requested parameter. -/
  | paramGet (dt : Nat) (m : Mbox)
  /-- PARAM_LOOKUP (R466): Returns the key id, level, commit point, type and length of a parameter named in ASCII. -/
  | paramLookup (dt : Nat) (m : Mbox)
  /-- EPOCH_COMMIT (R26): Runs the admission check over the partition's staged configuration and, if it passes, makes the commit pending at its boundary. -/
  | epochCommit (dt : Nat) (m : Mbox)
  /-- EPOCH_STATUS (R465): Returns the state of the partition's last 16 commits. -/
  | epochStatus (dt : Nat) (m : Mbox)
  /-- EPOCH_CANCEL (R105): Returns a pending commit to the staged state if the epoch switch receives the cancel before the boundary. -/
  | epochCancel (dt : Nat) (m : Mbox)
  /-- STAGE_DISCARD (R102): Removes all of the partition's staged configuration that is not part of a pending commit. -/
  | stageDiscard (dt : Nat) (m : Mbox)
  /-- ADMIT_REPORT (R355): Evaluates the admission check without committing and writes the report to the bulk range. -/
  | admitReport (dt : Nat) (m : Mbox)
  /-- CHAN_OPEN (R180): Opens a closed channel under its active configuration by queuing its standby release under the start budget. -/
  | chanOpen (dt : Nat) (m : Mbox)
  /-- CHAN_CLOSE (R177): Closes a channel, discards its pending transmit requests and sets its pins recessive. -/
  | chanClose (dt : Nat) (m : Mbox)
  /-- CHAN_CONFIG (R181): Stages a channel's bit-timing, format and transceiver parameters in the BASIC or EXPERT form. -/
  | chanConfig (dt : Nat) (m : Mbox)
  /-- CHAN_MODE (R174): Requests a change of the channel's operating mode or entry to SLEEP at the next bus idle. -/
  | chanMode (dt : Nat) (m : Mbox)
  /-- CHAN_STATUS (R182): Returns the state, error counters, timing and counts of a channel. -/
  | chanStatus (dt : Nat) (m : Mbox)
  /-- CHAN_RECOVER (R187): Starts the bus-off recovery sequence of a channel that is in BUS_OFF_HELD. -/
  | chanRecover (dt : Nat) (m : Mbox)
  /-- CHAN_RETIRE (R200): The owner or P0 retires a channel on the host's request. -/
  | chanRetire (dt : Nat) (m : Mbox)
  /-- CHAN_DIAG (R211): Writes one diagnostic record per channel to the bulk range and, with CLEAR, clears the counters reported. -/
  | chanDiag (dt : Nat) (m : Mbox)
  /-- CHAN_COLLIDE_CLEAR (R194): Clears COLLIDE and the collision count of an object and restores its configured attempt mode. -/
  | chanCollideClear (dt : Nat) (m : Mbox)
  /-- OBJ_DEFINE (R231): Stages message object definitions for a channel. -/
  | objDefine (dt : Nat) (m : Mbox)
  /-- OBJ_READ (R240): Returns a consistent snapshot of an object's record and payload and, with ACK, clears NEW and OVERWRITE. -/
  | objRead (dt : Nat) (m : Mbox)
  /-- RULE_STAGE (R223): Checks a rule table whole and stages it as the channel's rule list. -/
  | ruleStage (dt : Nat) (m : Mbox)
  /-- RULE_READ (R242): Writes the channel's active or staged rule list, with its check value, to the bulk range. -/
  | ruleRead (dt : Nat) (m : Mbox)
  /-- FILT_STATUS (R244): Returns the channel's filtering counts and re-arms the RING_DROP event. -/
  | filtStatus (dt : Nat) (m : Mbox)
  /-- LC_READ (R68): Returns TIME and every coordinate's value, speed, acceleration, state and error bound, all taken from one ANG cycle. -/
  | lcRead (dt : Nat) (m : Mbox)
  /-- LC_START (R47): Starts acquisition of a coordinate that is in NO_SOURCE or LOST. -/
  | lcStart (dt : Nat) (m : Mbox)
  /-- LC_STOP (R67): Puts a coordinate into NO_SOURCE unless active configuration uses it. -/
  | lcStop (dt : Nat) (m : Mbox)
  /-- LC_SET (R54): Sets a coordinate to a new value now, at the next index edge or at the next captured latch edge. -/
  | lcSet (dt : Nat) (m : Mbox)
  /-- TIME_DISCIPLINE (R56): Corrects TIME by an offset, either slewing it or stepping it at the next tick boundary. -/
  | timeDiscipline (dt : Nat) (m : Mbox)
  /-- LAT_STATUS (R67): Returns the captured, outside-window and lost counts of a latch input. -/
  | latStatus (dt : Nat) (m : Mbox)
  /-- SYNC_STATUS (R67): Returns the pulse, merged and skipped counts of a SYNC output. -/
  | syncStatus (dt : Nat) (m : Mbox)
  /-- SCHED_STAGE (R251): Checks a Wafer, or a BASIC section that the device generates, and stages the schedules it holds. -/
  | schedStage (dt : Nat) (m : Mbox)
  /-- SCHED_CLEAR (R279): Stages the removal of a channel's schedule. -/
  | schedClear (dt : Nat) (m : Mbox)
  /-- SCHED_READ (R279): Writes the active or staged schedules of the partition's channels as a Wafer to the bulk range. -/
  | schedRead (dt : Nat) (m : Mbox)
  /-- SCHED_STATUS (R275): Returns a channel's schedule state and counts and, with CLEAR, clears the counts. -/
  | schedStatus (dt : Nat) (m : Mbox)
  /-- SIG_STAGE (R285): Checks a signal map whole and stages the signal sets of the channels it names. -/
  | sigStage (dt : Nat) (m : Mbox)
  /-- SIG_CLEAR (R305): Stages the removal of a channel's signal set. -/
  | sigClear (dt : Nat) (m : Mbox)
  /-- SIG_READ (R305): Writes the active or staged signal map of the partition's channels to the bulk range. -/
  | sigRead (dt : Nat) (m : Mbox)
  /-- SIG_STATUS (R306): Returns a channel's signal counts and the device-wide free ids. -/
  | sigStatus (dt : Nat) (m : Mbox)
  /-- AX_DEFINE (R341): Stages the links of an axis context. -/
  | axDefine (dt : Nat) (m : Mbox)
  /-- AX_START (R317): Initialises an axis context's position and enters TRACK or TARGET. -/
  | axStart (dt : Nat) (m : Mbox)
  /-- AX_STOP (R326): Starts a conditioned stop of one axis, or of every owned axis, optionally releasing them to INACTIVE. -/
  | axStop (dt : Nat) (m : Mbox)
  /-- AX_STATUS (R337): Returns an axis context's state and flags and, with ACK, clears the sticky flags reported. -/
  | axStatus (dt : Nat) (m : Mbox)
  /-- Q_OPEN (R129): Allocates a queue's ring, resets its pointers and opens the queue. -/
  | qOpen (dt : Nat) (m : Mbox)
  /-- Q_CLOSE (R129): Discards a queue's content and frees its ring unless configuration names the queue. -/
  | qClose (dt : Nat) (m : Mbox)
  /-- Q_FLUSH (R144): Flushes a queue at the next item boundary. -/
  | qFlush (dt : Nat) (m : Mbox)
  /-- Q_STATUS (R153): Returns a queue's pointers, counts and settings, all taken from one tick. -/
  | qStatus (dt : Nat) (m : Mbox)
  /-- STORE_STATUS (R152): Returns the queue area, bulk sizes, bank error counts and free spare rows. -/
  | storeStatus (dt : Nat) (m : Mbox)
  /-- FAULT_SUMMARY (R391): Returns the device-wide fault bitmaps and the pin state. -/
  | faultSummary (dt : Nat) (m : Mbox)
  /-- FAULT_READ (R368): Returns a fault source's record and, with ACK, clears its latched part. -/
  | faultRead (dt : Nat) (m : Mbox)
  /-- FAULT_CLEAR (R371): P0 takes a permanent record out of FAULT once its CURRENT is clear. -/
  | faultClear (dt : Nat) (m : Mbox)
  /-- FAULT_REQUALIFY (R209): Starts the re-qualification self-test of a retired channel or gateway unit; this is a long-running command. -/
  | faultRequalify (dt : Nat) (m : Mbox)
  /-- FAULT_INJECT (R378): Starts the injection of a check-bit pattern at one checker; this is a long-running command. -/
  | faultInject (dt : Nat) (m : Mbox)
  /-- LOG_READ (R387): Writes the event-log records that the partition may read, from a given seq onward, to the bulk range. -/
  | logRead (dt : Nat) (m : Mbox)
  /-- FAULT_PIN_RELEASE (R380): P0 releases ALIVE and FAULT_N held under fault.pin_hold. -/
  | faultPinRelease (dt : Nat) (m : Mbox)
  /-- BOOT_STATUS (R420): Returns the start state, failure counter, slot results and versions. -/
  | bootStatus (dt : Nat) (m : Mbox)
  /-- BOOT_RECORDS (R419): Writes the newest boot records to the bulk range. -/
  | bootRecords (dt : Nat) (m : Mbox)
  /-- FW_LOAD (R419): Verifies a firmware image in the bulk region and starts writing it into a slot; this is a long-running command. -/
  | fwLoad (dt : Nat) (m : Mbox)
  /-- FW_SELECT (R419): Sets the preferred firmware slot for the next start. -/
  | fwSelect (dt : Nat) (m : Mbox)
  /-- BOOT_CLEAR_FAILURES (R419): Sets the failure counter to zero. -/
  | bootClearFailures (dt : Nat) (m : Mbox)
  /-- DEV_RESTART (R419): Returns OK and schedules a device reset that tries the named slot first. -/
  | devRestart (dt : Nat) (m : Mbox)
  /-- BUDGET_STATUS (R421): Returns the start-budget bucket and its counts. -/
  | budgetStatus (dt : Nat) (m : Mbox)
  /-- AGE_REPORT (R436): Writes the margin report to the bulk range. -/
  | ageReport (dt : Nat) (m : Mbox)
  /-- AGE_HISTORY (R441): Writes history records from the daily or the long ring to the bulk range. -/
  | ageHistory (dt : Nat) (m : Mbox)
  /-- AGE_CLEAR_HIST (R430): Restarts both edge histograms of a channel. -/
  | ageClearHist (dt : Nat) (m : Mbox)
  /-- MG_ID (R437): SMBus Block Read of the device identity and the mailbox version. -/
  | mgId (dt : Nat)
  /-- MG_STATE (R437): SMBus Block Read of the device state, failure counter and pin state. -/
  | mgState (dt : Nat)
  /-- MG_FAULT_LO (R438): SMBus Block Read of the in_fault bits of sources 0x000 to 0x0FF; it takes part in releasing ALERT_N. -/
  | mgFaultLo (dt : Nat)
  /-- MG_FAULT_HI (R438): SMBus Block Read of the in_fault bits of sources 0x100 to 0x1FF; it takes part in releasing ALERT_N. -/
  | mgFaultHi (dt : Nat)
  /-- MG_LATCHED_LO (R437): SMBus Block Read of the LATCHED bits of sources 0x000 to 0x0FF. -/
  | mgLatchedLo (dt : Nat)
  /-- MG_LATCHED_HI (R437): SMBus Block Read of the LATCHED bits of sources 0x100 to 0x1FF. -/
  | mgLatchedHi (dt : Nat)
  /-- MG_MARGIN (R437): SMBus Block Read of the first 32 bytes of the margin report header. -/
  | mgMargin (dt : Nat)
  /-- MG_LOG_NEWEST (R437): SMBus Block Read of the newest event-log record. -/
  | mgLogNewest (dt : Nat)
  /-- MG_LOG_PREV (R437): SMBus Block Read of the log record before the last one returned. -/
  | mgLogPrev (dt : Nat)
  /-- ALERT_RESPONSE (R438): The SMBus host reads the Alert Response Address, and the device answers with its address if it wins arbitration. -/
  | alertResponse (dt : Nat) (wins : Bool)
  /-- DB_QUEUE_H2D (R135): A queue doorbell on an H2D queue latches the host's wr, or ignores it if it is invalid. -/
  | dbQueueH2d (dt : Nat) (w : Via) (q : Fin 64)
  /-- DB_QUEUE_D2H (R137): A queue doorbell on a D2H queue latches the host's rd, frees ring space and re-arms the notification. -/
  | dbQueueD2h (dt : Nat) (w : Via) (q : Fin 64)
  /-- EVT_TAIL_WRITE (R106): The host writes its consumed-event count, which is ignored if it would pass EVT_HEAD. -/
  | evtTailWrite (dt : Nat) (w : Via) (value : W32)
  /-- HB_WRITE (R109): A heartbeat write that, if valid, moves the heartbeat to OK and ends a STOP or HOLD fallback. -/
  | hbWrite (dt : Nat) (w : Via) (value : W32)
  /-- PRESET_KEY (R112): Writing the reset key starts a partition reset of the writing partition. -/
  | presetKey (dt : Nat) (w : Via) (value : W32)
  /-- AP_SELECT (R80): A write to an aperture selector maps its 8 MiB of the store window onto a region, or replaces the selector with OFF. -/
  | apSelect (dt : Nat) (w : Via) (n : Fin 4) (value : W32)
  /-- ERR_COUNT_READ (R11): A read of ERR_COUNT returns the counts and clears them. -/
  | errCountRead (dt : Nat) (w : Via)
  /-- IRQ_ENABLE_WRITE (R79): Sets the interrupt enables and raises one interrupt for each enabled cause whose status is already set. -/
  | irqEnableWrite (dt : Nat) (w : Via) (value : W32)
  /-- REGISTER_WRITE (R11): A write to a window register that has no row of its own, handled under its access code. -/
  | registerWrite (dt : Nat) (w : Via) (offset : Nat) (bytes : List Byte)
  /-- STORE_WINDOW_ACCESS (R128): A host access through an aperture to queue, bulk or event regions, performed within the partition's rights. -/
  | storeWindowAccess (dt : Nat) (a : Access)
  /-- POWER_ON_RESET (R396): The rising edge of PORST_N samples the straps and runs the boot flow. -/
  | powerOnReset (dt : Nat) (straps : Straps) (o : BootObs)
  /-- PORST_N_FALL (R394): PORST_N falls, so the channel pins go recessive and any keep-store write in progress is abandoned. -/
  | porstNFall (dt : Nat)
  /-- POWER_FAIL (R394): The AON detector sees the 0.8 V rail leave its window and puts the device into its power-fail state. -/
  | powerFail (dt : Nat)
  /-- DEVICE_RESET (R410): A device reset from a CHIP reaction, DEV_RESTART or a failed start resets the whole device and reruns the boot flow. -/
  | deviceReset (dt : Nat) (o : BootObs)
  /-- READY_TIMEOUT (R403): READY is not reached within 2,000 ms, so the start fails and the device resets. -/
  | readyTimeout (dt : Nat)
  /-- WATCHDOG (R403): A core watchdog fires, ending a start before READY or raising source 0x106. -/
  | watchdog (dt : Nat) (core : Fin 6)
  /-- FUNCTION_LEVEL_RESET (R72): A PCIe Function Level Reset starts a partition reset of that function's partition. -/
  | functionLevelReset (dt : Nat) (p : Fin 8)
  /-- HOT_RESET (R72): A PCIe hot reset starts a partition reset of every partition on the link. -/
  | hotReset (dt : Nat) (link : Port)
  /-- LINK_DOWN (R72): A link that stays down for more than 1 ms resets every partition on it. -/
  | linkDown (dt : Nat) (link : Port)
  /-- PARTITION_RESET_DONE (R112): A partition reset completes its steps, and the partition becomes ACTIVE with RESET_DONE. -/
  | partitionResetDone (dt : Nat) (p : Fin 8)
  /-- HB_LATE (R109): No valid heartbeat write arrives for half the timeout, so the heartbeat becomes LATE. -/
  | hbLate (dt : Nat) (p : Fin 8)
  /-- HB_EXPIRED (R110): No valid heartbeat write arrives for the timeout, so queues are flushed and the fallback is applied. -/
  | hbExpired (dt : Nat) (p : Fin 8)
  /-- DISPATCH_TICK (R343): At each tick boundary a data core does its ordered work: updates, switches, queue batches, handoffs, ring batches and arming. -/
  | dispatchTick (dt : Nat)
  /-- TOKEN_REFILL (R413): At each 1 ms mark, the start-budget bucket gains tokens up to its capacity. -/
  | tokenRefill (dt : Nat)
  /-- OBJ_WRITE (R235): An H2D item writes a transmit object's payload and may request transmission. -/
  | objWrite (dt : Nat) (q : Fin 64)
  /-- OBJ_SEND (R236): An H2D item requests transmission of an event object. -/
  | objSend (dt : Nat) (q : Fin 64)
  /-- SIG_WRITE (R294): An H2D item writes transmit signal values, and the object may be packed and sent. -/
  | sigWrite (dt : Nat) (q : Fin 64)
  /-- AX_STREAM (R318): An H2D item appends or revises the stream samples of an axis context. -/
  | axStream (dt : Nat) (q : Fin 64)
  /-- AX_CMD (R321): An H2D item sets TARGET, TRACK or STOP on an axis context. -/
  | axCmd (dt : Nat) (q : Fin 64)
  /-- ANGLE_TEL (R43): An angle telegram item is checked and, if accepted, corrects the coordinate by blending. -/
  | angleTel (dt : Nat) (q : Fin 64)
  /-- FRAME_RECEIVED (R215): A channel engine receives a frame correctly, stamps it and writes it into the channel ring. -/
  | frameReceived (dt : Nat) (c : Fin 32) (f : RxFrame)
  /-- RING_ENTRY (R225): A data core takes a ring entry, mirrors it, classifies it against the rules and carries out the rule actions. -/
  | ringEntry (dt : Nat) (c : Fin 32)
  /-- SIGNAL_UNPACK (R290): A gateway unit updates the RX groups of a frame's selector under group brackets. -/
  | signalUnpack (dt : Nat) (unit : Fin 2)
  /-- SIGNAL_PACK (R295): A gateway unit packs an object's TX groups into its payload. -/
  | signalPack (dt : Nat) (c : Fin 32) (o : Fin 128)
  /-- DEFERRED_PAYLOAD_WRITE (R237): A payload write that waited for a buffer held by a prefetch is made once the buffer is free. -/
  | deferredPayloadWrite (dt : Nat) (c : Fin 32) (o : Fin 128)
  /-- TX_SUCCESS (R161): A transmitted frame completes without error and is written into the ring as the device's own frame. -/
  | txSuccess (dt : Nat) (c : Fin 32) (e : TxEnd)
  /-- ARBITRATION_LOST (R175): An attempt loses arbitration and is retried, or fails if it is one-shot. -/
  | arbitrationLost (dt : Nat) (c : Fin 32) (what : TxWhat) (sof : W64) (winner : W32)
  /-- BUS_ERROR (R184): An error is detected or an error flag is received; the counters change and the attempt is retried. -/
  | busError (dt : Nat) (c : Fin 32) (e : BusErr)
  /-- PROTOCOL_EXCEPTION (R158): A reserved bit is received recessive; the exception is counted and the engine integrates again. -/
  | protocolException (dt : Nat) (c : Fin 32)
  /-- BOFF_DELAY_EXPIRED (R187): The bus-off delay expires, and the recovery sequence starts. -/
  | boffDelayExpired (dt : Nat) (c : Fin 32)
  /-- RECOVERY_DONE (R187): The 128 recessive sequences complete; the counters are cleared and the channel is ERROR_ACTIVE. -/
  | recoveryDone (dt : Nat) (c : Fin 32)
  /-- LONE_ENTER (R190): The channel hears no other node for lone_time and enters LONE. -/
  | loneEnter (dt : Nat) (c : Fin 32)
  /-- LONE_PROBE (R191): The probe interval expires, and one one-shot probe is attempted. -/
  | loneProbe (dt : Nat) (c : Fin 32)
  /-- STUCK_DOMINANT (R196): CRXD stays low for stuck_time while CTXD is high, which retires the channel. -/
  | stuckDominant (dt : Nat) (x : CrxdLow)
  /-- LOOP_DELAY_WINDOW (R197): A loop-delay window ends and is judged; if every delay in it lay out of range, the channel retires. -/
  | loopDelayWindow (dt : Nat) (c : Fin 32)
  /-- PIN_READBACK (R198): A pad differs from its driven level for more than 1 µs, which retires the channel. -/
  | pinReadback (dt : Nat) (c : Fin 32) (pad : Pad)
  /-- CHAN_RETIRED (R200): After any frame in progress ends, the channel's pins go recessive and are verified, and the channel becomes RETIRED. -/
  | chanRetired (dt : Nat) (c : Fin 32)
  /-- TWIN_HANDOVER (R204): At the first tick boundary after retirement, service of the primary passes to its twin. -/
  | twinHandover (dt : Nat) (c : Fin 32)
  /-- REQUALIFY_DONE (R210): The re-qualification test ends; on a pass the channel reopens and its service returns from the twin.
  `loopMin` and `loopMax` are the shortest and longest loop delay of a test frame that ended without TX_SUCCESS, in 1.5625 ns, 0xFFFF
  where it measured none. -/
  | requalifyDone (dt : Nat) (r : Requal) (result loopMin loopMax : Nat)
  /-- SLEEP_ENTER (R172): At bus idle after CHAN_MODE SLEEP, CSTB rises and the channel sleeps. -/
  | sleepEnter (dt : Nat) (c : Fin 32)
  /-- BUS_WAKE (R172): CRXD stays low for wake_filter in SLEEP, which is a wake-up. -/
  | busWake (dt : Nat) (c : Fin 32) (fell : W64)
  /-- WAKE_TIME_EXPIRED (R172): wake_time has passed since the standby release, and integration begins. -/
  | wakeTimeExpired (dt : Nat) (c : Fin 32)
  /-- INTEGRATION_DONE (R180): The engine sees 11 consecutive recessive bits, and the channel becomes OPEN in its mode. -/
  | integrationDone (dt : Nat) (c : Fin 32)
  /-- CHAN_OPEN_TIMEOUT (R180): The bus stays busy for 100 ms after the release, so CHAN_OPEN returns TIMEOUT and the channel closes. -/
  | chanOpenTimeout (dt : Nat) (c : Fin 32)
  /-- MODE_CHANGE_APPLIED (R174): A requested mode change takes effect at bus idle and is reported. -/
  | modeChangeApplied (dt : Nat) (c : Fin 32)
  /-- EPOCH_SWITCH (R28): A pending commit reaches its boundary, and the affected active and staged copies are exchanged in one step. -/
  | epochSwitch (dt : Nat) (id : W32)
  /-- TIMING_APPLIED (R164): New bit timing is applied at the next bus idle after a switch, and the engine integrates again. -/
  | timingApplied (dt : Nat) (c : Fin 32)
  /-- SAMPLE_POINT_MOVE (R165): A planner sample-point move takes effect through the epoch switch at bus idle. -/
  | samplePointMove (dt : Nat) (c : Fin 32)
  /-- FIRING_TARGET_UPDATE (R258): Every 1 µs, ANG recomputes an armed occurrence's firing instant and hands it to the engine. -/
  | firingTargetUpdate (dt : Nat) (c : Fin 32)
  /-- SCHEDULED_FIRE (R259): The TIME replica reaches the target, and the scheduled frame starts at the next bit boundary. -/
  | scheduledFire (dt : Nat) (c : Fin 32) (sof : W64) (blocker : Option W32)
  /-- ARM_FIRE (R265): The angle reference message of a REF slot starts, or is counted as missed. `sof` is the bit boundary at which the idle bus lets it
  start; none where the bus did not. -/
  | armFire (dt : Nat) (c : Fin 32) (sof : Option W64) (readbackOk : Bool)
  /-- REF_MESSAGE (R269): A time-mode basic cycle begins with its reference message. -/
  | refMessage (dt : Nat) (c : Fin 32) (started : Bool) (readbackOk : Bool)
  /-- OCCURRENCE_MISSED (R264): An occurrence's start limit passes with no attempt started, and it is counted as missed. -/
  | occurrenceMissed (dt : Nat) (c : Fin 32)
  /-- SCHED_REPORT (R276): A report interval ends with missed or blocked risen, and SCHED_REPORT is sent. -/
  | schedReport (dt : Nat) (c : Fin 32)
  /-- ENC_COUNT (R37): A quadrature edge advances the coordinate, or counts a quadrature error. -/
  | encCount (dt : Nat) (n : Fin 4) (e : EncEdge)
  /-- INDEX_PULSE (R39): A rising index edge is checked or aligned, or applies a pending LC_SET or a PULSE_SPEED mark. -/
  | indexPulse (dt : Nat) (n : Fin 4)
  /-- SSI_WORD (R40): An SSI position word is read and decoded, or counted as invalid. -/
  | ssiWord (dt : Nat) (n : Fin 4) (r : SsiRead)
  /-- STANDSTILL_TIMEOUT (R48): No edge arrives for standstill_time, so speed and acceleration become zero. -/
  | standstillTimeout (dt : Nat) (n : Fin 4)
  /-- TELEGRAM_TIMEOUT (R46): No telegram is accepted for tel_timeout, and the coordinate enters HOLDOVER. -/
  | telegramTimeout (dt : Nat) (n : Fin 4)
  /-- HOLDOVER_EXPIRED (R47): HOLDOVER lasts for holdover, and the coordinate enters LOST. -/
  | holdoverExpired (dt : Nat) (n : Fin 4)
  /-- ESTIMATOR_RECORD (R50): Every 1 µs, ANG records the estimator state in its history. -/
  | estimatorRecord (dt : Nat) (n : Fin 4)
  /-- TIME_STEP (R57): At the tick boundary, TIME steps by the offset and pending targets shift with it. -/
  | timeStep (dt : Nat)
  /-- LATCH_EDGE (R58): A latch input captures TIME and every coordinate into its FIFO. -/
  | latchEdge (dt : Nat) (i : Fin 16) (falling : Bool)
  /-- SYNC_PULSE (R63): The coordinate, advanced by the lead, reaches a SYNC position, and a pulse starts. -/
  | syncPulse (dt : Nat) (i : Fin 4) (position : W64) (backward : Bool) (wiringOk : Bool)
  /-- SYNC_PULSE_END (R63): The pulse width expires, and the SYNC output returns inactive. -/
  | syncPulseEnd (dt : Nat) (i : Fin 4)
  /-- READ_TIMEOUT_EXPIRED (R141): The D2H read timer expires, and the notification fires. -/
  | readTimeoutExpired (dt : Nat) (q : Fin 64)
  /-- SCRUB (R121): The scrubber reads store words and repairs corrected errors in place. -/
  | scrub (dt : Nat) (errors : List LaneError) (passEnd : Bool)
  /-- FAULT_OCCURRENCE (R367): The collector latches a source's fault value and takes the record's state and reactions. -/
  | faultOccurrence (dt : Nat) (s : Fin 512) (o : Option Occ)
  /-- INVALID_PAIR (R359): A source pair stays at FP = FN for more than 4 cycles, which is recorded as a raise with WIRE. -/
  | invalidPair (dt : Nat) (s : Fin 512)
  /-- FAULT_LINE_CLEAR (R377): A source's condition ends and CURRENT clears; a GRACE record is cleared. -/
  | faultLineClear (dt : Nat) (s : Fin 512)
  /-- GRACE_EXPIRED (R377): Grace expires with CURRENT set, and the source enters FAULT with its deferred reactions. -/
  | graceExpired (dt : Nat) (s : Fin 512)
  /-- QUIET_TIME_EXPIRED (R370): The quiet timer reaches quiet_time, and a non-permanent source returns to IDLE. -/
  | quietTimeExpired (dt : Nat) (s : Fin 512)
  /-- CHIP_RESET (R373): A CHIP reaction resets the device once the log record of its cause is written. -/
  | chipReset (dt : Nat)
  /-- INJECT_DONE (R378): An injection is detected, or its 10 ms expire, and the result is reported. -/
  | injectDone (dt : Nat) (residual : Option Nat)
  /-- FW_LOAD_DONE (R419): The slot write of FW_LOAD is completed and verified, and FW_LOADED is logged. -/
  | fwLoadDone (dt : Nat)
  /-- ALIVE_RENEWAL (R382): The supervisor firmware renews ALIVE. -/
  | aliveRenewal (dt : Nat)
  /-- ALIVE_RENEWAL_MISSED (R382): No renewal arrives for 2 ms, so ALIVE stops low and source 0x107 is raised. -/
  | aliveRenewalMissed (dt : Nat)
  /-- MONITOR_SAMPLE (R423): Every 1 ms the canaries, temperature and voltage are sampled, and CORE is lowered fast if slack is low. -/
  | monitorSample (dt : Nat) (x : Sample)
  /-- PLAN (R425): The planner evaluates the monitors every plan_period and takes its decisions. -/
  | plan (dt : Nat)
  /-- CORE_FREQ_CHANGE (R426): A CORE frequency decision is applied to all cores at a tick boundary. -/
  | coreFreqChange (dt : Nat)
  /-- HISTORY_SUMMARY (R435): Every summary period, summary records are written to the history rings. -/
  | historySummary (dt : Nat)
  /-- KS_SCAN (R434): A keep-store margin scan rewrites words that fail the shifted read. -/
  | ksScan (dt : Nat) (x : KsScan)
  /-- PULSE_MISSING (R45): On a PULSE_SPEED coordinate the once-per-revolution pulse fails to arrive within pulse_tol of the estimated revolution time and is treated as a source error, so the coordinate enters HOLDOVER. -/
  | pulseMissing (dt : Nat) (n : Fin 4)
  /-- TIME_SLEW_DONE (R56): A slew of TIME consumes its whole offset, so the slewing ends and the SLEWING flag clears. -/
  | timeSlewDone (dt : Nat)
  /-- EXCLUSIVE_WINDOW_END (R261): The coordinate leaves an exclusive window, and event requests that waited for it become eligible at the next arbitration. -/
  | exclusiveWindowEnd (dt : Nat) (c : Fin 32)
  /-- SCHED_BOUNDARY_CROSSED (R257): After a coordinate-boundary switch, the coordinate crosses the boundary in the direction of motion, and a schedule in AWAITING_BOUNDARY returns to RUNNING with SCHED_STATE reason 5. -/
  | schedBoundaryCrossed (dt : Nat) (c : Fin 32)
  /-- ESTIMATED_DIRECTION_CHANGE (R53): A coordinate driven by SSI, telegram or pulse-and-speed estimation moves dir_hyst back from its extreme, so its direction flag changes and armed occurrences are disarmed. -/
  | estimatedDirectionChange (dt : Nat) (n : Fin 4)
  /-- LINK_UP (R72): A PCIe link that was down trains again, and the partitions mapped to it are reachable once more. -/
  | linkUp (dt : Nat) (link : Port)
  /-- IO_RAIL_WINDOW_CHANGE (R445): The 3.3 V or 1.8 V rail leaves or re-enters its window, and that rail's pins become high impedance or return to their driven levels. -/
  | ioRailWindowChange (dt : Nat) (r : Rail) (inside : Bool)
  /-- TAP_INSTRUCTION_UPDATE (R458): A boundary-scan instruction loaded through the TAP takes effect on the pins while PORST_N is low, or acts as BYPASS while PORST_N is high. -/
  | tapInstructionUpdate (dt : Nat) (i : TapInstr)
  deriving DecidableEq, Repr

end Sys2Proof
end

