-- ==== Sys2Proof/Decode.lean ====
section
/-! DEFINITION. No row of the operation table has bits, so no word spells a command: commands reach the block as
host accesses, bus frames and pin events, never as encoded words. -/
namespace Sys2Proof

/-- The command that a word of `nbits` bits spells: none, since no row of the table gives bits. -/
def decodeTableWord (_nbits _w : Nat) : Option Instr := none

end Sys2Proof
end

