-- ==== Sys2Proof/Config.lean ====
section
/-! DEFINITION. What the device fixes (the figures of Table 0.1 and the store map of Table 4.2) and the values
the spec leaves open. An `opaque` constant has no body: a statement about it holds whatever its value is. -/
namespace Sys2Proof.Config

/-- Free value: the outcome of the ECDSA check of R401 for header bytes 0-79 and the 96 signature bytes.
Tregewin's key is held in ROM and is not in the spec (log entry 4). -/
opaque signatureOk : List Byte → List Byte → Bool
/-- Free value: the receive error counter to which ISO 11898-1:2024 returns a counter above 127 after a
correct reception, as an offset into 119-127 (log entry 7). -/
opaque recReturn : Nat → Nat
/-- Free value: the content of an ISO 11898-4 reference message (R269, R271) for the level, the cycle count, the
global time and Disc_Bit; the standard that fixes it is not in the spec (log entry 12). -/
opaque refMessage : Nat → Nat → Nat → Bool → List Byte
/-- Free value: the payload length of an ISO 11898-4 reference message of a level, modulo 9 (log entry 12). -/
opaque refLen : Nat → Nat
/-- Free value: how many arbitration bits of an XL frame with an identifier word lie before its ADH bit, stuff bits
included; the standard that fixes it is not in the spec (R171, log entry 148). -/
opaque adhBit : Nat → Nat
/-- Free value: the layout of the STORE_STATUS response, for which R152 lists the values but no offsets; the
argument is the listed values in the order of R152 (log entry 9). -/
opaque storeStatusBytes : List Nat → List Byte

/-- Free value: the row (bank times 1,024 plus row) that holds a store word; the manual gives the number of banks,
rows and words but not how addresses are spread over them (log entry 10). -/
opaque rowOfWord : Nat → Nat

/-- Free value: the group id that a signal map names for its descriptor `k`. R284 and R285 order and compare group
ids, and Table 9.5 has no field that carries one (log entry 11). -/
opaque groupId : List Byte → Nat → Nat
/-- Free value: the 22 payload bits of the quiet NaN that a binary64 NaN becomes in a binary32 field (R292, log
entry 13). -/
opaque nanPayload : Nat → Nat

/-- Free value: the detail word of a raise whose chapter defines none, by the source and the number of the resource
that the occurrence concerns (R360, log entry 14). -/
opaque faultDetail : Nat → Nat → Nat

/-- Free value: the detail word of a refused access on source 0x024, which names the partition, the region (its number in
Table 4.2; 16 for the control window, 17 for an aperture that names none) and the address; the spec gives no layout (R19,
log entry 134). -/
opaque refusalDetail : Nat → Nat → Nat → Nat

/-- Free value: Tregewin's PCI vendor ID and bits 15:3 of the Subsystem ID (R71, log entry 135). -/
opaque vendorId : Nat
/-- Free value: bits 15:3 of the Subsystem ID of a function (R71, log entry 135). -/
opaque subsystemHigh : Nat

/-- Free value: the producer's id in a table that SIG_READ or SCHED_READ merges from sets of different ids
(log entry 15). -/
opaque mergedId : List Nat → Nat

/-- Free value: the demand of a context in TRACK that holds no stream sample, and the target of a heartbeat HOLD on
such a context (R319, R334), by axis and instant (log entry 16). -/
opaque emptyDemand : Nat → Nat → Int
/-- Free value: the model value that AX_FB carries when feedback is lost, where no update gives an instant to take
it at (R330, Table 10.8), by axis and instant (log entry 17). -/
opaque lostModel : Nat → Nat → Int

/-- Free value: the target field of AX_STATUS in a state for which Table 10.7 names none, by axis and instant (log
entry 18). -/
opaque idleTarget : Nat → Nat → Nat

/-- Free value: the response of TIME_DISCIPLINE, for which Table 2.9 lists an action and a slew duration but no widths
or offsets (log entry 19). -/
opaque disciplineBytes : Nat → Nat → List Byte

/-- Free value: the response of FAULT_INJECT, which carries the result of INJECT_DONE and for which Table 12.16 gives no
layout; the arguments are the result and the residual (log entry 20). -/
opaque injectBytes : Nat → Nat → List Byte

/-- Free value: what an abandoned slot write leaves in its slot, as a result code less 1 modulo 6 (R411), by the boot
number (log entry 21). -/
opaque abandonedSlot : Nat → Nat
/-- Free value: TIME of the last keep-store write of a start that is interrupted (Table 13.6), by its boot number (log
entry 22). -/
opaque bootWriteTime : Nat → BitVec 64

/-- Free value: the clock frequency in MHz of a domain of Table 14.3 for which the spec gives none: PCA, PCB and MGT (log
entry 23). -/
opaque domainMhz : Nat → Nat
/-- Free value: the old value and the new value of a decision record about a keep-store refresh, for which Table 14.4
names none, by the word (log entry 24). -/
opaque refreshValues : Nat → Nat × Nat

/-- Free value: the level that the boundary register drives on a pin while a TAP instruction that drives pins is in force
(R458), by the pin; its content is shifted in outside the operation table (log entry 25). -/
opaque boundaryCell : Nat → Bool

/-- Free value: the buffer that a lane of the message object region belongs to, as twice the object number plus the
buffer, 256 or more where it belongs to none; R231 gives the bytes an object takes, not their places (log entry 26). -/
opaque bufferOf : Nat → Nat
/-- Free value: the entry that a lane of a configuration copy holds once `n` commits have been accepted, as a kind (0 none,
1 rule, 2 slot, 3 section, 6 scaling entry, 7 axis context), its channel or axis and its index; the manual gives the place
of areas and of signal and group descriptors only (log entry 27). -/
opaque entryOf : Nat → Nat → Nat × Nat × Nat
/-- Free value: the lane for which the entry was meant that a crossing FIFO delivered with a parity error, by the detail word
of source 0x027; none where it was not on its way into the store (log entry 142). -/
opaque crossedLane : Nat → Option Nat

/-- Bytes of the central store (R116). -/
def storeBytes : Nat := 0x2000000
/-- Start of the queue control pages (Table 4.2). -/
def ctlPages : Nat := 0x140000
/-- Start of the partition event rings (Table 4.2). -/
def eventRings : Nat := 0x200000
/-- Start of the channel rings (Table 4.2). -/
def chanRings : Nat := 0x280000
/-- Start of the message object buffers (Table 4.2). -/
def objBuffers : Nat := 0x380000
/-- Start of the signal image (Table 4.2). -/
def sigImage : Nat := 0x580000
/-- Start of the group sequence words (Table 9.1). -/
def seqWords : Nat := 0xD80000
/-- Start of the configuration copies (Table 4.2). -/
def confCopies : Nat := 0xE00000
/-- Start of the queue and bulk pool (Table 4.2). -/
def pool : Nat := 0x1800000
/-- End of the store address space (Table 4.2). -/
def poolEnd : Nat := 0x2000000
/-- Bytes of a channel ring (R215). -/
def ringBytes : Nat := 0x8000
/-- The CORE floor in MHz (R350). -/
def coreFloor : Nat := 720
/-- The nominal CORE frequency in MHz (Table 14.2). -/
def coreMax : Nat := 800

end Sys2Proof.Config
end

