-- ==== Sys2Proof/Machine/State.lean ====
section
/-! DEFINITION. The state of the IV-3264: every register, queue, ring, buffer, counter, mode and pin the spec
gives the device, as plain data, and the state right after reset. Parameters of the dictionary (Tables 16.2 to
16.6) are held in one map, `params`, under their key id (R91). -/
namespace Sys2Proof.Machine

/-- No condition of the spec stops the block: every error is a status code, a fault record, a count or a
refused access, and the machine goes on. The type has no constructor. -/
inductive Fault where
  deriving DecidableEq, Repr

/-- Commands without a meaning. -/
inductive Refusal where
  /-- Raised by the dispatch for a row that is not modelled, by its mnemonic. Safe: nothing is claimed. -/
  | notModelled (mnemonic : String)
  deriving DecidableEq, Repr

/-! ### Time and device -/

/-- The ANG clock (R55, R56, R57). -/
structure Clock where
  cyc : Nat            -- ANG cycles since device reset
  time : W64           -- TIME
  gen : Byte           -- TIME generation
  slewing : Bool
  slewLeft : Int       -- offset still to be slewed, ns
  slewAcc : Nat        -- fraction of a ns of slew earned, in 10^-6 ns
  step : Option Int    -- offset of a step that waits for the next tick boundary
  deriving DecidableEq, Repr

/-- STATE.DEV (Table 3.7), and the condition before the boot flow. -/
inductive DevMode where
  | held | boot | ready | rusk
  deriving DecidableEq, Repr

/-- Why a device reset is due (Table 13.6, origin). -/
inductive ResetOrigin where
  | porst | chip | restart | failed
  deriving DecidableEq, Repr

/-- The device as a whole: mode, straps, rails, the running firmware, ticks (R342, R396, R445, R458). -/
structure Dev where
  mode : DevMode
  porst : Bool                    -- level of PORST_N
  straps : Straps
  v08 : Bool
  v18 : Bool
  v33 : Bool
  mboxVer : Nat
  fwMajor : Nat
  fwMinor : Nat
  fwBuild : Nat
  runSlot : Nat
  fallback : Bool
  ruskReason : Nat
  resultA : Nat                   -- slot results of this start (R401)
  resultB : Nat
  tEnd : W64
  restartSlot : Nat               -- slot named by DEV_RESTART; 0 preferred
  resetDue : Option ResetOrigin   -- a device reset that has been decided
  restartAt : Option Nat          -- instant of a DEV_RESTART, ns since reset
  tick : Nat                      -- dispatch ticks since device reset
  tap : TapInstr
  nextCommit : Nat                -- next commit id (R103)
  turn : Nat                      -- partition that the control core looks at first (R87)
  unitsOk : Bool × Bool           -- gateway units in service (R302)
  deriving DecidableEq, Repr

/-! ### Host ports and partitions -/

/-- HB_STATUS.STATE (Table 3.16). -/
inductive HbState where
  | off | armed | ok | late | expired
  deriving DecidableEq, Repr

/-- A fallback of Table 3.24 in force. -/
inductive Fallback where
  | stop | hold
  deriving DecidableEq, Repr

/-- A request the device has accepted (R82): its slot, its command code and its content. -/
structure Accepted where
  slot : Nat
  code : Nat
  rq : Request
  deriving DecidableEq, Repr

/-- A commit record (Table 3.28). -/
structure CommitRec where
  id : W32
  state : Nat
  lc : Nat
  gen : Byte
  time : W64
  coord : W64
  deriving DecidableEq, Repr

/-- One partition's window, mailbox page, event ring counts and heartbeat (Tables 3.7 to 3.17). -/
structure Part where
  refused : W16
  ignored : W16
  done : W16
  qNotify : W64
  irqSet : Byte                 -- the W1C causes, bits 7:3
  irqEnable : Byte
  irqVector : W32
  evtHead : W32
  evtTail : W32
  evtLost : Nat
  hb : HbState
  hbVal : Option W32
  hbSeen : Bool                 -- a valid write has come since the partition reset
  hbAt : Nat                    -- instant of the last valid write, ns since reset
  fallback : Option Fallback    -- in force since EXPIRED or during a partition reset
  hbValid : Bool                -- a valid HB write came after the fallback began (R334)
  resetting : Option Nat        -- origin of a partition reset that runs (Table 3.23)
  aps : Tab W32 4
  msix : SMap Nat               -- MSI-X table words that differ from their reset value
  pba : Byte
  msiSent : List Nat            -- MSI-X messages sent, as their vectors, oldest first
  slots : SMap Byte             -- the mailbox page, offset from 0x1000
  accepted : List Accepted
  seq : W32
  commits : List CommitRec
  deriving DecidableEq, Repr

/-- A long-running command (R88), or one that waits for the data plane, that has not completed. -/
structure Long where
  part : Nat
  slot : Nat
  code : Nat
  tag : W16
  res : Nat                     -- channel, partition, source or slot it uses
  arg : Nat
  blocks : Bool                 -- later commands of the partition wait for it
  discard : Bool                -- its response is discarded (R112)
  t0 : Nat                      -- instant at which it began, ns since reset (R89)
  bulkOff : Nat                 -- bulk range held until it completes (R100)
  bulkLen : Nat
  deriving DecidableEq, Repr

/-- An event-log record (Table 12.11). -/
structure LogRec where
  kind : Nat
  flags : Nat
  index : Nat
  cause : Nat
  reactions : Nat
  value : Nat
  time : W64
  coord : W64
  gen : Byte
  stampLc : Nat
  boot : Nat
  seq : W32
  deriving DecidableEq, Repr

/-- What a plane event ring holds (R20, R22): a log record, or for the five commands of R20 a request of a mailbox slot and
the supervisor's completion. -/
inductive PlaneEntry where
  | event (r : LogRec)
  | request (part slot : Nat)
  | completion (part slot : Nat)
  deriving DecidableEq, Repr

/-- A plane event ring, and the events its writer could not post (R22). -/
structure PlaneRing where
  entries : List PlaneEntry
  lost : Nat
  deriving DecidableEq, Repr

/-- What the control plane sends to the data plane through the control-to-data update ring (R21, R24): a parameter value,
a fallback (with its HB_EXPIRED event where `tell`), a handover of everything a partition owns, or a fallback's end. -/
inductive Update where
  | par (num inst v : Nat)
  | fallback (p : Nat) (f : Fallback) (tell : Bool)
  | handOver (p q : Nat)
  | resume (p : Nat)
  deriving DecidableEq, Repr

/-- The control-to-data update ring and the data-to-control status area (R21): what waits, and how many updates have been
posted and acknowledged. -/
structure Updates where
  ring : List Update
  posted : Nat
  acked : Nat
  deriving DecidableEq, Repr

/-! ### Central store and queues -/

/-- The central store (R116 to R127). `mem` lists bytes that are not zero; `poison` the poisoned lanes. -/
structure Store where
  mem : SMap Byte
  poison : List Nat
  ce : Tab W32 16
  ue : Tab W32 16
  spare : Tab Nat 16            -- spare rows used per bank
  rowUe : SMap Nat              -- row (bank x 1024 + row): instant of its last uncorrectable error + 1
  rowCe : List (Nat × Nat)      -- row and instant of each corrected error kept for R433
  laneNow : List Nat            -- lanes corrected in this scrub pass
  lanePrev : List Nat           -- lanes corrected in the previous pass
  swapTick : Nat                -- tick of the last failure swap
  scrubAt : Nat                 -- instant at which the present scrub pass began
  roles : SMap Nat              -- configuration tables whose active content is copy B (R125)
  deriving DecidableEq, Repr

/-- A host queue (R129 to R144). Counts are byte counts modulo 2^32. -/
structure Queue where
  isOpen : Bool
  base : Nat                    -- store address of the ring
  bytes : Nat                   -- ring size while OPEN
  hostWord : W32                -- the wr (H2D) or rd (D2H) word the host writes
  wr : W32                      -- latched wr (H2D) or wr (D2H)
  rd : W32                      -- rd (H2D) or latched rd (D2H)
  flushGen : W16
  dropped : W32
  bad : W32
  items : W32
  lost : Nat
  fired : Bool
  timer : Option Nat
  high : Nat
  dropTold : Bool               -- a drop since the last valid doorbell has been told
  ends : List W32               -- end counts of the unread data items of a D2H ring
  deriving DecidableEq, Repr

/-- A D2H item before it is written (R133). -/
structure OutItem where
  q : Nat
  ty : Nat
  index : Nat
  payload : List Byte
  aux : W64
  deriving DecidableEq, Repr

/-- An H2D item taken from its queue. -/
structure InItem where
  q : Nat
  rd : W32                      -- rd at the item
  ty : Nat
  index : Nat
  payload : List Byte
  aux : W64
  deriving DecidableEq, Repr

/-- Work that one data core hands to another (R229). -/
inductive Handoff where
  | out (src : Nat) (it : OutItem)
  | inn (src : Nat) (it : InItem)
  deriving DecidableEq, Repr

/-! ### Channels -/

/-- Channel states (R154). -/
inductive ChState where
  | closed | opened | sleep | retired
  deriving DecidableEq, Repr

/-- Operating modes (Table 5.8), in the numbering of CHAN_OPEN. -/
inductive ChMode where
  | normal | restricted | monitor | loopInt | loopExt
  deriving DecidableEq, Repr

/-- Steps of Table 5.7 between the request of a standby release and integration, and step 4 of the self-test (Table 6.4).
An OPEN channel integrates again after new timing or a protocol exception (R158, R164). -/
inductive ChPhase where
  | none | waiting | releasing | integrating | testing
  deriving DecidableEq, Repr

/-- Error states (Table 6.1). -/
inductive ErrSt where
  | active | passive | busOff | busOffHeld
  deriving DecidableEq, Repr

/-- Error counters, LONE and retirement (R184 to R207). -/
structure ChErr where
  tec : Nat
  recv : Nat                    -- REC
  st : ErrSt
  warned : Bool
  offTimes : List Nat           -- instants of bus-off entries within the window, newest first
  lone : Bool
  probes : W32
  heardAt : Nat                 -- last frame heard or own frame acknowledged
  ackErr : Bool                 -- an attempt since then ended in an ACK error
  probeAt : Nat
  causes : List Nat             -- permanent causes detected, not yet retired
  causeTick : Nat               -- tick in which the first of them arose (R207)
  retireCause : Nat
  bothRetire : Bool
  byTwin : Bool                 -- service has passed to the twin
  serving : Bool                -- serves its primary's objects
  handTick : Bool               -- a handover waits for the next tick boundary
  restored : Bool               -- RETIRED since before the last device reset (R201, R208)
  winAt : Nat                   -- start of the loop-delay window
  winCount : Nat
  winBad : Nat
  deriving DecidableEq, Repr

/-- The counters of the diagnostic record (Table 6.5). -/
structure Diag where
  tecPeak : Nat
  recPeak : Nat
  bitErr : W32
  stuffErr : W32
  formErr : W32
  crcErr : W32
  ackErrs : W32
  flagsRx : W32
  passives : W32
  busOffs : W32
  recoveries : W32
  loneEntries : W32
  loneNoack : W32
  collides : W32
  retirements : Nat
  requalified : Nat
  deriving DecidableEq, Repr

/-- The counters of CHAN_STATUS (Table 5.14). -/
structure ChStat where
  loopLast : Nat
  loopMin : Nat
  loopMax : Nat
  tdcOut : Nat
  framesTx : W32
  framesRx : W32
  overLen : W32
  oneshotFail : W32
  pex : W32
  deriving DecidableEq, Repr

/-- A frame in a channel ring (Table 7.1). -/
structure Frame where
  id : W32
  kind : FrameKind
  brs : Bool
  esi : Bool
  rtr : Bool
  sec : Bool
  own : Bool
  arbLost : Bool
  stale : Bool
  loss : Bool
  dlc : Nat
  payload : List Byte
  sdt : Byte
  vcid : Byte
  af : W32
  seq : W32
  gen : Byte
  lcState : Byte
  time : W64
  lcs : List W64
  deriving DecidableEq, Repr

/-- An entry of a channel ring: its ring offset, its store words and its frame (R216, R217). -/
structure RingEntry where
  pos : Nat
  words : Nat
  frame : Frame
  deriving DecidableEq, Repr

/-- A channel ring and its counts (R215 to R218, Table 7.13). `wr` and `rd` are byte counts. -/
structure Ring where
  entries : List RingEntry
  wr : Nat
  rd : Nat
  seq : W32
  dones : List (Nat × OutItem)  -- TX_DONE items that wait until the data core has taken the ring up to that count (R229)
  lossDue : Bool
  dropTold : Bool
  high : Nat
  written : W32
  drop : W32
  poisoned : W32
  classified : W32
  unmatched : W32
  trunc : W32
  overwrites : W32
  mirrored : W32
  sendIgnored : W32
  deriving DecidableEq, Repr

/-- A message object (Table 7.5). Its configuration is held under the `obj[c][o]` keys. -/
structure Obj where
  seq : W32
  len : Nat
  origLen : Nat
  id : W32
  dlc : Nat
  fmt : Byte
  cur : Bool                    -- buffer 1 is current
  hold : Nat                    -- 0 none, 1 buffer 0, 2 buffer 1
  holdAt : Nat                  -- instant at which that prefetch began (R237)
  past : List (W64 × List Byte) -- payloads replaced while an attempt may run, with the TIME of replacement (R175)
  buf0 : List Byte
  buf1 : List Byte
  new : Bool
  trunc : Bool
  overwrite : Bool
  empty : Bool
  pending : Bool
  oneshotFailed : Bool
  collide : Bool
  storeErr : Bool
  overwrites : W32
  time : W64
  coord : W64
  lcState : Byte
  gen : Byte
  sdt : Byte
  vcid : Byte
  af : W32
  frames : W32
  collCount : Nat               -- consecutive collision errors (R193)
  collOneshot : Bool            -- switched to one-shot by R194
  stampLc : Nat                 -- coordinate in which coord was taken (Table 7.5)
  tried : Bool                  -- an attempt of the present request has ended
  arbLost : Bool                -- and the first one lost arbitration (R161)
  deferred : Option (List Byte) -- payload that waits for a free buffer (R237)
  waitToken : Bool              -- waits under the start budget (R412)
  trapHeld : Bool               -- held by a safe reaction (R374)
  silent : Bool                 -- silenced by a fallback until a new payload (R111)
  once : Bool                   -- the pending request is one-shot (R176, R194)
  deriving DecidableEq, Repr

/-- A rule's extension (Table 7.4). -/
structure RuleExt where
  lenMin : Nat
  lenMax : Nat
  sdtValue : Nat
  sdtMask : Nat
  vcidValue : Nat
  vcidMask : Nat
  afValue : Nat
  afMask : Nat
  deriving DecidableEq, Repr

/-- A rule and, where EXT is set, its extension (Tables 7.3, 7.4), as their bytes' fields. -/
structure Rule where
  idValue : Nat
  idMask : Nat
  kinds : Nat
  flags : Nat
  action : Nat
  object : Nat
  selector : Nat
  queue : Nat
  ext : Option RuleExt
  absent : Bool                 -- read as poisoned; treated as absent (Table 4.1)
  deriving DecidableEq, Repr

/-- A rule list with its table_id (R220, R221). -/
structure RuleList where
  tableId : Nat
  rules : List Rule
  deriving DecidableEq, Repr

/-- A slot entry (Table 8.3). -/
structure Slot where
  pos : Nat
  winBefore : Nat
  winAfter : Nat
  object : Nat
  kind : Nat
  policy : Nat
  rep : Nat
  baseCycle : Nat
  absent : Bool                 -- read as poisoned; treated as absent (Table 4.1)
  deriving DecidableEq, Repr

/-- What of a signal decides whether a switch restarts it (R288). -/
structure SigIdent where
  chan : Nat
  tx : Bool
  key : Nat
  stamp : Nat
  offset : Nat
  len : Nat
  form : Nat
  scale : Option (Int × Nat × Int)
  deriving DecidableEq, Repr

/-- A schedule of one channel: a section of a Wafer with its slots (Table 8.2). -/
structure Sched where
  kind : Nat
  lc : Nat
  flags : Nat
  matrix : Nat
  winSpeedMin : Nat
  cycle : Nat
  base : Nat
  lateTol : Nat
  refLead : Nat
  waferId : Nat
  slots : List Slot
  deriving DecidableEq, Repr

/-- Schedule states (Table 8.7). -/
inductive SchedState where
  | idle | running | suspended | awaiting
  deriving DecidableEq, Repr

/-- The angle reference message of an armed REF slot (R265, R266). -/
structure ArmMsg where
  coord : W64
  payload : List Byte
  target : Option W64
  fixed : Bool
  spent : Bool
  deriving DecidableEq, Repr

/-- An armed occurrence (R254 to R258): its slot entry and the section's late_tol, its coordinate (TIME for a TIME
schedule), its target and whether it is fixed, whether its frame has started and, for a REF slot, its reference message. -/
structure Armed where
  slot : Slot
  tol : Nat
  coord : W64
  back : Bool
  target : Option W64
  fixed : Bool
  started : Bool
  blocked : Bool
  late : Bool
  retry : Bool                  -- an attempt of it has failed
  once : Bool                   -- its object was one-shot when it was armed (R194)
  old : Bool                    -- armed under a schedule that has been replaced since (R28, R272)
  passed : Bool                 -- it had come due when service passed to the twin (R204)
  arm : Option ArmMsg
  deriving DecidableEq, Repr

/-- The running schedule of a channel (R254 to R276). -/
structure SchedRt where
  st : SchedState
  gen : Byte
  armed : Option Armed
  flying : Option Armed                -- the occurrence whose frame has started
  spent : List W64                     -- occurrences whose hysteresis has not been left (R256)
  last : Option W64                    -- coordinate up to which occurrences have been dealt with
  fired : W32
  missed : W32
  late : W32
  blocked : W32
  empty : W32
  refSent : W32
  refMissed : W32
  refFailed : W32
  revFired : W32
  lastBlocker : W32
  errMax : W32
  errLast : W32
  missRun : Nat
  armSeq : Byte
  cycleCount : Nat
  cycleAt : W64                        -- TIME target of the running basic cycle's reference message
  reportAt : Nat                       -- instant of the last report; 0 none
  repMissed : W32
  repBlocked : W32
  lastMiss : W64
  boundary : Option (W64 × Bool)       -- switched, boundary not yet crossed; its direction (R274)
  old : Option Sched                   -- the schedule whose occurrences lie before that boundary
  seen : Option W64                    -- coordinate at the last tick
  passed : List W64                    -- old occurrences counted before the boundary (R274)
  dues : List W64                      -- targets of occurrences missed since the last frame heard (R262)
  why : Nat                            -- reason of the present suspension (Table 8.8)
  refGen : Byte                        -- TIME generation at the last reference message (R271)
  deriving DecidableEq, Repr

/-- A signal group (Table 9.5). -/
structure Group where
  id : Nat
  first : Nat
  count : Nat
  chan : Nat
  flags : Nat
  key : Nat
  frameLen : Nat
  deliverQ : Nat
  ageTime : Nat
  ageDist : Nat
  deriving DecidableEq, Repr

/-- A signal descriptor (Table 9.6). -/
structure Sig where
  offset : Nat
  len : Nat
  form : Nat
  scale : Nat
  deriving DecidableEq, Repr

/-- A scaling entry (Table 9.7). -/
structure Scale where
  mul : Int
  shift : Nat
  offset : Int
  deriving DecidableEq, Repr

/-- The signal set of one channel: groups in ascending id, descriptors by signal id, scaling entries by their
number in the map (R284). -/
structure SigSet where
  mapId : Nat
  groups : List Group
  sigs : List (Nat × Sig)
  scales : List (Nat × Scale)
  deriving DecidableEq, Repr

/-- The gateway counts of a channel (Table 9.15). -/
structure SigStat where
  rxUpdates : W32
  txPacks : W32
  short : W32
  sat : W32
  staleEntries : W32
  deriving DecidableEq, Repr

/-- Edge histograms and sample-point offsets of a channel (R423 to R432). -/
structure ChAge where
  histA : List Int              -- phases e_A held by histogram A
  histD : List Int
  spA : Int                     -- applied arbitration offset in quanta
  sjwCut : Nat                  -- by how much the applied SJW lies below the configured one (R165, R429)
  ssp : Int                     -- applied secondary offset, 1.5625 ns
  moveA : Option (Int × Bool)   -- decided offset that waits for the switch, and whether a limit clamped it
  moveD : Option (Int × Bool)
  loopMin : Nat                 -- loop delay since the last summary
  loopMax : Nat
  tdcOut : W32                  -- since reset
  tdcOutPer : Nat               -- since the last summary
  drift : Int
  horizon : Nat
  deriving DecidableEq, Repr

/-- An event frame that left the transmit buffer of its engine for another one, or for none, and may be on the bus: no row
tells when an event frame starts, so it may have started before `at_`. -/
structure Displaced where
  what : TxWhat
  home : Nat                    -- channel that defines its object
  frame : Frame                 -- the frame with the payload at that instant
  past : List (W64 × Frame)     -- and with the payloads replaced before, as in `Obj.past`
  ended : Bool                  -- its request has ended, or its object has restarted (R239)
  at_ : W64                     -- TIME at which it left the buffer
  last : Nat                    -- instant by which it has ended
  deriving DecidableEq, Repr

/-- Step 4 of a channel's self-test (Table 6.4): test frames sent, the extremes of the measured loop delays, and whether
one lay outside its range. -/
structure TestRun where
  sent : Nat
  loMin : Nat
  loMax : Nat
  bad : Bool
  deriving DecidableEq, Repr

/-- One channel (chapters 5 to 9). -/
structure Chan where
  st : ChState
  mode : ChMode
  core : Nat
  phase : ChPhase
  phaseAt : Nat                 -- instant of the standby release
  wantOpen : ChMode             -- mode to enter after integration
  openOrigin : Nat              -- origin reported by CHAN_MODE_CHANGED
  wantMode : Option (ChMode × Nat)   -- mode change that waits for bus idle, with its origin
  wantSleep : Bool
  ctxd : Bool
  fast : Option (Nat × Nat)     -- instants at which CMODE rises and falls for the last XL frame with FAST (R171)
  cstb : Bool
  openAt : Nat                  -- instant at which it became OPEN
  timingDue : Option W64        -- new timing waits for bus idle: TIME of its boundary (R164)
  timingOld : List (Nat × Nat)  -- the values that stay in force until then
  spMoveDue : Bool              -- planner move waits for bus idle
  txBuf : Option TxWhat         -- the prefetched frame (R164)
  bufSched : Bool               -- it is a scheduled frame for its target
  bufKept : Option Frame        -- it is sent as prepared, its object having restarted (R28, R239)
  txNow : Option TxWhat         -- frame in progress whose start is known
  nowSched : Bool               -- it is that of a slot
  nowFrame : Option Frame       -- as it was formed at its start
  displaced : List Displaced
  ssp : Nat                     -- secondary sample point of the last transmitted frame, 1/16 ns after the bit's start (R168)
  test : Option TestRun
  passDue : Option (Nat × Nat × Nat)   -- a passed self-test waits for a tick boundary: mode, loop delays (R210)
  err : ChErr
  diag : Diag
  stat : ChStat
  ring : Ring
  objs : SMap Obj
  rules : RuleList
  sched : Option Sched
  rt : SchedRt
  sigs : SigSet
  sigStat : SigStat
  age : ChAge
  deriving DecidableEq, Repr

/-! ### Line-coordinate unit -/

/-- Coordinate states (Table 2.3). -/
inductive LcState where
  | noSource | acquire | track | holdover | lost
  deriving DecidableEq, Repr

/-- What the estimator knows of a coordinate (R44, R46, R48): its value `val`, speed and acceleration at instant `t0`,
and the correction that is being blended in. -/
structure Est where
  st : LcState
  val : W64
  t0 : Nat
  speed : W64
  accel : W64
  clamp : Option Nat            -- INC: one count in 2^-32 turn, beyond which an edge must lie (R48)
  blendTot : Int                -- difference that the running blend removes over `blendSpan` ns
  blendSpan : Nat
  blendAt : Nat                 -- instant up to which it is already in `val`
  blendEnd : Nat
  deriving DecidableEq, Repr

/-- A record of the estimator history (R50): the estimator at one instant, in TIME and in ns since reset. -/
structure HistRec where
  time : W64
  at_ : Nat
  est : Est
  deriving DecidableEq, Repr

/-- A line coordinate (R36 to R54). `val` is its value at instant `t0`; between events it is extrapolated. -/
structure Lc where
  st : LcState
  val : W64
  t0 : Nat
  speed : W64
  accel : W64
  rem : Int                     -- remainder of the count ratio (R37)
  rev : Bool
  extreme : W64
  aligned : Bool
  err : Nat
  run : Nat                     -- consecutive valid counts, words, or telegrams
  pulses : Nat
  pulseAt : Nat
  edgeAt : Nat
  inAt : Nat                    -- instant of the last edge of A or B, counted or not, + 1; 0 none (R38)
  qerrAt : List W64             -- coordinates of the quadrature errors within one turn
  ssiBad : Nat
  ssiLast : Option Nat          -- last valid SSI position
  ssiTop : Nat                  -- bits above the encoder's count (R40)
  off : W64                     -- what LC_SET or ALIGN added to an SSI position
  telSeq : Option Nat
  telRef : W64
  telAt : Nat
  telGood : Nat
  blend : Int                   -- position difference still to be removed (R44)
  blendTot : Int                -- difference that the running blend was to remove, over `blendSpan` ns
  blendSpan : Nat
  blendAt : Nat
  blendEnd : Nat
  holdAt : Nat
  set : Option (Nat × Nat × W64)   -- pending LC_SET: instant, latch, value
  hist : List HistRec
  deriving DecidableEq, Repr

/-- A latch record before it becomes an item (Table 2.6). -/
structure LatchRec where
  time : W64
  lcs : List W64
  flags : Nat
  lcState : Byte
  gen : Byte
  seq : Nat
  lost : Nat
  deriving DecidableEq, Repr

/-- A latch input (R58 to R61). -/
structure Lat where
  fifo : List LatchRec
  captured : W32
  outside : W32
  lost : W32
  lostDue : Nat
  seq : W16
  deriving DecidableEq, Repr

/-- A SYNC output (R62, R63, R448). -/
structure Sync where
  driven : Bool
  active : Bool
  until_ : Nat
  pulses : W32
  merged : W32
  skipped : W32
  spent : List (W64 × Bool)     -- positions not yet re-armed, and the side they were reached from
  deriving DecidableEq, Repr

/-! ### Signal gateway and axis engine -/

/-- A signal record (Table 9.2). -/
structure SigRec where
  value : W64
  time : W64
  coord : W64
  count : W32
  valid : Bool
  sat : Bool
  stale : Bool
  short : Bool
  gen : Byte
  lcState : Byte
  deriving DecidableEq, Repr

/-- A group's sequence word and its last update (Table 9.3, R296). -/
structure GroupRt where
  seq : W32
  stale : Bool
  defined : Bool
  time : W64
  coord : W64
  deriving DecidableEq, Repr

/-- The work of a gateway request: the frame of a selector to unpack (R290), or an event object to pack, with the SEND
that follows its pack (R295). -/
inductive GwJob where
  | unpack (selector : Nat) (frame : Frame)
  | pack (obj : Nat) (send : Bool)
  deriving DecidableEq, Repr

/-- A request handed to a gateway unit (R226, R301). -/
structure GwReq where
  unit : Nat
  tick : Nat
  chan : Nat                    -- channel whose groups it works on
  job : GwJob
  deriving DecidableEq, Repr

/-- The signal image and the gateway's outstanding work (R282, R301). -/
structure Gateway where
  recs : SMap SigRec
  groups : SMap GroupRt
  reqs : List GwReq
  deriving DecidableEq, Repr

/-- Axis states (Table 10.7). -/
inductive AxState where
  | inactive | track | target | stopping | standstill | held
  deriving DecidableEq, Repr

/-- A phase of constant jerk of a plan (R321): its duration in 2^-64 s and its jerk in Q32.32. -/
structure Phase where
  dur : Nat
  jerk : Int
  deriving DecidableEq, Repr

/-- An evaluation the engine keeps for the model value of R329. -/
structure Eval where
  time : W64
  p : Int
  v : Int
  a : Int
  j : Int
  deriving DecidableEq, Repr

/-- An occurrence whose frame has started and whose feedback deadline has not passed (R327): its coordinate and direction,
or for a TIME schedule the TIME of its start of frame. -/
structure Due where
  at_ : W64
  back : Bool
  time : Bool
  deriving DecidableEq, Repr

/-- An axis context (chapter 10). Quantities are Q32.32. -/
structure Axis where
  st : AxState
  p : Int
  v : Int
  a : Int
  target : Int
  demand : Int
  samples : List (W64 × Int)
  plan : List Phase
  planP : Int                   -- state at the plan's start
  planV : Int
  planA : Int
  clock : Nat                   -- the plan's clock, ns
  vMax : Nat                    -- limits in force
  aMax : Nat
  jMax : Nat
  tPrev : W64
  tEval : W64
  evals : List Eval
  misses : Nat
  freezes : Nat
  devs : Nat
  fbVal : W64
  fbCount : W32
  fbSeen : Bool
  pFb : Int
  reaction : Nat                -- feedback reaction in force, of Table 10.7
  hbReact : Nat                 -- heartbeat fallback in force: 0 none, 1 HOLD, 3 STOP
  hbOver : Bool                 -- the fallback has ended; the next AX_CMD applies (R334)
  flags : Nat
  cond : Nat
  devMax : Nat
  ignored : W32
  release : Bool
  ran : Bool
  redefined : Bool              -- INACTIVE because a commit changed `sp_sig` or `io_frac` (R317, R341)
  supervised : Bool
  due : List Due
  disableDue : Bool
  deriving DecidableEq, Repr

/-! ### Faults, log, keep store, budget, ageing -/

/-- States of a fault source (R367). -/
inductive FState where
  | idle | grace | fault
  deriving DecidableEq, Repr

/-- A fault record (Table 12.9). -/
structure FRec where
  st : FState
  cls : Nat
  cause : Nat
  lastCause : Nat
  current : Bool
  latched : Bool
  inj : Bool
  overlap : Bool
  wire : Bool
  reactions : Nat
  count : Nat
  recoveries : Nat
  firstGen : Byte
  lastGen : Byte
  firstTime : W64
  firstCoord : W64
  lastTime : W64
  lastCoord : W64
  detail : W32
  stampLc : Nat
  graceAt : Nat                 -- instant of entry to GRACE
  quietAt : Nat                 -- instant from which the quiet timer runs
  lastAt : Nat                  -- instant of the last occurrence + 1; 0 for none
  owner : Nat                   -- owner of the resource the last occurrence names (R361)
  traps : Bool                  -- its TRAP holds requests (R375)
  deriving DecidableEq, Repr

/-- A fault value that a source holds on its lines until the collector takes it (R23, R360). -/
structure Raise where
  src : Nat
  sub : Nat
  cls : Nat
  detail : W32
  persists : Bool
  owner : Nat
  deriving DecidableEq, Repr

/-- The fault collector (chapter 12). -/
structure Faults where
  recs : SMap FRec
  raised : List Raise
  conds : List (Nat × Nat × Nat)      -- source, sub-cause, index of the conditions that are current
  pinHeld : Bool                -- PIN levels held until FAULT_PIN_RELEASE (R380)
  aliveAt : Nat                 -- instant from which ALIVE may toggle again (R380)
  renewAt : Nat                 -- instant of the last ALIVE renewal
  aliveMiss : Bool
  alert : Bool                  -- ALERT_N driven low
  alertAns : Bool               -- the device has answered the alert response
  alertLo : Bool
  alertHi : Bool
  alertAgain : Bool
  inject : Option (Nat × Nat × Nat × Nat × Nat)   -- source, pattern, mask, index, start of a running injection
  chipDue : Bool
  mgLast : Option W32           -- seq of the last log record the management port returned
  deriving DecidableEq, Repr

/-- A boot record (Table 13.6). -/
structure BootRec where
  boot : Nat
  origin : Nat
  straps : Nat
  outcome : Nat
  reason : Nat
  slots : Nat
  fails : Nat
  slotA : Nat
  slotB : Nat
  step : Nat
  detail : Nat
  tEnd : W64
  major : Nat
  minor : Nat
  build : Nat
  deriving DecidableEq, Repr

/-- A firmware slot of the keep store: the result code its content gives under R401, and its header's
version fields. -/
structure FwSlot where
  code : Nat
  mboxVer : Nat
  major : Nat
  minor : Nat
  build : Nat
  deriving DecidableEq, Repr

/-- A history record (Table 14.3). -/
structure Hist where
  kind : Nat
  subject : Nat
  flags : Nat
  hours : Nat
  time : W64
  a : Nat
  b : Nat
  c : Nat
  d : Nat
  seq : W32
  deriving DecidableEq, Repr

/-- The keep store (R394, R396, R404, R386, R435). It survives every reset. -/
structure Keep where
  fails : Nat
  pref : Nat
  slotA : FwSlot
  slotB : FwSlot
  boot : Nat
  recs : List BootRec
  isOpen : Bool                 -- the newest record is of a start that has not ended
  tried : Nat                   -- slot the last attempt tried first (R399)
  writing : Option (Nat × FwSlot)   -- slot that FW_LOAD writes, and its new content
  log : List LogRec
  logSeq : W32
  logLost : Nat
  params : SMap Nat             -- parameters with commit point RESET
  retired : List (Nat × Nat)    -- channel and retire cause
  units : List Nat              -- retired gateway units
  swaps : List (Nat × Nat)      -- bank and row swapped for a spare
  interrupted : Bool            -- a write was abandoned (R394)
  daily : List Hist
  dailySeq : W32
  long : List Hist
  longSeq : W32
  summaries : Nat
  coreRec : Nat                 -- CORE frequency of the last decision; 0 none
  swapsLife : Nat
  swapsBank : Tab Nat 16        -- pre-emptive swaps per bank, lifetime
  ksLife : Nat
  poh : Nat                     -- power-on hours
  hot : Nat
  tjPeak : Int
  slackLife : List Int
  slackBase : List Int
  ksWords : List (Nat × Nat)    -- word and power-on hour of its last refresh
  deriving DecidableEq, Repr

/-- A start-class request that waits for a token (R412, R414). -/
structure Wait where
  chan : Nat
  obj : Option Nat              -- none: a standby release
  t0 : Nat                      -- instant of arrival
  told : Bool                   -- counted in deferred
  deriving DecidableEq, Repr

/-- The start budget (R413 to R421). -/
structure Budget where
  tokens : Nat
  mark : Nat                    -- 1 ms marks of ANG's count taken so far
  waiting : List Wait
  granted : W32
  deferred : W32
  withdrawn : W32
  waitMax : Nat
  deriving DecidableEq, Repr

/-- The monitors and the planner (chapter 14). -/
structure Age where
  mhz : Nat
  want : Option (Nat × Nat × Nat)   -- CORE frequency decided, with the reason and the flags of its record
  wantFast : Bool
  slack : List Int
  slackPer : List Int           -- lowest since the last plan
  perMhz : Nat                  -- CORE frequency at which that of CORE was measured
  perLast : Int                 -- lowest CORE slack of the last plan period, and its frequency
  perLastMhz : Nat
  slackMin : List Int           -- lowest since reset
  slackDay : List (Nat × Int × Nat)   -- CORE samples of the last 24 hours that no later one undercuts: instant, slack, MHz
  slackSum : List Int           -- sum since the last summary
  sumN : Nat
  slackLow : List Int           -- lowest since the last summary
  lowMhz : Nat                  -- CORE frequency at which that of CORE was measured
  temp : Int
  tempMax : Int
  tempHi : Int                  -- highest since the last summary
  tempSum : Int
  v08 : Nat
  v18 : Nat
  v33 : Nat
  v08lo : Nat
  v08hi : Nat
  v18lo : Nat
  v33lo : Nat
  margin : Nat
  decisions : W32
  lastPlan : W64
  planAt : Nat                  -- instant of the last plan
  sampleAt : Nat                -- instant of the last sample
  sumAt : Nat                   -- instant of the last summary
  ksAt : Nat                    -- instant of the last keep-store scan
  onMs : Nat                    -- ms of operation not yet counted in power-on hours
  hotMs : Nat
  ceSum : Tab W32 16            -- store counts at the last summary
  ueSum : Tab W32 16
  deriving DecidableEq, Repr

/-! ### Staged configuration -/

/-- What one partition has staged (R102): parameter values by key id, rule lists, schedules and signal sets
by channel. -/
structure Stage where
  params : SMap Nat
  rules : List (Nat × RuleList)
  scheds : List (Nat × Option Sched)
  sigs : List (Nat × SigSet)
  deriving DecidableEq, Repr

/-- A pending commit (R26 to R30). -/
structure Commit where
  id : W32
  part : Nat
  stage : Stage
  lc : Nat                      -- 0xFF for a tick boundary
  boundary : W64
  chans : List Nat              -- channels it affects (R27)
  seen : W64                    -- coordinate when the boundary was last looked for
  hit : Option (W64 × Bool)     -- the crossing that is predicted or has happened, and its direction (R273)
  deriving DecidableEq, Repr

/-- What the device last returned on a host or management read (model's own observation latch). -/
structure Out where
  bytes : List Byte
  poisoned : Bool
  deriving DecidableEq, Repr

/-- The whole machine. -/
structure State where
  clk : Clock
  dev : Dev
  linksDown : List Port         -- PCIe links that are down
  parts : Tab Part 8
  longs : List Long             -- commands in progress, oldest first
  rings : Tab PlaneRing 3       -- plane event rings: control, data, management
  upd : Updates
  store : Store
  qs : Tab Queue 64
  handoff : List Handoff
  chans : Tab Chan 32
  lcs : Tab Lc 4
  lats : Tab Lat 16
  syncs : Tab Sync 4
  gw : Gateway
  axes : Tab Axis 128
  fc : Faults
  keep : Keep
  budget : Budget
  age : Age
  params : SMap Nat             -- active parameter values that differ from their default
  expert : SMap Nat             -- expert grants: resource key to bitmap of partitions
  revoked : SMap Nat            -- resources whose owner's own expert rights P0 has revoked
  stages : Tab Stage 8
  commits : List Commit         -- pending commits in order of acceptance
  out : Out
  fresh : Nat                   -- counter for free values (the model's own field)
  pending : List Instr
  deriving DecidableEq, Repr

/-! ### Reset -/

/-- A partition's window after device reset (Tables 3.7 to 3.17). -/
def Part.reset : Part :=
  { refused := 0, ignored := 0, done := 0, qNotify := 0, irqSet := 0, irqEnable := 0, irqVector := 0,
    evtHead := 0, evtTail := 0, evtLost := 0, hb := .off, hbVal := none, hbSeen := false, hbAt := 0,
    fallback := none,
    hbValid := false, resetting := none, aps := Vector.replicate 4 0, msix := [], pba := 0, msiSent := [],
    slots := [], accepted := [], seq := 0, commits := [] }

/-- An empty plane event ring (R22). -/
def PlaneRing.reset : PlaneRing := { entries := [], lost := 0 }

/-- Nothing waits for the data plane (R21). -/
def Updates.reset : Updates := { ring := [], posted := 0, acked := 0 }

/-- A closed queue (R129). -/
def Queue.reset : Queue :=
  { isOpen := false, base := 0, bytes := 0, hostWord := 0, wr := 0, rd := 0, flushGen := 0, dropped := 0,
    bad := 0, items := 0, lost := 0, fired := false, timer := none, high := 0, dropTold := false, ends := [] }

/-- The error state of a channel with its counters clear (Table 6.1). -/
def ChErr.reset : ChErr :=
  { tec := 0, recv := 0, st := .active, warned := false, offTimes := [], lone := false, probes := 0,
    heardAt := 0, ackErr := false, probeAt := 0, causes := [], causeTick := 0, retireCause := 0, bothRetire := false,
    byTwin := false, serving := false, handTick := false, restored := false, winAt := 0, winCount := 0, winBad := 0 }

/-- Diagnostic counters at device reset (R211). -/
def Diag.reset : Diag :=
  { tecPeak := 0, recPeak := 0, bitErr := 0, stuffErr := 0, formErr := 0, crcErr := 0, ackErrs := 0,
    flagsRx := 0, passives := 0, busOffs := 0, recoveries := 0, loneEntries := 0, loneNoack := 0,
    collides := 0, retirements := 0, requalified := 0 }

/-- Counters of CHAN_STATUS at CHAN_OPEN (R182): no loop delay measured reads 0xFFFF. -/
def ChStat.reset : ChStat :=
  { loopLast := 0xFFFF, loopMin := 0xFFFF, loopMax := 0xFFFF, tdcOut := 0, framesTx := 0, framesRx := 0,
    overLen := 0, oneshotFail := 0, pex := 0 }

/-- An empty channel ring (R215). -/
def Ring.reset : Ring :=
  { entries := [], wr := 0, rd := 0, seq := 0, dones := [], lossDue := false, dropTold := false, high := 0, written := 0,
    drop := 0, poisoned := 0, classified := 0, unmatched := 0, trunc := 0, overwrites := 0, mirrored := 0,
    sendIgnored := 0 }

/-- An object that has neither been written nor updated (R239). -/
def Obj.reset : Obj :=
  { seq := 0, len := 0, origLen := 0, id := 0, dlc := 0, fmt := 0, cur := false, hold := 0, holdAt := 0, past := [], buf0 := [],
    buf1 := [], new := false, trunc := false, overwrite := false, empty := false, pending := false,
    oneshotFailed := false, collide := false, storeErr := false, overwrites := 0, time := 0, coord := 0,
    lcState := 0, gen := 0, sdt := 0, vcid := 0, af := 0, frames := 0, collCount := 0, collOneshot := false,
    stampLc := 0, tried := false, arbLost := false, deferred := none, waitToken := false, trapHeld := false,
    silent := false, once := false }

/-- A channel without a schedule (Table 8.7). -/
def SchedRt.reset : SchedRt :=
  { st := .idle, gen := 0, armed := none, flying := none, spent := [], last := none, fired := 0, missed := 0, late := 0,
    blocked := 0, empty := 0, refSent := 0, refMissed := 0, refFailed := 0, revFired := 0, lastBlocker := 0,
    errMax := 0, errLast := 0, missRun := 0, armSeq := 0, cycleCount := 0, cycleAt := 0, reportAt := 0,
    repMissed := 0, repBlocked := 0, lastMiss := 0, boundary := none, old := none,
    seen := none, passed := [], dues := [], why := 0, refGen := 0 }

/-- A channel without signals. -/
def SigSet.empty : SigSet := { mapId := 0, groups := [], sigs := [], scales := [] }

/-- A channel's monitors after reset (R430). -/
def ChAge.reset : ChAge :=
  { histA := [], histD := [], spA := 0, sjwCut := 0, ssp := 0, moveA := none, moveD := none, loopMin := 0xFFFF,
    loopMax := 0, tdcOut := 0, tdcOutPer := 0, drift := 0, horizon := 0xFFFFFFFF }

/-- A closed channel with the pins of R155, served by data core `core` (R17, R154). -/
def Chan.reset (core : Nat) : Chan :=
  { st := .closed, mode := .normal, core := core, phase := .none, phaseAt := 0, wantOpen := .normal,
    openOrigin := 1, wantMode := none, wantSleep := false, ctxd := true, fast := none, cstb := true,
    openAt := 0, timingDue := none, timingOld := [], spMoveDue := false, txBuf := none, bufSched := false, bufKept := none,
    txNow := none, nowSched := false, nowFrame := none, displaced := [], ssp := 0, test := none, passDue := none, err := ChErr.reset,
    diag := Diag.reset, stat := ChStat.reset, ring := Ring.reset, objs := [],
    rules := { tableId := 0, rules := [] }, sched := none, rt := SchedRt.reset, sigs := SigSet.empty,
    sigStat := { rxUpdates := 0, txPacks := 0, short := 0, sat := 0, staleEntries := 0 },
    age := ChAge.reset }

/-- A coordinate in NO_SOURCE (Table 2.3). -/
def Lc.reset : Lc :=
  { st := .noSource, val := 0, t0 := 0, speed := 0, accel := 0, rem := 0, rev := false, extreme := 0,
    aligned := false, err := 0, run := 0, pulses := 0, pulseAt := 0, edgeAt := 0, inAt := 0, qerrAt := [],
    ssiBad := 0, ssiLast := none, ssiTop := 0, off := 0, telSeq := none, telRef := 0, telAt := 0, telGood := 0, blend := 0, blendTot := 0,
    blendSpan := 0,    blendAt := 0, blendEnd := 0, holdAt := 0, set := none, hist := [] }

/-- A latch input with an empty FIFO (R60). -/
def Lat.reset : Lat := { fifo := [], captured := 0, outside := 0, lost := 0, lostDue := 0, seq := 0 }

/-- A SYNC output at high impedance (R448). -/
def Sync.reset : Sync :=
  { driven := false, active := false, until_ := 0, pulses := 0, merged := 0, skipped := 0, spent := [] }

/-- A context that is not defined (Table 10.2); its limits are the defaults of Table 10.10. -/
def Axis.reset : Axis :=
  { st := .inactive, p := 0, v := 0, a := 0, target := 0, demand := 0, samples := [], plan := [], planP := 0,
    planV := 0, planA := 0, clock := 0, vMax := 0x100000000, aMax := 0xA00000000, jMax := 0x6400000000,
    tPrev := 0, tEval := 0, evals := [], misses := 0, freezes := 0, devs := 0, fbVal := 0, fbCount := 0,
    fbSeen := false, pFb := 0, reaction := 0, hbReact := 0, hbOver := false, flags := 0, cond := 0,
    devMax := 0, ignored := 0, release := false, ran := false, redefined := false, supervised := false, due := [],
    disableDue := false }

/-- An unused fault record (R371). -/
def FRec.reset : FRec :=
  { st := .idle, cls := 0, cause := 0, lastCause := 0, current := false, latched := false, inj := false,
    overlap := false, wire := false, reactions := 0, count := 0, recoveries := 0, firstGen := 0, lastGen := 0,
    firstTime := 0, firstCoord := 0, lastTime := 0, lastCoord := 0, detail := 0, stampLc := 0, graceAt := 0,
    quietAt := 0, lastAt := 0, owner := 0, traps := false }

/-- The fault collector after device reset (R371, R383). -/
def Faults.reset : Faults :=
  { recs := [], raised := [], conds := [], pinHeld := false, aliveAt := 0, renewAt := 0,
    aliveMiss := false, alert := false, alertAns := false, alertLo := false, alertHi := false,
    alertAgain := false, inject := none, chipDue := false, mgLast := none }

/-- A firmware slot as shipped: a valid image of Askent 4.2 with mailbox interface version 4 (R1). -/
def FwSlot.shipped : FwSlot := { code := 0, mboxVer := 4, major := 4, minor := 2, build := 0 }

/-- A formatted keep store as shipped: both slots hold a valid image, slot A is preferred, nothing is recorded
(log entry 3). -/
def Keep.shipped : Keep :=
  { fails := 0, pref := 1, slotA := FwSlot.shipped, slotB := FwSlot.shipped, boot := 0, recs := [],
    isOpen := false, tried := 0, writing := none, log := [], logSeq := 0, logLost := 0, params := [], retired := [], units := [], swaps := [],
    interrupted := false, daily := [], dailySeq := 0, long := [], longSeq := 0, summaries := 0, coreRec := 0,
    swapsLife := 0, swapsBank := Vector.replicate 16 0, ksLife := 0, poh := 0, hot := 0, tjPeak := 0,
    slackLife := [], slackBase := [], ksWords := [] }

/-- The store after the self-test has left it at zero (R398, R402). -/
def Store.reset : Store :=
  { mem := [], poison := [], ce := Vector.replicate 16 0, ue := Vector.replicate 16 0,
    spare := Vector.replicate 16 0, rowUe := [], rowCe := [], laneNow := [], lanePrev := [], swapTick := 0, scrubAt := 0,
    roles := [] }

/-- A full bucket of 32 tokens (R413, Table 13.11). -/
def Budget.reset : Budget :=
  { tokens := 32, mark := 0, waiting := [], granted := 0, deferred := 0, withdrawn := 0, waitMax := 0 }

/-- The monitors before their first sample; CORE runs at the floor (R428). -/
def Age.reset : Age :=
  { mhz := 720, want := none, wantFast := false, slack := [], slackPer := [], perMhz := 720, perLast := 0,
    perLastMhz := 720, slackMin := [], slackDay := [], slackSum := [], sumN := 0, slackLow := [], lowMhz := 720, temp := 0, tempMax := 0, tempHi := 0, tempSum := 0, v08 := 0,
    v18 := 0, v33 := 0, v08lo := 0, v08hi := 0, v18lo := 0, v33lo := 0, margin := 0, decisions := 0,
    lastPlan := 0, planAt := 0, sampleAt := 0, sumAt := 0, ksAt := 0, onMs := 0, hotMs := 0, ceSum := Vector.replicate 16 0,
    ueSum := Vector.replicate 16 0 }

/-- Nothing staged. -/
def Stage.empty : Stage := { params := [], rules := [], scheds := [], sigs := [] }

/-- The clock at the release of a device reset (R55, R410). -/
def Clock.reset : Clock :=
  { cyc := 0, time := 0, gen := 0, slewing := false, slewLeft := 0, slewAcc := 0, step := none }

/-- The device while PORST_N is low, with its rails inside their windows (R392). -/
def Dev.reset : Dev :=
  { mode := .held, porst := false, straps := 0, v08 := true, v18 := true, v33 := true, mboxVer := 0,
    fwMajor := 0, fwMinor := 0, fwBuild := 0, runSlot := 0, fallback := false, ruskReason := 0, resultA := 7,
    resultB := 7, tEnd := 0, restartSlot := 0, resetDue := none,
    restartAt := none, tick := 0, tap := .bypass, nextCommit := 1, turn := 0, unitsOk := (true, true) }

/-- The machine in reset: PORST_N low, every register at its reset value, the keep store as shipped. The
first command that makes it run is POWER_ON_RESET (log entry 2). -/
def State.reset : State :=
  { clk := Clock.reset, dev := Dev.reset, linksDown := [], parts := Vector.replicate 8 Part.reset, longs := [],
    rings := Vector.replicate 3 PlaneRing.reset, upd := Updates.reset,
    store := Store.reset, qs := Vector.replicate 64 Queue.reset, handoff := [],
    chans := Vector.ofFn fun c : Fin 32 => Chan.reset (c.val % 4), lcs := Vector.replicate 4 Lc.reset,
    lats := Vector.replicate 16 Lat.reset, syncs := Vector.replicate 4 Sync.reset,
    gw := { recs := [], groups := [], reqs := [] }, axes := Vector.replicate 128 Axis.reset,
    fc := Faults.reset, keep := Keep.shipped, budget := Budget.reset, age := Age.reset, params := [],
    expert := [], revoked := [], stages := Vector.replicate 8 Stage.empty, commits := [],
    out := { bytes := [], poisoned := false }, fresh := 0, pending := [] }

end Sys2Proof.Machine
end

