-- ==== Sys2Proof/Machine/Params.lean ====
section
/-! DEFINITION. The parameter dictionary (Tables 16.2 to 16.6 and the parameter tables of chapters 2 to 14):
number, key, level, type, range, default, commit point and the resource class that owns each key (R8, R9, R463,
R468), and the read of an active value. -/
namespace Sys2Proof.Machine

/-- What a parameter's instance names: the class of R96 whose owner writes it, or the device. -/
inductive PRes where
  | dev | chan | obj | axis | queue | lc | latch | sync | time
  deriving DecidableEq, Repr

/-- A condition on a value beyond its range: 0xFF or 0xFFFF_FFFF for none, a power of two, an identifier word
or format byte of Table 7.1, a test identifier of Table 6.7. -/
inductive PChk where
  | none | orFF | orNone | pow2 | idWord | format | testId
  deriving DecidableEq, Repr

/-- A row of the dictionary. `commit` is 0 IMMEDIATE, 1 EPOCH, 2 RESET; `ty` is a code of Table 3.33; `p0` marks
the keys that only P0 writes; `count` is the number of instances (Table 0.5). -/
structure PDesc where
  num : Nat
  key : String
  expert : Bool
  ty : Nat
  lo : Nat
  hi : Nat
  step : Nat
  dflt : Nat
  commit : Nat
  res : PRes
  p0 : Bool
  count : Nat
  chk : PChk
  deriving DecidableEq, Repr

/-- Number of `port.pa_width` (R463). -/
def K.portPaWidth : Nat := 0x000
/-- Number of `port.pb_width` (R463). -/
def K.portPbWidth : Nat := 0x001
/-- Number of `part[p].port` (R463). -/
def K.partPort : Nat := 0x002
/-- Number of `part[p].bulk_size` (R463). -/
def K.partBulkSize : Nat := 0x003
/-- Number of `part[p].rule_quota` (R463). -/
def K.partRuleQuota : Nat := 0x004
/-- Number of `part[p].sig_quota` (R463). -/
def K.partSigQuota : Nat := 0x005
/-- Number of `part[p].grp_quota` (R463). -/
def K.partGrpQuota : Nat := 0x006
/-- Number of `part[p].slot_quota` (R463). -/
def K.partSlotQuota : Nat := 0x007
/-- Number of `part[p].hb_timeout` (R463). -/
def K.partHbTimeout : Nat := 0x008
/-- Number of `part[p].hb_fallback` (R463). -/
def K.partHbFallback : Nat := 0x009
/-- Number of `part[p].hb_target` (R463). -/
def K.partHbTarget : Nat := 0x00A
/-- Number of `part[p].q_quota` (R463). -/
def K.partQQuota : Nat := 0x00B
/-- Number of `chan[c].owner` (R463). -/
def K.chanOwner : Nat := 0x100
/-- Number of `chan[c].formats` (R463). -/
def K.chanFormats : Nat := 0x101
/-- Number of `chan[c].max_len` (R463). -/
def K.chanMaxLen : Nat := 0x102
/-- Number of `chan[c].rate_a` (R463). -/
def K.chanRateA : Nat := 0x103
/-- Number of `chan[c].rate_d` (R463). -/
def K.chanRateD : Nat := 0x104
/-- Number of `chan[c].brp_a` (R463). -/
def K.chanBrpA : Nat := 0x105
/-- Number of `chan[c].tseg1_a` (R463). -/
def K.chanTseg1A : Nat := 0x106
/-- Number of `chan[c].tseg2_a` (R463). -/
def K.chanTseg2A : Nat := 0x107
/-- Number of `chan[c].sjw_a` (R463). -/
def K.chanSjwA : Nat := 0x108
/-- Number of `chan[c].brp_d` (R463). -/
def K.chanBrpD : Nat := 0x109
/-- Number of `chan[c].tseg1_d` (R463). -/
def K.chanTseg1D : Nat := 0x10A
/-- Number of `chan[c].tseg2_d` (R463). -/
def K.chanTseg2D : Nat := 0x10B
/-- Number of `chan[c].sjw_d` (R463). -/
def K.chanSjwD : Nat := 0x10C
/-- Number of `chan[c].xcvr` (R463). -/
def K.chanXcvr : Nat := 0x10D
/-- Number of `chan[c].fast` (R463). -/
def K.chanFast : Nat := 0x10E
/-- Number of `chan[c].xl_err_sig` (R463). -/
def K.chanXlErrSig : Nat := 0x10F
/-- Number of `chan[c].pex` (R463). -/
def K.chanPex : Nat := 0x110
/-- Number of `chan[c].tdc` (R463). -/
def K.chanTdc : Nat := 0x111
/-- Number of `chan[c].tdc_offset` (R463). -/
def K.chanTdcOffset : Nat := 0x112
/-- Number of `chan[c].tdc_min` (R463). -/
def K.chanTdcMin : Nat := 0x113
/-- Number of `chan[c].tdc_max` (R463). -/
def K.chanTdcMax : Nat := 0x114
/-- Number of `chan[c].mode_settle` (R463). -/
def K.chanModeSettle : Nat := 0x115
/-- Number of `chan[c].sp_window` (R463). -/
def K.chanSpWindow : Nat := 0x116
/-- Number of `chan[c].wake_time` (R463). -/
def K.chanWakeTime : Nat := 0x117
/-- Number of `chan[c].wake_filter` (R463). -/
def K.chanWakeFilter : Nat := 0x118
/-- Number of `chan[c].wake_action` (R463). -/
def K.chanWakeAction : Nat := 0x119
/-- Number of `chan[c].warn_level` (R463). -/
def K.chanWarnLevel : Nat := 0x120
/-- Number of `chan[c].boff_recovery` (R463). -/
def K.chanBoffRecovery : Nat := 0x121
/-- Number of `chan[c].boff_delay` (R463). -/
def K.chanBoffDelay : Nat := 0x122
/-- Number of `chan[c].boff_limit` (R463). -/
def K.chanBoffLimit : Nat := 0x123
/-- Number of `chan[c].boff_window` (R463). -/
def K.chanBoffWindow : Nat := 0x124
/-- Number of `chan[c].lone_time` (R463). -/
def K.chanLoneTime : Nat := 0x125
/-- Number of `chan[c].lone_probe` (R463). -/
def K.chanLoneProbe : Nat := 0x126
/-- Number of `chan[c].collide_oneshot` (R463). -/
def K.chanCollideOneshot : Nat := 0x127
/-- Number of `chan[c].stuck_time` (R463). -/
def K.chanStuckTime : Nat := 0x128
/-- Number of `chan[c].tdc_window` (R463). -/
def K.chanTdcWindow : Nat := 0x129
/-- Number of `chan[c].tdc_window_frames` (R463). -/
def K.chanTdcWindowFrames : Nat := 0x12A
/-- Number of `chan[c].twin` (R463). -/
def K.chanTwin : Nat := 0x12B
/-- Number of `chan[c].test_id` (R463). -/
def K.chanTestId : Nat := 0x12C
/-- Number of `chan[c].test_frames` (R463). -/
def K.chanTestFrames : Nat := 0x12D
/-- Number of `obj[c][o].dir` (R463). -/
def K.objDir : Nat := 0x200
/-- Number of `obj[c][o].id` (R463). -/
def K.objId : Nat := 0x201
/-- Number of `obj[c][o].format` (R463). -/
def K.objFormat : Nat := 0x202
/-- Number of `obj[c][o].size` (R463). -/
def K.objSize : Nat := 0x203
/-- Number of `obj[c][o].prio` (R463). -/
def K.objPrio : Nat := 0x204
/-- Number of `obj[c][o].oneshot` (R463). -/
def K.objOneshot : Nat := 0x205
/-- Number of `obj[c][o].txc` (R463). -/
def K.objTxc : Nat := 0x206
/-- Number of `obj[c][o].start_class` (R463). -/
def K.objStartClass : Nat := 0x207
/-- Number of `obj[c][o].deliver_q` (R463). -/
def K.objDeliverQ : Nat := 0x208
/-- Number of `obj[c][o].stamp_lc` (R463). -/
def K.objStampLc : Nat := 0x209
/-- Number of `obj[c][o].xl_sdt` (R463). -/
def K.objXlSdt : Nat := 0x20A
/-- Number of `obj[c][o].xl_vcid` (R463). -/
def K.objXlVcid : Nat := 0x20B
/-- Number of `obj[c][o].xl_af` (R463). -/
def K.objXlAf : Nat := 0x20C
/-- Number of `chan[c].filt_batch` (R463). -/
def K.chanFiltBatch : Nat := 0x210
/-- Number of `chan[c].mirror_q` (R463). -/
def K.chanMirrorQ : Nat := 0x211
/-- Number of `chan[c].mirror_own` (R463). -/
def K.chanMirrorOwn : Nat := 0x212
/-- Number of `chan[c].copy_lc` (R463). -/
def K.chanCopyLc : Nat := 0x213
/-- Number of `lc[n].owner` (R463). -/
def K.lcOwner : Nat := 0x300
/-- Number of `lc[n].source` (R463). -/
def K.lcSource : Nat := 0x301
/-- Number of `lc[n].kind` (R463). -/
def K.lcKind : Nat := 0x302
/-- Number of `lc[n].cnt_num` (R463). -/
def K.lcCntNum : Nat := 0x303
/-- Number of `lc[n].cnt_den` (R463). -/
def K.lcCntDen : Nat := 0x304
/-- Number of `lc[n].dir_invert` (R463). -/
def K.lcDirInvert : Nat := 0x305
/-- Number of `lc[n].in_filter` (R463). -/
def K.lcInFilter : Nat := 0x306
/-- Number of `lc[n].qerr_limit` (R463). -/
def K.lcQerrLimit : Nat := 0x307
/-- Number of `lc[n].z_mode` (R463). -/
def K.lcZMode : Nat := 0x308
/-- Number of `lc[n].z_pos` (R463). -/
def K.lcZPos : Nat := 0x309
/-- Number of `lc[n].z_tol` (R463). -/
def K.lcZTol : Nat := 0x30A
/-- Number of `lc[n].ssi_bits` (R463). -/
def K.lcSsiBits : Nat := 0x30B
/-- Number of `lc[n].ssi_turn_bits` (R463). -/
def K.lcSsiTurnBits : Nat := 0x30C
/-- Number of `lc[n].ssi_code` (R463). -/
def K.lcSsiCode : Nat := 0x30D
/-- Number of `lc[n].ssi_parity` (R463). -/
def K.lcSsiParity : Nat := 0x30E
/-- Number of `lc[n].ssi_clock` (R463). -/
def K.lcSsiClock : Nat := 0x30F
/-- Number of `lc[n].ssi_period` (R463). -/
def K.lcSsiPeriod : Nat := 0x310
/-- Number of `lc[n].ssi_latch_delay` (R463). -/
def K.lcSsiLatchDelay : Nat := 0x311
/-- Number of `lc[n].ssi_err_limit` (R463). -/
def K.lcSsiErrLimit : Nat := 0x312
/-- Number of `lc[n].tel_queue` (R463). -/
def K.lcTelQueue : Nat := 0x313
/-- Number of `lc[n].tel_timeout` (R463). -/
def K.lcTelTimeout : Nat := 0x314
/-- Number of `lc[n].tel_blend` (R463). -/
def K.lcTelBlend : Nat := 0x315
/-- Number of `lc[n].tel_jump_tol` (R463). -/
def K.lcTelJumpTol : Nat := 0x316
/-- Number of `lc[n].tel_pos_tol` (R463). -/
def K.lcTelPosTol : Nat := 0x317
/-- Number of `lc[n].tel_speed_tol` (R463). -/
def K.lcTelSpeedTol : Nat := 0x318
/-- Number of `lc[n].tel_acc_tol` (R463). -/
def K.lcTelAccTol : Nat := 0x319
/-- Number of `lc[n].pulse_tol` (R463). -/
def K.lcPulseTol : Nat := 0x31A
/-- Number of `lc[n].speed_max` (R463). -/
def K.lcSpeedMax : Nat := 0x31B
/-- Number of `lc[n].acc_max` (R463). -/
def K.lcAccMax : Nat := 0x31C
/-- Number of `lc[n].jerk_max` (R463). -/
def K.lcJerkMax : Nat := 0x31D
/-- Number of `lc[n].holdover` (R463). -/
def K.lcHoldover : Nat := 0x31E
/-- Number of `lc[n].standstill_time` (R463). -/
def K.lcStandstillTime : Nat := 0x31F
/-- Number of `lc[n].dir_hyst` (R463). -/
def K.lcDirHyst : Nat := 0x320
/-- Number of `lc[n].epoch_at` (R463). -/
def K.lcEpochAt : Nat := 0x321
/-- Number of `time.owner` (R463). -/
def K.timeOwner : Nat := 0x330
/-- Number of `time.step_enable` (R463). -/
def K.timeStepEnable : Nat := 0x331
/-- Number of `time.step_threshold` (R463). -/
def K.timeStepThreshold : Nat := 0x332
/-- Number of `time.slew_max` (R463). -/
def K.timeSlewMax : Nat := 0x333
/-- Number of `lat[i].owner` (R463). -/
def K.latOwner : Nat := 0x340
/-- Number of `lat[i].enable` (R463). -/
def K.latEnable : Nat := 0x341
/-- Number of `lat[i].edge` (R463). -/
def K.latEdge : Nat := 0x342
/-- Number of `lat[i].filter` (R463). -/
def K.latFilter : Nat := 0x343
/-- Number of `lat[i].queue` (R463). -/
def K.latQueue : Nat := 0x344
/-- Number of `lat[i].win_lc` (R463). -/
def K.latWinLc : Nat := 0x345
/-- Number of `lat[i].win_from` (R463). -/
def K.latWinFrom : Nat := 0x346
/-- Number of `lat[i].win_to` (R463). -/
def K.latWinTo : Nat := 0x347
/-- Number of `sync[i].owner` (R463). -/
def K.syncOwner : Nat := 0x350
/-- Number of `sync[i].mode` (R463). -/
def K.syncMode : Nat := 0x351
/-- Number of `sync[i].lc` (R463). -/
def K.syncLc : Nat := 0x352
/-- Number of `sync[i].positions` (R463). -/
def K.syncPositions : Nat := 0x353
/-- Number of `sync[i].count` (R463). -/
def K.syncCount : Nat := 0x354
/-- Number of `sync[i].offset` (R463). -/
def K.syncOffset : Nat := 0x355
/-- Number of `sync[i].pitch` (R463). -/
def K.syncPitch : Nat := 0x356
/-- Number of `sync[i].dir` (R463). -/
def K.syncDir : Nat := 0x357
/-- Number of `sync[i].width` (R463). -/
def K.syncWidth : Nat := 0x358
/-- Number of `sync[i].polarity` (R463). -/
def K.syncPolarity : Nat := 0x359
/-- Number of `sync[i].lead` (R463). -/
def K.syncLead : Nat := 0x35A
/-- Number of `sched.arm_lead` (R463). -/
def K.schedArmLead : Nat := 0x400
/-- Number of `sched.miss_limit` (R463). -/
def K.schedMissLimit : Nat := 0x401
/-- Number of `sched.report_interval` (R463). -/
def K.schedReportInterval : Nat := 0x402
/-- Number of `sched.tick` (R463). -/
def K.schedTick : Nat := 0x403
/-- Number of `chan[c].ref_id` (R463). -/
def K.chanRefId : Nat := 0x410
/-- Number of `chan[c].ref_format` (R463). -/
def K.chanRefFormat : Nat := 0x411
/-- Number of `chan[c].ttc_ntu` (R463). -/
def K.chanTtcNtu : Nat := 0x412
/-- Number of `chan[c].foreign_prio` (R463). -/
def K.chanForeignPrio : Nat := 0x413
/-- Number of `chan[c].sig_stale_event` (R463). -/
def K.chanSigStaleEvent : Nat := 0x500
/-- Number of `ax[a].owner` (R463). -/
def K.axOwner : Nat := 0x600
/-- Number of `ax[a].chan` (R463). -/
def K.axChan : Nat := 0x601
/-- Number of `ax[a].obj` (R463). -/
def K.axObj : Nat := 0x602
/-- Number of `ax[a].sp_sig` (R463). -/
def K.axSpSig : Nat := 0x603
/-- Number of `ax[a].vff_sig` (R463). -/
def K.axVffSig : Nat := 0x604
/-- Number of `ax[a].fb_sig` (R463). -/
def K.axFbSig : Nat := 0x605
/-- Number of `ax[a].disable_obj` (R463). -/
def K.axDisableObj : Nat := 0x606
/-- Number of `ax[a].io_frac` (R463). -/
def K.axIoFrac : Nat := 0x607
/-- Number of `ax[a].v_max` (R463). -/
def K.axVMax : Nat := 0x608
/-- Number of `ax[a].a_max` (R463). -/
def K.axAMax : Nat := 0x609
/-- Number of `ax[a].j_max` (R463). -/
def K.axJMax : Nat := 0x60A
/-- Number of `ax[a].limit_apply` (R463). -/
def K.axLimitApply : Nat := 0x60B
/-- Number of `ax[a].kp` (R463). -/
def K.axKp : Nat := 0x60C
/-- Number of `ax[a].h_max` (R463). -/
def K.axHMax : Nat := 0x60D
/-- Number of `ax[a].extrap` (R463). -/
def K.axExtrap : Nat := 0x60E
/-- Number of `ax[a].fb_lag` (R463). -/
def K.axFbLag : Nat := 0x60F
/-- Number of `ax[a].fb_miss` (R463). -/
def K.axFbMiss : Nat := 0x610
/-- Number of `ax[a].fb_freeze` (R463). -/
def K.axFbFreeze : Nat := 0x611
/-- Number of `ax[a].fb_freeze_speed` (R463). -/
def K.axFbFreezeSpeed : Nat := 0x612
/-- Number of `ax[a].fb_dev` (R463). -/
def K.axFbDev : Nat := 0x613
/-- Number of `ax[a].fb_dev_n` (R463). -/
def K.axFbDevN : Nat := 0x614
/-- Number of `ax[a].fb_delay` (R463). -/
def K.axFbDelay : Nat := 0x615
/-- Number of `ax[a].fb_react` (R463). -/
def K.axFbReact : Nat := 0x616
/-- Number of `q[n].owner` (R463). -/
def K.qOwner : Nat := 0x700
/-- Number of `q[n].dir` (R463). -/
def K.qDir : Nat := 0x701
/-- Number of `q[n].size` (R463). -/
def K.qSize : Nat := 0x702
/-- Number of `q[n].core` (R463). -/
def K.qCore : Nat := 0x703
/-- Number of `q[n].batch` (R463). -/
def K.qBatch : Nat := 0x704
/-- Number of `q[n].notify_count` (R463). -/
def K.qNotifyCount : Nat := 0x705
/-- Number of `q[n].read_timeout` (R463). -/
def K.qReadTimeout : Nat := 0x706
/-- Number of `store.scrub_period` (R463). -/
def K.storeScrubPeriod : Nat := 0x710
/-- Number of `store.ue_repeat_time` (R463). -/
def K.storeUeRepeatTime : Nat := 0x711
/-- Number of `fault.react[s]` (R463). -/
def K.faultReact : Nat := 0x800
/-- Number of `fault.react_perm[s]` (R463). -/
def K.faultReactPerm : Nat := 0x801
/-- Number of `fault.grace[s]` (R463). -/
def K.faultGrace : Nat := 0x802
/-- Number of `fault.notify[s]` (R463). -/
def K.faultNotify : Nat := 0x803
/-- Number of `fault.quiet_time` (R463). -/
def K.faultQuietTime : Nat := 0x804
/-- Number of `fault.stamp_lc` (R463). -/
def K.faultStampLc : Nat := 0x805
/-- Number of `fault.pin_hold` (R463). -/
def K.faultPinHold : Nat := 0x806
/-- Number of `fault.temp_warn` (R463). -/
def K.faultTempWarn : Nat := 0x807
/-- Number of `fault.temp_crit` (R463). -/
def K.faultTempCrit : Nat := 0x808
/-- Number of `power.start_tokens_per_ms` (R463). -/
def K.powerStartTokensPerMs : Nat := 0x900
/-- Number of `power.start_burst` (R463). -/
def K.powerStartBurst : Nat := 0x901
/-- Number of `age.mode` (R463). -/
def K.ageMode : Nat := 0xA00
/-- Number of `age.plan_period` (R463). -/
def K.agePlanPeriod : Nat := 0xA01
/-- Number of `age.core_guard` (R463). -/
def K.ageCoreGuard : Nat := 0xA02
/-- Number of `age.edge_min` (R463). -/
def K.ageEdgeMin : Nat := 0xA03
/-- Number of `age.edge_tail` (R463). -/
def K.ageEdgeTail : Nat := 0xA04
/-- Number of `age.edge_margin_min` (R463). -/
def K.ageEdgeMarginMin : Nat := 0xA05
/-- Number of `age.row_ce_limit` (R463). -/
def K.ageRowCeLimit : Nat := 0xA06
/-- Number of `age.row_window` (R463). -/
def K.ageRowWindow : Nat := 0xA07
/-- Number of `age.spare_reserve` (R463). -/
def K.ageSpareReserve : Nat := 0xA08
/-- Number of `age.horizon` (R463). -/
def K.ageHorizon : Nat := 0xA09
/-- Number of `age.summary_period` (R463). -/
def K.ageSummaryPeriod : Nat := 0xA0A
/-- Number of `age.ks_scan` (R463). -/
def K.ageKsScan : Nat := 0xA0B

/-- Rows 0x000 to 0x0FF of the dictionary. -/
def pTable0a : List PDesc :=
  [⟨K.portPaWidth, "port.pa_width", false, 6, 0, 1, 1, 0, 2, .dev, true, 1, .none⟩,
   ⟨K.portPbWidth, "port.pb_width", false, 6, 0, 1, 1, 0, 2, .dev, true, 1, .none⟩,
   ⟨K.partPort, "part[p].port", false, 6, 0, 8, 1, 0, 2, .dev, true, 8, .none⟩,
   ⟨K.partBulkSize, "part[p].bulk_size", false, 3, 0, 16777216, 65536, 262144, 2, .dev, true, 8, .none⟩,
   ⟨K.partRuleQuota, "part[p].rule_quota", false, 3, 0, 65536, 1, 0, 0, .dev, true, 8, .none⟩,
   ⟨K.partSigQuota, "part[p].sig_quota", false, 3, 0, 262144, 1, 0, 0, .dev, true, 8, .none⟩,
   ⟨K.partGrpQuota, "part[p].grp_quota", false, 3, 0, 65536, 1, 0, 0, .dev, true, 8, .none⟩,
   ⟨K.partSlotQuota, "part[p].slot_quota", false, 3, 0, 16384, 1, 0, 0, .dev, true, 8, .none⟩,
   ⟨K.partHbTimeout, "part[p].hb_timeout", false, 2, 0, 10000, 1, 0, 0, .dev, true, 8, .none⟩,
   ⟨K.partHbFallback, "part[p].hb_fallback", false, 6, 0, 2, 1, 0, 0, .dev, true, 8, .none⟩,
   ⟨K.partHbTarget, "part[p].hb_target", false, 1, 0, 7, 1, 0, 0, .dev, true, 8, .none⟩,
   ⟨K.partQQuota, "part[p].q_quota", false, 3, 0, 8388608, 4096, 0, 0, .dev, true, 8, .none⟩]

/-- Rows 0x100 to 0x1FF of the dictionary. -/
def pTable1a : List PDesc :=
  [⟨K.chanOwner, "chan[c].owner", false, 1, 0, 7, 1, 0, 0, .chan, true, 32, .none⟩,
   ⟨K.chanFormats, "chan[c].formats", false, 6, 0, 4, 1, 0, 1, .chan, false, 32, .none⟩,
   ⟨K.chanMaxLen, "chan[c].max_len", false, 2, 0, 2048, 1, 8, 1, .chan, false, 32, .none⟩,
   ⟨K.chanRateA, "chan[c].rate_a", false, 6, 0, 3, 1, 2, 1, .chan, false, 32, .none⟩,
   ⟨K.chanRateD, "chan[c].rate_d", false, 6, 0, 6, 1, 0, 1, .chan, false, 32, .none⟩,
   ⟨K.chanBrpA, "chan[c].brp_a", true, 1, 1, 64, 1, 2, 1, .chan, false, 32, .none⟩,
   ⟨K.chanTseg1A, "chan[c].tseg1_a", true, 2, 2, 256, 1, 127, 1, .chan, false, 32, .none⟩,
   ⟨K.chanTseg2A, "chan[c].tseg2_a", true, 1, 1, 128, 1, 32, 1, .chan, false, 32, .none⟩,
   ⟨K.chanSjwA, "chan[c].sjw_a", true, 1, 1, 128, 1, 32, 1, .chan, false, 32, .none⟩,
   ⟨K.chanBrpD, "chan[c].brp_d", true, 1, 0, 32, 1, 0, 1, .chan, false, 32, .none⟩,
   ⟨K.chanTseg1D, "chan[c].tseg1_d", true, 1, 1, 64, 1, 14, 1, .chan, false, 32, .none⟩,
   ⟨K.chanTseg2D, "chan[c].tseg2_d", true, 1, 1, 32, 1, 5, 1, .chan, false, 32, .none⟩,
   ⟨K.chanSjwD, "chan[c].sjw_d", true, 1, 1, 32, 1, 5, 1, .chan, false, 32, .none⟩,
   ⟨K.chanXcvr, "chan[c].xcvr", false, 6, 0, 2, 1, 0, 1, .chan, false, 32, .none⟩,
   ⟨K.chanFast, "chan[c].fast", false, 7, 0, 1, 1, 0, 1, .chan, false, 32, .none⟩,
   ⟨K.chanXlErrSig, "chan[c].xl_err_sig", true, 6, 0, 1, 1, 0, 1, .chan, false, 32, .none⟩,
   ⟨K.chanPex, "chan[c].pex", true, 6, 0, 1, 1, 0, 1, .chan, false, 32, .none⟩,
   ⟨K.chanTdc, "chan[c].tdc", true, 6, 0, 1, 1, 1, 1, .chan, false, 32, .none⟩,
   ⟨K.chanTdcOffset, "chan[c].tdc_offset", true, 2, 0, 255, 1, 0, 1, .chan, false, 32, .none⟩,
   ⟨K.chanTdcMin, "chan[c].tdc_min", true, 2, 0, 789, 1, 50, 1, .chan, false, 32, .none⟩,
   ⟨K.chanTdcMax, "chan[c].tdc_max", true, 2, 1, 790, 1, 400, 1, .chan, false, 32, .none⟩,
   ⟨K.chanModeSettle, "chan[c].mode_settle", true, 2, 10, 200, 1, 50, 1, .chan, false, 32, .none⟩,
   ⟨K.chanSpWindow, "chan[c].sp_window", true, 1, 0, 100, 1, 25, 1, .chan, false, 32, .none⟩,
   ⟨K.chanWakeTime, "chan[c].wake_time", true, 3, 10, 10000, 1, 50, 0, .chan, false, 32, .none⟩,
   ⟨K.chanWakeFilter, "chan[c].wake_filter", true, 2, 1, 1000, 1, 5, 0, .chan, false, 32, .none⟩,
   ⟨K.chanWakeAction, "chan[c].wake_action", false, 6, 0, 1, 1, 0, 0, .chan, false, 32, .none⟩,
   ⟨K.chanWarnLevel, "chan[c].warn_level", true, 1, 1, 127, 1, 96, 0, .chan, false, 32, .none⟩,
   ⟨K.chanBoffRecovery, "chan[c].boff_recovery", false, 6, 0, 1, 1, 0, 0, .chan, false, 32, .none⟩,
   ⟨K.chanBoffDelay, "chan[c].boff_delay", true, 2, 0, 10000, 1, 0, 0, .chan, false, 32, .none⟩,
   ⟨K.chanBoffLimit, "chan[c].boff_limit", false, 1, 1, 255, 1, 4, 0, .chan, false, 32, .none⟩,
   ⟨K.chanBoffWindow, "chan[c].boff_window", false, 3, 100, 3600000, 1, 10000, 0, .chan, false, 32, .none⟩,
   ⟨K.chanLoneTime, "chan[c].lone_time", false, 3, 1, 10000, 1, 50, 0, .chan, false, 32, .none⟩,
   ⟨K.chanLoneProbe, "chan[c].lone_probe", false, 3, 1, 10000, 1, 10, 0, .chan, false, 32, .none⟩,
   ⟨K.chanCollideOneshot, "chan[c].collide_oneshot", false, 7, 0, 1, 1, 0, 0, .chan, false, 32, .none⟩,
   ⟨K.chanStuckTime, "chan[c].stuck_time", false, 2, 1, 1000, 1, 10, 0, .chan, false, 32, .none⟩,
   ⟨K.chanTdcWindow, "chan[c].tdc_window", true, 3, 10, 60000, 1, 1000, 0, .chan, false, 32, .none⟩,
   ⟨K.chanTdcWindowFrames, "chan[c].tdc_window_frames", true, 2, 1, 65535, 1, 8, 0, .chan, false, 32, .none⟩,
   ⟨K.chanTwin, "chan[c].twin", false, 6, 0, 2, 1, 0, 1, .chan, false, 32, .none⟩,
   ⟨K.chanTestId, "chan[c].test_id", false, 3, 0, 4294967295, 1, 2047, 0, .chan, false, 32, .testId⟩,
   ⟨K.chanTestFrames, "chan[c].test_frames", true, 1, 1, 64, 1, 4, 0, .chan, false, 32, .none⟩]

/-- Rows 0x200 to 0x2FF of the dictionary. -/
def pTable2a : List PDesc :=
  [⟨K.objDir, "obj[c][o].dir", false, 6, 0, 3, 1, 0, 1, .obj, false, 4096, .none⟩,
   ⟨K.objId, "obj[c][o].id", false, 3, 0, 4294967295, 1, 0, 1, .obj, false, 4096, .idWord⟩,
   ⟨K.objFormat, "obj[c][o].format", false, 1, 0, 255, 1, 0, 1, .obj, false, 4096, .format⟩,
   ⟨K.objSize, "obj[c][o].size", false, 2, 0, 2048, 1, 8, 1, .obj, false, 4096, .none⟩,
   ⟨K.objPrio, "obj[c][o].prio", false, 1, 0, 255, 1, 128, 1, .obj, false, 4096, .none⟩,
   ⟨K.objOneshot, "obj[c][o].oneshot", false, 7, 0, 1, 1, 0, 1, .obj, false, 4096, .none⟩,
   ⟨K.objTxc, "obj[c][o].txc", false, 7, 0, 1, 1, 0, 1, .obj, false, 4096, .none⟩,
   ⟨K.objStartClass, "obj[c][o].start_class", false, 7, 0, 1, 1, 0, 1, .obj, false, 4096, .none⟩,
   ⟨K.objDeliverQ, "obj[c][o].deliver_q", false, 1, 0, 63, 1, 255, 1, .obj, false, 4096, .orFF⟩,
   ⟨K.objStampLc, "obj[c][o].stamp_lc", true, 1, 0, 3, 1, 0, 1, .obj, false, 4096, .none⟩,
   ⟨K.objXlSdt, "obj[c][o].xl_sdt", true, 1, 0, 255, 1, 0, 1, .obj, false, 4096, .none⟩,
   ⟨K.objXlVcid, "obj[c][o].xl_vcid", true, 1, 0, 255, 1, 0, 1, .obj, false, 4096, .none⟩,
   ⟨K.objXlAf, "obj[c][o].xl_af", true, 3, 0, 4294967295, 1, 0, 1, .obj, false, 4096, .none⟩,
   ⟨K.chanFiltBatch, "chan[c].filt_batch", true, 1, 1, 32, 1, 8, 0, .chan, false, 32, .none⟩,
   ⟨K.chanMirrorQ, "chan[c].mirror_q", false, 1, 0, 63, 1, 255, 1, .chan, false, 32, .orFF⟩,
   ⟨K.chanMirrorOwn, "chan[c].mirror_own", false, 7, 0, 1, 1, 0, 1, .chan, false, 32, .none⟩,
   ⟨K.chanCopyLc, "chan[c].copy_lc", true, 1, 0, 3, 1, 0, 1, .chan, false, 32, .none⟩]

/-- Rows 0x300 to 0x3FF of the dictionary, part a. -/
def pTable3a : List PDesc :=
  [⟨K.lcOwner, "lc[n].owner", false, 1, 0, 7, 1, 0, 0, .lc, true, 4, .none⟩,
   ⟨K.lcSource, "lc[n].source", false, 6, 0, 4, 1, 0, 0, .lc, false, 4, .none⟩,
   ⟨K.lcKind, "lc[n].kind", false, 6, 0, 1, 1, 0, 0, .lc, false, 4, .none⟩,
   ⟨K.lcCntNum, "lc[n].cnt_num", false, 3, 1, 2147483648, 1, 4096, 0, .lc, false, 4, .none⟩,
   ⟨K.lcCntDen, "lc[n].cnt_den", false, 2, 1, 65535, 1, 1, 0, .lc, false, 4, .none⟩,
   ⟨K.lcDirInvert, "lc[n].dir_invert", false, 7, 0, 1, 1, 0, 0, .lc, false, 4, .none⟩,
   ⟨K.lcInFilter, "lc[n].in_filter", true, 2, 0, 1000, 10, 20, 0, .lc, false, 4, .none⟩,
   ⟨K.lcQerrLimit, "lc[n].qerr_limit", true, 1, 1, 255, 1, 4, 0, .lc, false, 4, .none⟩,
   ⟨K.lcZMode, "lc[n].z_mode", false, 6, 0, 2, 1, 0, 0, .lc, false, 4, .none⟩,
   ⟨K.lcZPos, "lc[n].z_pos", false, 3, 0, 4294967295, 1, 0, 0, .lc, false, 4, .none⟩,
   ⟨K.lcZTol, "lc[n].z_tol", true, 2, 1, 65535, 1, 2, 0, .lc, false, 4, .none⟩,
   ⟨K.lcSsiBits, "lc[n].ssi_bits", false, 1, 8, 48, 1, 25, 0, .lc, false, 4, .none⟩,
   ⟨K.lcSsiTurnBits, "lc[n].ssi_turn_bits", false, 1, 8, 32, 1, 13, 0, .lc, false, 4, .none⟩,
   ⟨K.lcSsiCode, "lc[n].ssi_code", false, 6, 0, 1, 1, 1, 0, .lc, false, 4, .none⟩,
   ⟨K.lcSsiParity, "lc[n].ssi_parity", true, 6, 0, 2, 1, 0, 0, .lc, false, 4, .none⟩,
   ⟨K.lcSsiClock, "lc[n].ssi_clock", true, 2, 100, 10000, 1, 1000, 0, .lc, false, 4, .none⟩,
   ⟨K.lcSsiPeriod, "lc[n].ssi_period", true, 2, 10, 1000, 1, 50, 0, .lc, false, 4, .none⟩,
   ⟨K.lcSsiLatchDelay, "lc[n].ssi_latch_delay", true, 2, 0, 10000, 1, 0, 0, .lc, false, 4, .none⟩,
   ⟨K.lcSsiErrLimit, "lc[n].ssi_err_limit", true, 1, 1, 255, 1, 3, 0, .lc, false, 4, .none⟩,
   ⟨K.lcTelQueue, "lc[n].tel_queue", false, 1, 0, 63, 1, 255, 0, .lc, false, 4, .orFF⟩,
   ⟨K.lcTelTimeout, "lc[n].tel_timeout", false, 3, 100, 1000000, 1, 10000, 0, .lc, false, 4, .none⟩,
   ⟨K.lcTelBlend, "lc[n].tel_blend", true, 3, 10, 100000, 1, 1000, 0, .lc, false, 4, .none⟩,
   ⟨K.lcTelJumpTol, "lc[n].tel_jump_tol", true, 4, 0, 18446744073709551615, 1, 4294967, 0, .lc, false, 4, .none⟩,
   ⟨K.lcTelPosTol, "lc[n].tel_pos_tol", true, 3, 0, 4294967295, 1, 65536, 0, .lc, false, 4, .none⟩,
   ⟨K.lcTelSpeedTol, "lc[n].tel_speed_tol", true, 4, 0, 18446744073709551615, 1, 4294967, 0, .lc, false, 4, .none⟩,
   ⟨K.lcTelAccTol, "lc[n].tel_acc_tol", true, 4, 0, 18446744073709551615, 1, 429496730, 0, .lc, false, 4, .none⟩,
   ⟨K.lcPulseTol, "lc[n].pulse_tol", true, 1, 1, 50, 1, 10, 0, .lc, false, 4, .none⟩,
   ⟨K.lcSpeedMax, "lc[n].speed_max", false, 3, 1, 200, 1, 200, 0, .lc, false, 4, .none⟩,
   ⟨K.lcAccMax, "lc[n].acc_max", false, 3, 1, 100000, 1, 100, 0, .lc, false, 4, .none⟩,
   ⟨K.lcJerkMax, "lc[n].jerk_max", true, 3, 1, 10000000, 1, 1000, 0, .lc, false, 4, .none⟩,
   ⟨K.lcHoldover, "lc[n].holdover", false, 3, 0, 100000, 1, 1000, 0, .lc, false, 4, .none⟩,
   ⟨K.lcStandstillTime, "lc[n].standstill_time", true, 3, 100, 1000000, 1, 10000, 0, .lc, false, 4, .none⟩,
   ⟨K.lcDirHyst, "lc[n].dir_hyst", false, 4, 1, 4294967296, 1, 1048576, 0, .lc, false, 4, .none⟩,
   ⟨K.lcEpochAt, "lc[n].epoch_at", false, 4, 0, 18446744073709551615, 1, 0, 0, .lc, false, 4, .none⟩,
   ⟨K.timeOwner, "time.owner", false, 1, 0, 7, 1, 0, 0, .time, true, 1, .none⟩,
   ⟨K.timeStepEnable, "time.step_enable", false, 7, 0, 1, 1, 0, 0, .time, false, 1, .none⟩,
   ⟨K.timeStepThreshold, "time.step_threshold", true, 3, 1000, 1000000000, 1, 1000000, 0, .time, false, 1, .none⟩,
   ⟨K.timeSlewMax, "time.slew_max", true, 2, 1, 500, 1, 100, 0, .time, false, 1, .none⟩,
   ⟨K.latOwner, "lat[i].owner", false, 1, 0, 7, 1, 0, 0, .latch, true, 16, .none⟩,
   ⟨K.latEnable, "lat[i].enable", false, 7, 0, 1, 1, 0, 0, .latch, false, 16, .none⟩]

/-- Rows 0x300 to 0x3FF of the dictionary, part b. -/
def pTable3b : List PDesc :=
  [⟨K.latEdge, "lat[i].edge", false, 6, 0, 2, 1, 0, 0, .latch, false, 16, .none⟩,
   ⟨K.latFilter, "lat[i].filter", true, 2, 0, 10000, 10, 50, 0, .latch, false, 16, .none⟩,
   ⟨K.latQueue, "lat[i].queue", false, 1, 0, 63, 1, 0, 0, .latch, false, 16, .none⟩,
   ⟨K.latWinLc, "lat[i].win_lc", false, 1, 0, 3, 1, 255, 0, .latch, false, 16, .orFF⟩,
   ⟨K.latWinFrom, "lat[i].win_from", false, 4, 0, 18446744073709551615, 1, 0, 0, .latch, false, 16, .none⟩,
   ⟨K.latWinTo, "lat[i].win_to", false, 4, 0, 18446744073709551615, 1, 0, 0, .latch, false, 16, .none⟩,
   ⟨K.syncOwner, "sync[i].owner", false, 1, 0, 7, 1, 0, 0, .sync, true, 4, .none⟩,
   ⟨K.syncMode, "sync[i].mode", false, 6, 0, 2, 1, 0, 1, .sync, false, 4, .none⟩,
   ⟨K.syncLc, "sync[i].lc", false, 1, 0, 3, 1, 0, 1, .sync, false, 4, .none⟩,
   ⟨K.syncPositions, "sync[i].positions", false, 8, 0, 2 ^ 1024 - 1, 1, 0, 1, .sync, false, 4, .none⟩,
   ⟨K.syncCount, "sync[i].count", false, 1, 1, 16, 1, 1, 1, .sync, false, 4, .none⟩,
   ⟨K.syncOffset, "sync[i].offset", false, 4, 0, 18446744073709551615, 1, 0, 1, .sync, false, 4, .none⟩,
   ⟨K.syncPitch, "sync[i].pitch", false, 4, 65536, 18446744073709551615, 1, 4294967296, 1, .sync, false, 4, .none⟩,
   ⟨K.syncDir, "sync[i].dir", false, 6, 0, 1, 1, 0, 1, .sync, false, 4, .none⟩,
   ⟨K.syncWidth, "sync[i].width", false, 3, 100, 1000000, 1, 10000, 1, .sync, false, 4, .none⟩,
   ⟨K.syncPolarity, "sync[i].polarity", false, 6, 0, 1, 1, 0, 1, .sync, false, 4, .none⟩,
   ⟨K.syncLead, "sync[i].lead", true, 3, 0, 1000000, 1, 0, 1, .sync, false, 4, .none⟩]

/-- Rows 0x400 to 0x4FF of the dictionary. -/
def pTable4a : List PDesc :=
  [⟨K.schedArmLead, "sched.arm_lead", true, 3, 10, 100000, 1, 100, 1, .dev, true, 1, .none⟩,
   ⟨K.schedMissLimit, "sched.miss_limit", false, 1, 1, 255, 1, 3, 0, .dev, true, 1, .none⟩,
   ⟨K.schedReportInterval, "sched.report_interval", true, 2, 1, 10000, 1, 100, 0, .dev, true, 1, .none⟩,
   ⟨K.schedTick, "sched.tick", true, 2, 500, 16000, 500, 2000, 2, .dev, true, 1, .none⟩,
   ⟨K.chanRefId, "chan[c].ref_id", false, 3, 0, 4294967295, 1, 0, 1, .chan, false, 32, .idWord⟩,
   ⟨K.chanRefFormat, "chan[c].ref_format", false, 6, 0, 1, 1, 0, 1, .chan, false, 32, .none⟩,
   ⟨K.chanTtcNtu, "chan[c].ttc_ntu", true, 2, 25, 10000, 1, 1000, 1, .chan, false, 32, .none⟩,
   ⟨K.chanForeignPrio, "chan[c].foreign_prio", false, 3, 0, 100000000, 1, 0, 1, .chan, false, 32, .none⟩]

/-- Rows 0x500 to 0x5FF of the dictionary. -/
def pTable5a : List PDesc :=
  [⟨K.chanSigStaleEvent, "chan[c].sig_stale_event", false, 7, 0, 1, 1, 1, 0, .chan, false, 32, .none⟩]

/-- Rows 0x600 to 0x6FF of the dictionary. -/
def pTable6a : List PDesc :=
  [⟨K.axOwner, "ax[a].owner", false, 1, 0, 7, 1, 0, 0, .axis, true, 128, .none⟩,
   ⟨K.axChan, "ax[a].chan", false, 1, 0, 31, 1, 255, 1, .axis, false, 128, .orFF⟩,
   ⟨K.axObj, "ax[a].obj", false, 1, 0, 127, 1, 0, 1, .axis, false, 128, .none⟩,
   ⟨K.axSpSig, "ax[a].sp_sig", false, 3, 0, 262143, 1, 0, 1, .axis, false, 128, .none⟩,
   ⟨K.axVffSig, "ax[a].vff_sig", true, 3, 0, 262143, 1, 4294967295, 1, .axis, false, 128, .orNone⟩,
   ⟨K.axFbSig, "ax[a].fb_sig", false, 3, 0, 262143, 1, 4294967295, 1, .axis, false, 128, .orNone⟩,
   ⟨K.axDisableObj, "ax[a].disable_obj", false, 1, 0, 127, 1, 255, 1, .axis, false, 128, .orFF⟩,
   ⟨K.axIoFrac, "ax[a].io_frac", false, 1, 0, 32, 1, 0, 1, .axis, false, 128, .none⟩,
   ⟨K.axVMax, "ax[a].v_max", false, 4, 1, 18446744073709551615, 1, 4294967296, 0, .axis, false, 128, .none⟩,
   ⟨K.axAMax, "ax[a].a_max", false, 4, 1, 18446744073709551615, 1, 42949672960, 0, .axis, false, 128, .none⟩,
   ⟨K.axJMax, "ax[a].j_max", false, 4, 1, 18446744073709551615, 1, 429496729600, 0, .axis, false, 128, .none⟩,
   ⟨K.axLimitApply, "ax[a].limit_apply", true, 6, 0, 1, 1, 0, 0, .axis, false, 128, .none⟩,
   ⟨K.axKp, "ax[a].kp", true, 3, 0, 65536000, 1, 3276800, 0, .axis, false, 128, .none⟩,
   ⟨K.axHMax, "ax[a].h_max", true, 3, 100, 100000, 1, 10000, 0, .axis, false, 128, .none⟩,
   ⟨K.axExtrap, "ax[a].extrap", true, 4, 0, 18446744073709551615, 1, 16777216, 0, .axis, false, 128, .none⟩,
   ⟨K.axFbLag, "ax[a].fb_lag", false, 3, 0, 4294967295, 1, 8388608, 0, .axis, false, 128, .none⟩,
   ⟨K.axFbMiss, "ax[a].fb_miss", false, 1, 1, 255, 1, 3, 0, .axis, false, 128, .none⟩,
   ⟨K.axFbFreeze, "ax[a].fb_freeze", false, 2, 1, 65535, 1, 20, 0, .axis, false, 128, .none⟩,
   ⟨K.axFbFreezeSpeed, "ax[a].fb_freeze_speed", false, 4, 0, 18446744073709551615, 1, 42949673, 0, .axis, false, 128, .none⟩,
   ⟨K.axFbDev, "ax[a].fb_dev", false, 4, 1, 18446744073709551615, 1, 4294967296, 0, .axis, false, 128, .none⟩,
   ⟨K.axFbDevN, "ax[a].fb_dev_n", true, 1, 1, 255, 1, 1, 0, .axis, false, 128, .none⟩,
   ⟨K.axFbDelay, "ax[a].fb_delay", true, 3, 0, 10000000, 1, 250000, 0, .axis, false, 128, .none⟩,
   ⟨K.axFbReact, "ax[a].fb_react", false, 6, 0, 3, 1, 2, 0, .axis, false, 128, .none⟩]

/-- Rows 0x700 to 0x7FF of the dictionary. -/
def pTable7a : List PDesc :=
  [⟨K.qOwner, "q[n].owner", false, 1, 0, 7, 1, 0, 0, .queue, true, 64, .none⟩,
   ⟨K.qDir, "q[n].dir", false, 6, 0, 1, 1, 0, 0, .queue, false, 64, .none⟩,
   ⟨K.qSize, "q[n].size", false, 3, 4096, 4194304, 1, 65536, 0, .queue, false, 64, .pow2⟩,
   ⟨K.qCore, "q[n].core", true, 1, 0, 3, 1, 0, 1, .queue, false, 64, .none⟩,
   ⟨K.qBatch, "q[n].batch", true, 1, 1, 32, 1, 8, 0, .queue, false, 64, .none⟩,
   ⟨K.qNotifyCount, "q[n].notify_count", false, 2, 0, 1024, 1, 1, 0, .queue, false, 64, .none⟩,
   ⟨K.qReadTimeout, "q[n].read_timeout", false, 3, 1, 100000, 1, 50, 0, .queue, false, 64, .none⟩,
   ⟨K.storeScrubPeriod, "store.scrub_period", true, 1, 1, 60, 1, 4, 0, .dev, true, 1, .none⟩,
   ⟨K.storeUeRepeatTime, "store.ue_repeat_time", true, 3, 60, 2592000, 1, 86400, 0, .dev, true, 1, .none⟩]

/-- Rows 0x800 to 0x8FF of the dictionary. -/
def pTable8a : List PDesc :=
  [⟨K.faultReact, "fault.react[s]", false, 1, 0, 63, 1, 1, 0, .dev, true, 512, .none⟩,
   ⟨K.faultReactPerm, "fault.react_perm[s]", false, 1, 0, 63, 1, 3, 0, .dev, true, 512, .none⟩,
   ⟨K.faultGrace, "fault.grace[s]", true, 3, 0, 10000000, 1, 0, 0, .dev, true, 512, .none⟩,
   ⟨K.faultNotify, "fault.notify[s]", false, 1, 0, 255, 1, 0, 0, .dev, true, 512, .none⟩,
   ⟨K.faultQuietTime, "fault.quiet_time", false, 3, 1, 3600000, 1, 1000, 0, .dev, true, 1, .none⟩,
   ⟨K.faultStampLc, "fault.stamp_lc", false, 1, 0, 3, 1, 0, 0, .dev, true, 1, .none⟩,
   ⟨K.faultPinHold, "fault.pin_hold", false, 7, 0, 1, 1, 1, 0, .dev, true, 1, .none⟩,
   ⟨K.faultTempWarn, "fault.temp_warn", false, 5, 60, 125, 1, 115, 0, .dev, true, 1, .none⟩,
   ⟨K.faultTempCrit, "fault.temp_crit", false, 5, 100, 135, 1, 130, 0, .dev, true, 1, .none⟩]

/-- Rows 0x900 to 0x9FF of the dictionary. -/
def pTable9a : List PDesc :=
  [⟨K.powerStartTokensPerMs, "power.start_tokens_per_ms", false, 2, 1, 1000, 1, 8, 0, .dev, true, 1, .none⟩,
   ⟨K.powerStartBurst, "power.start_burst", false, 2, 1, 4128, 1, 32, 0, .dev, true, 1, .none⟩]

/-- Rows 0xA00 to 0xAFF of the dictionary. -/
def pTableAa : List PDesc :=
  [⟨K.ageMode, "age.mode", false, 6, 0, 1, 1, 1, 0, .dev, true, 1, .none⟩,
   ⟨K.agePlanPeriod, "age.plan_period", true, 2, 10, 3600, 1, 60, 0, .dev, true, 1, .none⟩,
   ⟨K.ageCoreGuard, "age.core_guard", true, 2, 20, 300, 1, 60, 0, .dev, true, 1, .none⟩,
   ⟨K.ageEdgeMin, "age.edge_min", true, 3, 1000, 10000000, 1, 100000, 0, .dev, true, 1, .none⟩,
   ⟨K.ageEdgeTail, "age.edge_tail", true, 2, 1, 1000, 1, 10, 0, .dev, true, 1, .none⟩,
   ⟨K.ageEdgeMarginMin, "age.edge_margin_min", false, 2, 10, 400, 1, 100, 0, .dev, true, 1, .none⟩,
   ⟨K.ageRowCeLimit, "age.row_ce_limit", true, 2, 1, 1000, 1, 16, 0, .dev, true, 1, .none⟩,
   ⟨K.ageRowWindow, "age.row_window", true, 2, 1, 8760, 1, 720, 0, .dev, true, 1, .none⟩,
   ⟨K.ageSpareReserve, "age.spare_reserve", false, 1, 0, 19, 1, 4, 0, .dev, true, 1, .none⟩,
   ⟨K.ageHorizon, "age.horizon", false, 3, 168, 131400, 1, 8760, 0, .dev, true, 1, .none⟩,
   ⟨K.ageSummaryPeriod, "age.summary_period", true, 1, 1, 168, 1, 24, 0, .dev, true, 1, .none⟩,
   ⟨K.ageKsScan, "age.ks_scan", true, 2, 1, 720, 1, 24, 0, .dev, true, 1, .none⟩]

/-- The rows whose numbers have `h` in bits 11:8. -/
def pRows (h : Nat) : List PDesc :=
  match h with
  | 0x0 => pTable0a
  | 0x1 => pTable1a
  | 0x2 => pTable2a
  | 0x3 => pTable3a ++ pTable3b
  | 0x4 => pTable4a
  | 0x5 => pTable5a
  | 0x6 => pTable6a
  | 0x7 => pTable7a
  | 0x8 => pTable8a
  | 0x9 => pTable9a
  | 0xA => pTableAa
  | _ => []

/-- The row of a parameter number; `none` where the number does not exist (R91). -/
def pDesc (num : Nat) : Option PDesc := (pRows (num / 256)).find? fun d => d.num = num

/-- The row whose key is written `name` (R466, PARAM_LOOKUP). -/
def pNamed (name : String) : Option PDesc :=
  ((List.range 16).map pRows).flatten.find? fun d => d.key = name

/-- The size in bytes of a type code (Table 3.33). -/
def pSize (ty : Nat) : Nat :=
  match ty with
  | 2 => 2 | 3 => 4 | 4 => 8 | 5 => 2 | 8 => 128 | _ => 1

/-- The sources that Tables 4.8, 6.2, 2.7, 8.9, 9.11, 10.9, 12.2 to 12.4 and 14.10 define (Table 16.9). -/
def sourceDefined (s : Nat) : Bool :=
  s ≤ 0x27 || (0x40 ≤ s && s ≤ 0x5A) || (0x60 ≤ s && s ≤ 0x68) || (0x70 ≤ s && s ≤ 0x73) ||
    (0x80 ≤ s && s ≤ 0x10F) || (0x120 ≤ s && s ≤ 0x122) || (0x140 ≤ s && s ≤ 0x143) ||
    (0x150 ≤ s && s ≤ 0x154)

/-- Defaults of `fault.react[s]` and `fault.react_perm[s]` (R362 to R365). -/
def reactDefault (s : Nat) : Nat × Nat :=
  if !sourceDefined s then (0, 0)
  else if 0x40 ≤ s && s ≤ 0x43 then (1, 0)
  else if s = 0x44 || s = 0x45 then (3, 0)
  else if s = 0x46 || s = 0x47 then (2, 0)
  else if 0x48 ≤ s && s ≤ 0x4F then (3, 0)
  else if s = 0x65 || s = 0x67 || (0x80 ≤ s && s ≤ 0xFF) then (1, 7)
  else if s = 0x100 || s = 0x101 then (3, 18)
  else if 0x102 ≤ s && s ≤ 0x105 then (0, 38)
  else if s = 0x106 then (0, 50)
  else if s = 0x107 then (0, 34)
  else if s = 0x108 then (0, 3)
  else if s = 0x109 then (0, 32)
  else if s = 0x10A then (3, 50)
  else if 0x10B ≤ s && s ≤ 0x10E then (3, 0)
  else if s = 0x10F then (39, 0)
  else if 0x120 ≤ s && s ≤ 0x122 then (0, 34)
  else if s = 0x140 || s = 0x143 then (1, 0)
  else if s = 0x141 || s = 0x142 then (0, 3)
  else (1, 3)

/-- The default of an instance: the row's default, but for the keys whose default depends on the partition
(Tables 3.26, 4.10), on the straps (R76), on the queue (Table 4.10) or on the source (R362 to R365). -/
def pDefault (straps : Straps) (num inst : Nat) : Nat :=
  if num = K.partPort then (if inst = 0 then (if straps.getLsbD 0 then 7 else 1) else 0)
  else if num = K.partBulkSize then (if inst = 0 then 0x400000 else 0x40000)
  else if num = K.partRuleQuota || num = K.partGrpQuota then (if inst = 0 then 65536 else 0)
  else if num = K.partSigQuota then (if inst = 0 then 262144 else 0)
  else if num = K.partSlotQuota then (if inst = 0 then 16384 else 0)
  else if num = K.partQQuota then (if inst = 0 then 0x200000 else 0)
  else if num = K.qCore then inst % 4
  else if num = K.faultReact then (reactDefault inst).1
  else if num = K.faultReactPerm then (reactDefault inst).2
  else if num = K.faultNotify then (if 0x100 ≤ inst && inst ≤ 0x13F then 0xFF else 0)
  else match pDesc num with
    | some d => d.dflt
    | none => 0

/-- The key id of R91: parameter number in bits 31:20, instance in bits 19:0. -/
def keyId (num inst : Nat) : Nat := num * 0x100000 + inst

end Sys2Proof.Machine
end

