-- ==== Sys2Proof/Machine/Ops.lean ====
section
/-! DEFINITION. The shared operations of the model: sparse maps and tables, little-endian bytes and check values,
the passage of time, coordinate values, interrupts, events, fault raises, the event log and the central store. -/
namespace Sys2Proof

/-! ### Sparse maps and tables -/

/-- The entry under key `k`, if it is listed. -/
def SMap.find? {α : Type} : SMap α → Nat → Option α
  | [], _ => none
  | (k', v) :: m, k => if k' = k then some v else SMap.find? m k

/-- The value under key `k`; `d` where it is not listed. -/
def SMap.get {α : Type} (d : α) (m : SMap α) (k : Nat) : α := (SMap.find? m k).getD d

/-- Lists `v` under key `k`, in key order. -/
def SMap.put {α : Type} : SMap α → Nat → α → SMap α
  | [], k, v => [(k, v)]
  | (k', v') :: m, k, v =>
    if k < k' then (k, v) :: (k', v') :: m
    else if k = k' then (k, v) :: m
    else (k', v') :: SMap.put m k v

/-- Removes key `k`. -/
def SMap.erase {α : Type} : SMap α → Nat → SMap α
  | [], _ => []
  | (k', v') :: m, k => if k' = k then m else (k', v') :: SMap.erase m k

/-- Sets key `k` to `v`, keeping the canonical form: the default `d` is never listed. -/
def SMap.set {α : Type} [DecidableEq α] (d : α) (m : SMap α) (k : Nat) (v : α) : SMap α :=
  if v = d then SMap.erase m k else SMap.put m k v

/-- Changes the value under key `k` by `f`. -/
def SMap.mod {α : Type} [DecidableEq α] (d : α) (m : SMap α) (k : Nat) (f : α → α) : SMap α :=
  SMap.set d m k (f (SMap.get d m k))

/-- The keys of the list rise strictly from `lo` on and no value equals `d`. -/
def SMap.wfFrom {α : Type} [DecidableEq α] (d : α) : Nat → SMap α → Bool
  | _, [] => true
  | lo, (k, v) :: m => decide (lo ≤ k) && decide (v ≠ d) && SMap.wfFrom d (k + 1) m

/-- The canonical form: strictly rising keys, no entry equal to the default. -/
def SMap.wf {α : Type} [DecidableEq α] (d : α) (m : SMap α) : Bool := SMap.wfFrom d 0 m

/-- Entry `i` of a table; `d` outside it. -/
def Tab.get {α : Type} {n : Nat} (d : α) (t : Tab α n) (i : Nat) : α := t[i]?.getD d

/-- Changes entry `i` of a table by `f`; nothing outside it. -/
def Tab.mod {α : Type} {n : Nat} (t : Tab α n) (i : Nat) (f : α → α) : Tab α n :=
  if h : i < n then t.set i (f t[i]) h else t

/-! ### Bytes -/

/-- `n` little-endian bytes of `v` (R5). -/
def le : Nat → Nat → List Byte
  | 0, _ => []
  | n + 1, v => BitVec.ofNat 8 v :: le n (v / 256)

/-- The little-endian number in a byte list (R5). -/
def unle : List Byte → Nat
  | [] => 0
  | b :: bs => b.toNat + 256 * unle bs

/-- The field of `n` bytes at offset `off`; bytes beyond the end read as zero. -/
def rd (bs : List Byte) (off n : Nat) : Nat := unle ((bs.drop off).take n)

/-- A two's-complement reading of an `n`-bit number. -/
def sgn (n v : Nat) : Int := if v < 2 ^ (n - 1) then v else (v : Int) - 2 ^ n

/-- The `n`-bit two's-complement number of an integer. -/
def tc (n : Nat) (v : Int) : Nat := (v % (2 ^ n : Int)).toNat

/-- Zero bytes. -/
def zs (n : Nat) : List Byte := List.replicate n 0

/-- Pads or cuts a byte list to `n` bytes. -/
def fit (n : Nat) (bs : List Byte) : List Byte := bs.take n ++ zs (n - bs.length)

/-- Bit `i` of a number. -/
def bitOf (v i : Nat) : Bool := v / 2 ^ i % 2 = 1

/-- 1 for true, shifted left by `i`. -/
def flag (i : Nat) (b : Bool) : Nat := if b then 2 ^ i else 0

/-- `x` rounded up to a multiple of `k`. -/
def upTo (k x : Nat) : Nat := (x + k - 1) / k * k

/-- `x` capped at `m`. -/
def sat (m x : Nat) : Nat := min m x

/-- One byte of the reflected CRC-32, bit by bit (R221). -/
def crcStep : Nat → Nat → Nat
  | 0, c => c
  | n + 1, c => crcStep n (if c % 2 = 1 then (c / 2) ^^^ 0xEDB88320 else c / 2)

/-- The CRC-32 of IEEE 802.3 (R221). -/
def crc32 (bs : List Byte) : Nat :=
  (bs.foldl (fun c b => crcStep 8 (c ^^^ b.toNat)) 0xFFFFFFFF) ^^^ 0xFFFFFFFF

/-- Integer square root of `v` by binary digits: the largest `r < 2 ^ n` with `r * r ≤ v`. -/
def isqrtBits (v : Nat) : Nat → Nat → Nat
  | 0, r => r
  | n + 1, r => if (r + 2 ^ n) * (r + 2 ^ n) ≤ v then isqrtBits v n (r + 2 ^ n) else isqrtBits v n r

/-- Integer square root of a number below 2^256. -/
def isqrt (v : Nat) : Nat := isqrtBits v 128 0

/-- Quotient rounded to the nearest integer, ties away from zero (R467). -/
def divRound (a : Int) (b : Nat) : Int :=
  if 0 ≤ a then (2 * a + b) / (2 * b) else -((2 * (-a) + b) / (2 * b))

namespace Machine

/-! ### Reading and changing parts of the state -/

/-- Nanoseconds since device reset: the monotonic clock of every timer. -/
def State.now (s : State) : Nat := 10 * s.clk.cyc
/-- Channel `c`. -/
def State.chan (s : State) (c : Nat) : Chan := Tab.get (Chan.reset 0) s.chans c
/-- Partition `p`. -/
def State.part (s : State) (p : Nat) : Part := Tab.get Part.reset s.parts p
/-- Queue `q`. -/
def State.queue (s : State) (q : Nat) : Queue := Tab.get Queue.reset s.qs q
/-- Coordinate `n`. -/
def State.lc (s : State) (n : Nat) : Lc := Tab.get Lc.reset s.lcs n
/-- Axis context `a`. -/
def State.axis (s : State) (a : Nat) : Axis := Tab.get Axis.reset s.axes a
/-- Latch input `i`. -/
def State.lat (s : State) (i : Nat) : Lat := Tab.get Lat.reset s.lats i
/-- SYNC output `i`. -/
def State.sync (s : State) (i : Nat) : Sync := Tab.get Sync.reset s.syncs i
/-- What partition `p` has staged. -/
def State.stage (s : State) (p : Nat) : Stage := Tab.get Stage.empty s.stages p
/-- Fault record `k`. -/
def State.frec (s : State) (k : Nat) : FRec := SMap.get FRec.reset s.fc.recs k
/-- Message object `o` of a channel. -/
def Chan.obj (ch : Chan) (o : Nat) : Obj := SMap.get Obj.reset ch.objs o

/-- Changes channel `c`. -/
def State.modChan (s : State) (c : Nat) (f : Chan → Chan) : State := { s with chans := Tab.mod s.chans c f }
/-- Changes partition `p`. -/
def State.modPart (s : State) (p : Nat) (f : Part → Part) : State := { s with parts := Tab.mod s.parts p f }
/-- Changes queue `q`. -/
def State.modQueue (s : State) (q : Nat) (f : Queue → Queue) : State := { s with qs := Tab.mod s.qs q f }
/-- Changes coordinate `n`. -/
def State.modLc (s : State) (n : Nat) (f : Lc → Lc) : State := { s with lcs := Tab.mod s.lcs n f }
/-- Changes axis context `a`. -/
def State.modAxis (s : State) (a : Nat) (f : Axis → Axis) : State := { s with axes := Tab.mod s.axes a f }
/-- Changes latch input `i`. -/
def State.modLat (s : State) (i : Nat) (f : Lat → Lat) : State := { s with lats := Tab.mod s.lats i f }
/-- Changes SYNC output `i`. -/
def State.modSync (s : State) (i : Nat) (f : Sync → Sync) : State := { s with syncs := Tab.mod s.syncs i f }
/-- Changes what partition `p` has staged. -/
def State.modStage (s : State) (p : Nat) (f : Stage → Stage) : State :=
  { s with stages := Tab.mod s.stages p f }
/-- Changes fault record `k`. -/
def State.modRec (s : State) (k : Nat) (f : FRec → FRec) : State :=
  { s with fc := { s.fc with recs := SMap.mod FRec.reset s.fc.recs k f } }
/-- The status bits an object keeps itself (Table 7.5). -/
def Obj.bits (x : Obj) : List Bool :=
  [x.new, x.trunc, x.overwrite, x.empty, x.pending, x.pending && x.trapHeld, x.collOneshot, x.oneshotFailed, x.collide,
   x.storeErr]
/-- A write of a record that leaves `old` behind adds 2 to its seq (R240); one that sets seq itself has done so. -/
def Obj.bracket (old new : Obj) : Obj :=
  if new.seq = old.seq && new.bits ≠ old.bits then { new with seq := new.seq + 2 } else new
/-- Changes object `o` of channel `c`. -/
def State.modObj (s : State) (c o : Nat) (f : Obj → Obj) : State :=
  s.modChan c fun ch => { ch with objs := SMap.mod Obj.reset ch.objs o fun x => x.bracket (f x) }

/-! ### Parameters -/

/-- The active value of parameter `num` for instance `inst` (R9, R91). -/
def State.par (s : State) (num inst : Nat) : Nat :=
  (SMap.find? s.params (keyId num inst)).getD (pDefault s.dev.straps num inst)

/-- Gives a parameter an active value; a value equal to the default is not listed. -/
def State.setPar (s : State) (num inst v : Nat) : State :=
  { s with params :=
      if v = pDefault s.dev.straps num inst then SMap.erase s.params (keyId num inst)
      else SMap.put s.params (keyId num inst) v }

/-- Parameter `num` of object `o` of channel `c` (R91). -/
def State.opar (s : State) (num c o : Nat) : Nat := s.par num (c * 128 + o)

/-- The dispatch tick in ns (R342). -/
def State.tickNs (s : State) : Nat := s.par K.schedTick 0

/-- Tick boundaries since device reset, in ANG's own cycles (R342). -/
def State.tickAt (s : State) : Nat := s.now / s.tickNs

/-- A boundary has come whose tick has not begun (R28, R342). -/
def State.tickDue (s : State) : Bool := s.dev.tick < s.tickAt

/-! ### Ports and partitions -/

/-- The port a number of Table 3.26 names. -/
def portOfNat (v : Nat) : Port :=
  match v with
  | 1 => .pa | 2 => .pa0 | 3 => .pa1 | 4 => .pb | 5 => .pb0 | 6 => .pb1 | 7 => .qa | 8 => .qb | _ => .none

/-- The number of a port in Table 3.26. -/
def portNat (p : Port) : Nat :=
  match p with
  | .none => 0 | .pa => 1 | .pa0 => 2 | .pa1 => 3 | .pb => 4 | .pb0 => 5 | .pb1 => 6 | .qa => 7 | .qb => 8

/-- True for a PCIe link. -/
def portPcie (p : Port) : Bool := 1 ≤ portNat p && portNat p ≤ 6

/-- The fault source of a port's refused accesses (Table 12.2): 0 PA, 1 PB, 2 QA, 3 QB from 0x040 on. -/
def portIndex (p : Port) : Nat :=
  match p with
  | .none | .pa | .pa0 | .pa1 => 0
  | .pb | .pb0 | .pb1 => 1
  | .qa => 2
  | .qb => 3

/-- The port that BOOT_SEL selects (Table 13.2). -/
def strapPort (straps : Straps) : Port := if straps.getLsbD 0 then .qa else .pa

/-- The link or port partition `p` is mapped to; in Rusk mode only P0 is served, on the Rusk port (R76, R406). -/
def State.portOf (s : State) (p : Nat) : Port :=
  match s.dev.mode with
  | .rusk => if p = 0 then strapPort s.dev.straps else .none
  | _ => portOfNat (s.par K.partPort p)

/-- True where partition `p` is served: it is mapped and the firmware or Rusk mode runs. -/
def State.served (s : State) (p : Nat) : Bool :=
  (s.dev.mode = .ready || s.dev.mode = .rusk) && s.portOf p ≠ .none

/-! ### Interrupts (R79) -/

/-- The MSI-X vector control word of vector `v` masks it (bit 0, set by the reset of the table). -/
def Part.masked (pt : Part) (v : Nat) : Bool := SMap.get 1 pt.msix (4 * v + 3) % 2 = 1

/-- A new instance of interrupt cause `k` for partition `p` (R79; in Rusk mode only MBOX and DEV_STATE occur,
R406): with its enable bit set, a PCIe partition sends the MSI-X message of the vector IRQ_VECTOR selects, or marks it pending while it is masked. -/
def State.irq (s : State) (p k : Nat) : State :=
  let pt := s.part p
  if bitOf pt.irqEnable.toNat k && portPcie (s.portOf p) && (s.dev.mode ≠ .rusk || k = 0 || k = 6) then
    let v := pt.irqVector.toNat / 2 ^ (3 * k) % 8
    if pt.masked v then s.modPart p fun x => { x with pba := x.pba ||| BitVec.ofNat 8 (2 ^ v) }
    else s.modPart p fun x => { x with msiSent := x.msiSent ++ [v] }
  else s

/-- Sets a W1C cause of IRQ_STATUS (Table 3.13). -/
def State.irqCause (s : State) (p k : Nat) : State :=
  if s.dev.mode = .rusk && k ≠ 6 then s
  else (s.modPart p fun x => { x with irqSet := x.irqSet ||| BitVec.ofNat 8 (2 ^ k) }).irq p k

/-- Adds one to ERR_COUNT.REFUSED of partition `p`, saturating (Table 3.8); ERR is set at saturation too (log entry 140). -/
def State.countRefused (s : State) (p : Nat) : State :=
  (s.modPart p fun x => { x with refused := if x.refused = 0xFFFF then x.refused else x.refused + 1 }).irqCause p 7

/-- Adds one to ERR_COUNT.IGNORED of partition `p`, saturating (Table 3.8); ERR is set at saturation too (log entry 140). -/
def State.countIgnored (s : State) (p : Nat) : State :=
  (s.modPart p fun x => { x with ignored := if x.ignored = 0xFFFF then x.ignored else x.ignored + 1 }).irqCause p 7

/-! ### Fault raises (R23, R360) -/

/-- A source holds a fault value on its lines until the collector takes it; `owner` is the owner of the
resource the occurrence names (R361), `cls` 0 transient, 1 environment, 2 permanent. -/
def State.raise (s : State) (src sub cls detail : Nat) (persists : Bool) (owner : Nat) : State :=
  { s with fc := { s.fc with raised := s.fc.raised ++
      [{ src := src, sub := sub, cls := cls, detail := BitVec.ofNat 32 detail, persists := persists,
         owner := owner }] } }

/-- A raise whose detail word its chapter leaves open; `idx` is the resource the occurrence concerns. -/
def State.raiseU (s : State) (src sub cls idx : Nat) (persists : Bool) (owner : Nat) : State :=
  s.raise src sub cls (Config.faultDetail src idx) persists owner

/-- A condition of a source becomes current. -/
def State.condOn (s : State) (src sub idx : Nat) : State :=
  if s.fc.conds.contains (src, sub, idx) then s
  else { s with fc := { s.fc with conds := s.fc.conds ++ [(src, sub, idx)] } }

/-- A condition of a source is no longer current. -/
def State.condOff (s : State) (src sub idx : Nat) : State :=
  { s with fc := { s.fc with conds := s.fc.conds.filter (· ≠ (src, sub, idx)) } }

/-! ### ALIVE and FAULT_N (R379 to R383) -/

/-- A source with PIN in force is in FAULT. -/
def State.pinForce (s : State) : Bool := s.fc.recs.any fun kv => kv.2.st = .fault && bitOf kv.2.reactions 5

/-- The pins show PIN: in force, or held under `fault.pin_hold` (Table 12.10). -/
def State.pinLow (s : State) : Bool := s.pinForce || (s.fc.pinHeld && s.par K.faultPinHold 0 = 1)

/-- Brings the pins up to date after a change from `old` (R380): without `fault.pin_hold` they return once no source
with PIN in force remains in FAULT, ALIVE at the next 500 µs boundary. -/
def State.pinSettle (s old : State) : State :=
  let t := if !s.pinForce && s.par K.faultPinHold 0 = 0 then { s with fc := { s.fc with pinHeld := false } } else s
  if old.pinLow && !t.pinLow then { t with fc := { t.fc with aliveAt := upTo 500000 t.now } } else t

/-- What ALIVE shows (Table 12.10). -/
inductive Alive where
  | low | khz1 | hz4
  deriving DecidableEq, Repr

/-- ALIVE (R379 to R383): stopped low by PIN and by a missed renewal. -/
def State.alive (s : State) : Alive :=
  match s.dev.mode with
  | .ready => if s.pinLow || s.fc.aliveMiss || s.now < s.fc.aliveAt then .low else .khz1
  | .rusk => .hz4
  | .held | .boot => .low

/-- FAULT_N is driven low (Table 12.10). -/
def State.faultN (s : State) : Bool := s.dev.mode ≠ .ready || s.pinLow

/-! ### Line coordinates -/

/-- Displacement in 2^-32 turn after `dt` ns at a speed and an acceleration (R46). -/
def dispOf (speed accel : W64) (dt : Int) : Int :=
  (2000000000 * speed.toInt * dt + accel.toInt * dt * dt) / 2000000000000000000

/-- The estimated speed at instant `now` (R46): in TRACK it follows the acceleration. -/
def Est.speedAt (e : Est) (now : Nat) : Int :=
  match e.st with
  | .track => e.speed.toInt + e.accel.toInt * ((now : Int) - e.t0) / 1000000000
  | _ => e.speed.toInt

/-- The value at instant `now` without the blend (R46, R48): extrapolated in TRACK with the acceleration and in HOLDOVER
without it, and for INC never more than one count beyond the last edge. -/
def Est.extrap (e : Est) (now : Nat) : Int :=
  let dt : Int := (now : Int) - e.t0
  match e.st with
  | .track =>
    let d := dispOf e.speed e.accel dt
    e.val.toNat + (match e.clamp with
      | some dc => max (-(dc : Int)) (min dc d)
      | none => d)
  | .holdover => e.val.toNat + dispOf e.speed 0 dt
  | .noSource | .acquire | .lost => e.val.toNat

/-- What a correction of `tot` ≤ 0 over `span` ns removes within its first `el` ns on a coordinate that moves by itself
with speed `v` and acceleration `a` (R44): while the speed lies above 0 and below the rate of the correction, the
correction only cancels the motion, so that the coordinate stands and never moves back. -/
def blendBack (v a tot : Int) (span el : Nat) : Int :=
  let w := v * 1000000000
  let rate := -tot * 1000000000000000000
  let ends : Int × Int :=
    if a = 0 then if 0 < v && w * span < rate then (0, el) else (0, 0)
    else if 0 < a then (-w / a, -(-(rate - w * span) / (a * span)))
    else ((w * span - rate) / (-a * span), -(-w / -a))
  let lo := max 0 (min (el : Int) ends.1)
  let hi := max lo (min (el : Int) ends.2)
  let path := fun (t : Int) => (2000000000 * v * t + a * t * t) / 2000000000000000000
  tot * (el - (hi - lo)) / span - (path hi - path lo)

/-- The part of the blend removed between `blendAt` and instant `now` (R44): linear over the blend time, and never so
fast that the coordinate would move against the sign of its estimated speed. A speed of 0 has no sign and limits
nothing; a coordinate that is not extrapolated is not corrected against its speed (log entry 88). -/
def Est.blended (e : Est) (now : Nat) : Int :=
  let el := min e.blendEnd now - e.blendAt
  if e.blendTot = 0 || e.blendSpan = 0 || el = 0 then 0
  else
    let v := e.speedAt e.blendAt
    match e.st with
    | .track | .holdover =>
      let a := if e.st = .track then e.accel.toInt else 0
      if e.blendTot < 0 then blendBack v a e.blendTot e.blendSpan el
      else -(blendBack (-v) (-a) (-e.blendTot) e.blendSpan el)
    | .noSource | .acquire | .lost =>
      if (e.blendTot < 0 && 0 < v) || (0 < e.blendTot && v < 0) then 0 else e.blendTot * el / e.blendSpan

/-- The coordinate that the estimator delivers at instant `now`. -/
def Est.value (e : Est) (now : Nat) : W64 := BitVec.ofInt 64 (e.extrap now + e.blended now)

/-- One count in 2^-32 turn (R37). -/
def State.lcCount (s : State) (n : Nat) : Nat :=
  s.par K.lcCntDen n * 0x100000000 / max 1 (s.par K.lcCntNum n)

/-- The estimator of coordinate `n`. -/
def State.lcEst (s : State) (n : Nat) : Est :=
  let l := s.lc n
  { st := l.st, val := l.val, t0 := l.t0, speed := l.speed, accel := l.accel,
    clamp := if s.par K.lcSource n = 1 then some (s.lcCount n) else none, blendTot := l.blendTot,
    blendSpan := l.blendSpan, blendAt := l.blendAt, blendEnd := l.blendEnd }

/-- The value of coordinate `n` now (R46, R51). -/
def State.lcVal (s : State) (n : Nat) : W64 := (s.lcEst n).value s.now

/-- The estimated speed of coordinate `n` now (R46). -/
def State.lcSpd (s : State) (n : Nat) : Int := (s.lcEst n).speedAt s.now

/-- The 2-bit state code of a coordinate (Table 2.6). -/
def LcState.code (st : LcState) : Nat :=
  match st with
  | .track => 0 | .holdover => 1 | .acquire => 2 | .lost | .noSource => 3

/-- lc_state: two bits per coordinate, LC0 in bits 1:0 (Table 2.6). -/
def State.lcStates (s : State) : Byte :=
  BitVec.ofNat 8 ((s.lc 0).st.code + 4 * (s.lc 1).st.code + 16 * (s.lc 2).st.code + 64 * (s.lc 3).st.code)

/-- The values of all coordinates now. -/
def State.lcAll (s : State) : List W64 := [s.lcVal 0, s.lcVal 1, s.lcVal 2, s.lcVal 3]

/-- Coordinate `n` at TIME `t` (R50), with the STALE flag: from the newest record not after `t`, which holds the
estimator as it stood then, 0 and STALE where that instant lies more than 1.024 ms back. Where no record is as old, the
live estimate is followed back as far. -/
def State.lcAt (s : State) (n : Nat) (t : W64) : W64 × Bool :=
  match ((s.lc n).hist.filter fun h => 0 ≤ (t - h.time).toInt).getLast? with
  | some h =>
    let at_ := h.at_ + (t - h.time).toNat
    if at_ + 1024000 < s.now then (0, true) else (h.est.value at_, false)
  | none =>
    let back := (s.clk.time - t).toInt
    if back ≤ 1024000 then
      (BitVec.ofInt 64 ((s.lcVal n).toNat + dispOf (BitVec.ofInt 64 (s.lcSpd n)) (s.lcEst n).accel (-back)), false)
    else (0, true)

/-! ### The event log (R386) -/

/-- stamp_lc of Table 12.9: the coordinate in bits 1:0, its state code in bits 3:2. -/
def State.stampLc (s : State) : Nat :=
  let n := s.par K.faultStampLc 0
  n + 4 * (s.lc n).st.code

/-- The record of an event of now, before its number is known (Table 12.11). -/
def State.logRecord (s : State) (kind flags index cause reactions value : Nat) : LogRec :=
  { kind := kind, flags := flags, index := index, cause := cause, reactions := reactions, value := sat 0xFFFF value,
    time := s.clk.time, coord := s.lcVal (s.par K.faultStampLc 0), gen := s.clk.gen, stampLc := s.stampLc,
    boot := s.keep.boot % 65536, seq := 0 }

/-- The supervisor writes a record into the ring of 32,768 records (R386). -/
def State.writeLog (s : State) (r : LogRec) : State :=
  let full := 32768 ≤ s.keep.log.length
  { s with keep := { s.keep with
      log := (if full then s.keep.log.drop 1 else s.keep.log) ++ [{ r with seq := s.keep.logSeq }]
      logSeq := s.keep.logSeq + 1
      logLost := if full then sat 0xFFFFFFFF (s.keep.logLost + 1) else s.keep.logLost } }

/-- The entries of a plane event ring: 64 KiB in entries of the size of a log record (R22, Table 4.2; DESIGN CHOICE, log
entry 133). -/
def planeEntries : Nat := 2048

/-- The plane whose event a log record tells of (R22): 0 control, 1 data, 2 management. -/
def logPlane (kind : Nat) : Nat :=
  if kind = 0x10 then 1 else if kind = 0x07 || kind = 0x23 || kind = 0x24 || kind = 0x2C then 0 else 2

/-- Changes the event ring of plane `k`. -/
def State.modPlane (s : State) (k : Nat) (f : PlaneRing → PlaneRing) : State := { s with rings := Tab.mod s.rings k f }

/-- The event ring of plane `k`. -/
def State.planeRing (s : State) (k : Nat) : PlaneRing := Tab.get PlaneRing.reset s.rings k

/-- Plane `k` posts an entry in its event ring, or counts it where the ring is full; it never waits for space (R22). -/
def State.post (s : State) (k : Nat) (e : PlaneEntry) : State :=
  s.modPlane k fun x =>
    if x.entries.length < planeEntries then { x with entries := x.entries ++ [e] } else { x with lost := x.lost + 1 }

/-- The supervisor takes the oldest entry of plane `k`'s ring (R22): the events that the ring lost are logged with the next
event; a request of R20 leaves the ring, and a completion is not the supervisor's to take. -/
def State.readPlane (s : State) (k : Nat) (e : PlaneEntry) : State :=
  match e with
  | .event r =>
    let n := (s.planeRing k).lost
    let t := s.modPlane k fun x => { x with entries := x.entries.erase e, lost := 0 }
    (if n = 0 then t else t.writeLog (s.logRecord 0x11 0 k 0 0 n)).writeLog r
  | .request _ _ => s.modPlane k fun x => { x with entries := x.entries.erase e }
  | .completion _ _ => s

/-- A lockstep fault of the supervisor core is unresolved: the management plane accepts no new work (R25). -/
def State.supHeld (s : State) : Bool := (s.frec 0x101).current

/-- A lockstep fault of the control core is unresolved: the control plane accepts no new work (R25). -/
def State.ctlHeld (s : State) : Bool := (s.frec 0x100).current

/-- The supervisor reads the plane event rings and writes the log, all that waits (R22). -/
def State.supervise (s : State) : State :=
  (List.range 3).foldl (fun t k => (t.planeRing k).entries.foldl (fun u e => u.readPlane k e) t) s

/-- An event is logged (R22, R386): its plane posts it, and the supervisor reads the rings unless a lockstep fault of its
core holds it. -/
def State.log (s : State) (kind flags index cause reactions value : Nat) : State :=
  let t := s.post (logPlane kind) (.event (s.logRecord kind flags index cause reactions value))
  if t.supHeld then t else t.supervise

/-- Logs a wrap of coordinate `n` between two values (R52). -/
def State.logWrap (s : State) (n : Nat) (v w : W64) : State :=
  if 0 < (w - v).toInt && w.toNat < v.toNat then s.log 0x10 0 n 0 0 0
  else if (w - v).toInt < 0 && v.toNat < w.toNat then s.log 0x10 0 n 1 0 0
  else s

/-! ### The passage of time -/

/-- `dt` ANG cycles pass (R55, R56): TIME gains 10 ns each, plus or minus the nanoseconds that the running slew
adds or omits, and a coordinate that wraps meanwhile is logged. -/
def State.elapse (s : State) (dt : Nat) : State :=
  let earned := s.clk.slewAcc + 10 * dt * s.par K.timeSlewMax 0
  let whole : Int := (earned / 1000000 : Nat)
  let on := s.clk.slewing && s.clk.slewLeft ≠ 0
  let take : Int :=
    if !on then 0 else if 0 ≤ s.clk.slewLeft then min whole s.clk.slewLeft else max (-whole) s.clk.slewLeft
  let t := { s with clk := { s.clk with
      cyc := s.clk.cyc + dt
      time := s.clk.time + BitVec.ofInt 64 (10 * (dt : Int) + take)
      slewLeft := s.clk.slewLeft - take
      slewAcc := if on then earned % 1000000 else 0 } }
  if dt = 0 then t
  else (List.range 4).foldl (fun u n => u.logWrap n (s.lcVal n) (t.lcVal n)) t

/-- `t` ns since instant `t0` have passed. -/
def State.passed (s : State) (t0 t : Nat) : Bool := t0 + t ≤ s.now

/-! ### The central store (R116 to R120) -/

/-- Reads `n` bytes at store address `a`. -/
def memRead (m : SMap Byte) (a : Nat) : Nat → List Byte
  | 0 => []
  | n + 1 => SMap.get 0 m a :: memRead m (a + 1) n

/-- Writes bytes at store address `a`. -/
def memWrite (m : SMap Byte) (a : Nat) : List Byte → SMap Byte
  | [] => m
  | b :: bs => memWrite (SMap.set 0 m a b) (a + 1) bs

/-- The canonical form of the store's bytes: addresses strictly rising, no zero byte listed. -/
def Memory.wf (m : SMap Byte) : Bool := SMap.wf 0 m

/-- The device writes bytes into the store; a lane written whole is no longer poisoned (R120). -/
def State.storeWrite (s : State) (a : Nat) (bs : List Byte) : State :=
  { s with store := { s.store with
      mem := memWrite s.store.mem a bs
      poison := s.store.poison.filter fun l => !(a ≤ 8 * l && 8 * l + 8 ≤ a + bs.length) } }

/-- Bytes of the store. -/
def State.storeRead (s : State) (a n : Nat) : List Byte := memRead s.store.mem a n

/-- True where a byte of the range lies in a poisoned lane (R120). -/
def State.poisoned (s : State) (a n : Nat) : Bool :=
  s.store.poison.any fun l => 8 * l < a + n && a < 8 * l + 8

/-- The device writes the lanes of a range whose content the model keeps elsewhere than in the store's bytes: they are no
longer poisoned (R120; the device writes whole lanes: DESIGN CHOICE, log entry 138). -/
def State.refresh (s : State) (a n : Nat) : State :=
  { s with store := { s.store with
      poison := s.store.poison.filter fun l => !(8 * l < a + n && a < 8 * l + 8) } }

/-- The store address of a field of queue `q`'s control page (Tables 4.2, 4.4). -/
def pageAddr (q off : Nat) : Nat := Config.ctlPages + 0x1000 * q + off

/-- The device writes a field of queue `q`'s control page. -/
def State.refreshPage (s : State) (q off : Nat) : State := s.refresh (pageAddr q off) 4

/-- The classes of Table 1.5. -/
inductive RegionClass where
  | channelRings | hostQueues | objectBuffers | signalImage | activeConfig | stagedConfig | updateRing | statusArea
  | planeRings | partitionRings | bulk | working
  deriving DecidableEq, Repr

/-- The regions of Table 4.2: start, size and class. Of a configuration copy the class follows its role (R125); the pool
holds the queue rings below the bulk regions (R126). -/
def regions : List (Nat × Nat × RegionClass) :=
  [(0x0000000, 0x080000, .working), (0x0080000, 0x0C0000, .working), (0x0140000, 0x040000, .hostQueues),
   (0x0180000, 0x030000, .working), (0x01B0000, 0x010000, .planeRings), (0x01C0000, 0x010000, .updateRing),
   (0x01D0000, 0x010000, .statusArea), (0x01E0000, 0x010000, .planeRings), (0x01F0000, 0x010000, .planeRings),
   (0x0200000, 0x080000, .partitionRings), (0x0280000, 0x100000, .channelRings), (0x0380000, 0x200000, .objectBuffers),
   (0x0580000, 0x880000, .signalImage), (0x0E00000, 0x500000, .activeConfig), (0x1300000, 0x500000, .stagedConfig),
   (0x1800000, 0x800000, .bulk)]

/-- The number of the region of Table 4.2 that holds a store address. -/
def regionOf (a : Nat) : Nat := regions.findIdx fun r => decide (r.1 ≤ a) && decide (a < r.1 + r.2.1)

/-- What Table 1.5 gives a host on a class: whether it may read, and whether it may write. -/
def RegionClass.host (c : RegionClass) : Bool × Bool :=
  match c with
  | .hostQueues | .bulk => (true, true)
  | .signalImage | .partitionRings => (true, false)
  | .channelRings | .objectBuffers | .activeConfig | .stagedConfig | .updateRing | .statusArea | .planeRings | .working =>
    (false, false)

/-- What Table 1.5 gives a plane (0 control, 1 data, 2 management) on a class; `whose` is the plane that working
data or an event ring belongs to. -/
def RegionClass.plane (c : RegionClass) (k whose : Nat) : Bool × Bool :=
  match c with
  | .channelRings | .hostQueues | .objectBuffers | .signalImage => (decide (k = 1), decide (k = 1))
  | .activeConfig => (decide (k ≤ 1), false)
  | .stagedConfig => (decide (k = 0), decide (k = 0))
  | .updateRing => (decide (k = 1), decide (k = 0))
  | .statusArea => (decide (k = 0), decide (k = 1))
  | .planeRings => (k = 2 || (k = 0 && whose = 2), decide (k = whose))
  | .partitionRings => (false, decide (k = 0))
  | .bulk => (k = 0 || k = 2, k = 0 || k = 2)
  | .working => (decide (k = whose), decide (k = whose))

/-! ### Partition events (R106, R107) -/

/-- Writes an event entry to partition `p`'s ring, or counts it where the ring is full or lost; a partition that
is not served, and Rusk mode (R406), has no event ring. -/
def State.event (s : State) (p ty index : Nat) (payload : List Byte) : State :=
  if !s.served p || s.dev.mode = .rusk then s
  else
    let pt := s.part p
    if (pt.evtHead - pt.evtTail).toNat < 1024 then
      let e := le 2 ty ++ le 2 pt.evtLost ++ le 4 pt.evtHead.toNat ++ le 8 s.clk.time.toNat ++
        le 1 s.clk.gen.toNat ++ zs 1 ++ le 2 index ++ zs 4 ++ fit 40 payload
      let t := s.storeWrite (Config.eventRings + 0x10000 * p + 64 * (pt.evtHead.toNat % 1024)) e
      (t.modPart p fun x => { x with evtHead := x.evtHead + 1, evtLost := 0 }).irq p 1
    else s.modPart p fun x => { x with evtLost := sat 0xFFFF (x.evtLost + 1) }

/-- The owner partition of a channel, axis, queue, coordinate, latch, SYNC output or TIME (R96). -/
def State.ownerOf (s : State) (r : PRes) (i : Nat) : Nat :=
  match r with
  | .dev => 0
  | .chan => s.par K.chanOwner i
  | .obj => s.par K.chanOwner (i / 128)
  | .axis => s.par K.axOwner i
  | .queue => s.par K.qOwner i
  | .lc => s.par K.lcOwner i
  | .latch => s.par K.latOwner i
  | .sync => s.par K.syncOwner i
  | .time => s.par K.timeOwner 0

/-- The owner of channel `c`. -/
def State.chanOwner (s : State) (c : Nat) : Nat := s.par K.chanOwner c

/-! ### Device-to-host items (R133, R134, R141, R142) -/

/-- Fires the notification of queue `q` if it is ARMED (R141). -/
def State.fire (s : State) (q : Nat) : State :=
  let x := s.queue q
  if x.fired then s
  else
    let p := s.par K.qOwner q
    let t := s.modQueue q fun y => { y with fired := true, timer := none }
    (t.modPart p fun y => { y with qNotify := y.qNotify ||| BitVec.ofNat 64 (2 ^ q) }).irq p 2

/-- An item header (Table 4.5). -/
def itemHeader (ty len flags index seq lost gen time aux : Nat) : List Byte :=
  le 2 ty ++ le 2 len ++ le 1 (len % 32) ++ le 1 flags ++ le 2 index ++ le 4 seq ++ le 2 lost ++ le 1 gen ++
    zs 1 ++ le 8 time ++ le 8 aux

/-- Whole store words an item of `len` payload bytes occupies, in bytes (R133). -/
def itemBytes (len : Nat) : Nat := upTo 32 (32 + len)

/-- Counts a D2H drop (R142): the first drop since the last valid doorbell raises 0x025 and sends Q_OVERFLOW. -/
def State.dropItem (s : State) (q : Nat) : State :=
  let t := s.modQueue q fun x =>
    { x with dropped := x.dropped + 1, lost := sat 0xFFFF (x.lost + 1), dropTold := true }
  let t := t.refreshPage q 0x88
  if (s.queue q).dropTold then t
  else
    let p := s.par K.qOwner q
    (t.raiseU 0x25 0 0 q false p).event p 0x0701 q (le 4 (t.queue q).dropped.toNat)

/-- The serving core writes one data item to an OPEN D2H queue (R134), or drops it whole (R142); the result
says whether it was written. A CLOSED queue takes no item. -/
def State.writeItem (s : State) (it : OutItem) : State × Bool :=
  let x := s.queue it.q
  if !x.isOpen || s.par K.qDir it.q ≠ 1 then (s, false)
  else
    let pos := x.wr.toNat % x.bytes
    let total := itemBytes it.payload.length
    let pad := if pos + total > x.bytes then x.bytes - pos else 0
    let occ := (x.wr - x.rd).toNat
    if occ + pad + total > x.bytes - 32 then (s.dropItem it.q, false)
    else
      let at_ := if pad = 0 then pos else 0
      let hdr := itemHeader it.ty it.payload.length (if x.lost = 0 then 0 else 1) it.index
        (x.items + 1).toNat x.lost s.clk.gen.toNat s.clk.time.toNat it.aux.toNat
      let s1 := s.storeWrite (x.base + (at_ + total) % x.bytes) (zs 32)
      let s2 := s1.storeWrite (x.base + at_ + 32) (fit (total - 32) it.payload)
      let s3 := s2.storeWrite (x.base + at_) hdr
      let s4 := if pad = 0 then s3 else s3.storeWrite (x.base + pos) (itemHeader 1 (pad - 32) 0 0 0 0 0 0 0)
      let wr' := x.wr + BitVec.ofNat 32 (pad + total)
      let s5 := (s4.refreshPage it.q 0).modQueue it.q fun y =>
        { y with wr := wr', items := y.items + 1, lost := 0, high := max y.high (occ + pad + total),
                 ends := y.ends ++ [wr'], timer := if y.fired || y.timer.isSome then y.timer else some s.now }
      if s.par K.qNotifyCount it.q ≤ (s5.queue it.q).ends.length then (s5.fire it.q, true) else (s5, true)

/-- A latch record is lost (R60): counted, carried by the input's next record, and reported on 0x059. -/
def State.latchLost (s : State) (i : Nat) : State :=
  (s.modLat i fun l => { l with lost := l.lost + 1, lostDue := sat 0xFFFF (l.lostDue + 1) }).raiseU 0x59 0 0 i false
    (s.par K.latOwner i)

/-- Writes a D2H item; a RAW_FRAME item that is written is counted in mirror_items (Table 7.13), and a LATCH item that
the queue cannot take is a lost record (R60). -/
def State.writeOut (s : State) (it : OutItem) : State :=
  let r := s.writeItem it
  if !r.2 && it.ty = 0x0302 && (r.1.queue it.q).dropped ≠ (s.queue it.q).dropped then r.1.latchLost it.index
  else if r.2 && it.ty = 0x0205 then
    r.1.modChan it.index fun ch => { ch with ring := { ch.ring with mirrored := ch.ring.mirrored + 1 } }
  else r.1

/-- Work of data core `core` that yields a D2H item (R229): written at once by the core that serves the queue,
else handed to that core, which writes it in its next tick. -/
def State.emit (s : State) (core : Nat) (it : OutItem) : State :=
  if 63 < it.q then s
  else if s.par K.qCore it.q = core then s.writeOut it
  else { s with handoff := s.handoff ++ [.out core it] }

end Machine
end Sys2Proof
end

