-- ==== Sys2Proof/Machine/Mailbox.lean ====
section
/-! DEFINITION. The mailbox protocol (R81 to R90, R99 to R101): submitting a slot, the checks of R86, serving the
oldest accepted request, and the response. -/
namespace Sys2Proof.Machine

/-! ### Status codes (Table 3.20) -/

def stOk : Nat := 0x00
def stStaged : Nat := 0x01
def stBadLength : Nat := 0x02
def stBadKey : Nat := 0x03
def stRange : Nat := 0x04
def stDenied : Nat := 0x05
def stBusy : Nat := 0x06
def stNoSpace : Nat := 0x07
def stState : Nat := 0x08
def stUnsupported : Nat := 0x09
def stIntegrity : Nat := 0x0A
def stRetired : Nat := 0x0B
def stTimeout : Nat := 0x0C
def stConflict : Nat := 0x0D

/-- A request as the control core holds it (R82, Table 3.18), with the partition and slot it came from. -/
structure Req where
  part : Nat
  slot : Nat
  code : Nat
  tag : W16
  length : Nat
  form : Nat
  flags : Nat
  bulkOff : Nat
  bulkLen : Nat
  data : List Byte
  deriving DecidableEq, Repr

/-- A field of the request data. -/
def Req.u (r : Req) (off n : Nat) : Nat := rd r.data off n

/-- How a command ends: refused with a status and detail and no effect (R90), completed with a status and response
data, or still running as a long-running command or one that waits for the data plane (R88). -/
inductive Answer where
  | refuse (st detail : Nat)
  | done (st : Nat) (data : List Byte) (s : State)
  | later (l : Long) (s : State)
  deriving DecidableEq, Repr

/-- What R86 checks of a command: its code, the length it defines for a request, its reserved data bytes, the bits
its flag bytes define (offset, mask), whether it has an EXPERT form and whether Rusk mode serves it. -/
structure CmdDef where
  code : Nat
  len : Req → Nat
  resv : Req → List Nat
  masks : Req → List (Nat × Nat)
  expert : Bool
  rusk : Bool
  detail : Req → Nat → Nat := fun _ o => 16 + o   -- what a non-zero reserved byte of the data reports

/-- A BASIC-only command of fixed length that Rusk mode does not serve. -/
def CmdDef.plain (code len : Nat) (resv : List Nat) : CmdDef :=
  { code := code, len := fun _ => len, resv := fun _ => resv, masks := fun _ => [], expert := false, rusk := false }

/-- Offsets `a` to `a + n - 1`. -/
def offs (a n : Nat) : List Nat := (List.range n).map (a + ·)

/-! ### Bulk regions (R99, R126, R406) -/

/-- Size of partition `p`'s bulk region in force. -/
def State.bulkSize (s : State) (p : Nat) : Nat :=
  match s.dev.mode with
  | .rusk => if p = 0 then 0x400000 else 0
  | _ => s.par K.partBulkSize p

/-- Start of partition `p`'s bulk region: placed from the top of the pool downward (R126). -/
def State.bulkBase (s : State) (p : Nat) : Nat :=
  Config.poolEnd - ((List.range (p + 1)).map s.bulkSize).sum

/-- The bulk range a request names. -/
def State.bulkIn (s : State) (r : Req) : List Byte :=
  s.storeRead (s.bulkBase r.part + r.bulkOff) r.bulkLen

/-! ### The slot -/

/-- Slot `slot` of partition `p` is device-owned (R81). -/
def State.slotHeld (s : State) (p slot : Nat) : Bool :=
  (s.part p).accepted.any (·.slot = slot) ||
    s.longs.any fun l => l.part = p && l.slot = slot && !l.discard

/-- The request that slot `slot` of a mailbox page holds (Table 3.18). -/
def Part.slotRequest (pt : Part) (slot : Nat) : Nat × Request :=
  let bs := memRead pt.slots (0x200 * slot) 512
  (rd bs 0 2,
   { tag := BitVec.ofNat 16 (rd bs 2 2), length := BitVec.ofNat 16 (rd bs 4 2), form := BitVec.ofNat 8 (rd bs 6 1),
     flags := BitVec.ofNat 8 (rd bs 7 1), bulkOff := BitVec.ofNat 32 (rd bs 8 4),
     bulkLen := BitVec.ofNat 32 (rd bs 12 4), data := bs.drop 16 })

/-- The bytes of a request in its slot (Table 3.18). -/
def reqBytes (code : Nat) (q : Request) : List Byte :=
  le 2 code ++ le 2 q.tag.toNat ++ le 2 q.length.toNat ++ [q.form, q.flags] ++ le 4 q.bulkOff.toNat ++
    le 4 q.bulkLen.toNat ++ fit 496 q.data

/-- The address of an offset in a window of a partition, as R74 spells it: 0 control, 1 store, 2 signal, 3 reserved. -/
def viaAddr (v : Via) (win off : Nat) : Nat := v.part.val * 0x20000000 + win * 0x8000000 + off

/-- An access that names a partition not mapped to its port: reported on the port's source only (R74). No access comes
over a link that is down, nor does a device in reset answer. -/
def State.refusePort (s : State) (v : Via) (win off : Nat) : State :=
  if s.dev.mode = .held || v.port = .none || s.linksDown.contains v.port then s
  else s.raise (0x40 + portIndex v.port) 0 1 (viaAddr v win off) false 0

/-- An access of partition `p` refused as in R19: counted in ERR_COUNT.REFUSED (R74, R78) and reported on the store-rights
source, whose detail names the partition, the region and the address (log entry 134). -/
def State.refuseAccess (s : State) (p region addr : Nat) : State :=
  (s.countRefused p).raise 0x24 0 1 (Config.refusalDetail p region addr) false 0

/-- A refused access to the control window (R78, R81), which is no region of the store. -/
def State.refuseCtrl (s : State) (p off : Nat) : State := s.refuseAccess p 16 off

/-- A refused access to the store: the record names its store address and the region that holds it (R124). -/
def State.refuseStore (s : State) (p addr : Nat) : State := s.refuseAccess p (regionOf addr) addr

/-- A host access of partition `p` on `port` reaches the partition (R74, R76). -/
def State.reaches (s : State) (v : Via) : Bool :=
  s.dev.mode ≠ .held && v.port ≠ .none && s.portOf v.part = v.port && !s.linksDown.contains v.port

/-- The device takes one doorbell bit (R81, R87, R112, R397): ignored and counted before READY, during a
partition reset and for a slot it already owns; otherwise the slot is device-owned, its DONE bit clears and its
request is copied. -/
def State.doorbell (s : State) (p slot : Nat) : State :=
  if !s.served p || (s.part p).resetting.isSome || s.slotHeld p slot then s.countIgnored p
  else s.modPart p fun pt =>
    let q := pt.slotRequest slot
    { pt with
      done := pt.done &&& ~~~(BitVec.ofNat 16 (2 ^ slot))
      accepted := pt.accepted ++ [{ slot := slot, code := q.1, rq := q.2 }] }

/-- Writes the whole response into the slot, then sets DONE and raises the MBOX cause (R82, R84). -/
def State.respond (s : State) (p slot code : Nat) (tag : W16) (st detail : Nat) (data : List Byte) : State :=
  (s.modPart p fun pt =>
    let sq := pt.seq + 1
    { pt with
      slots := memWrite pt.slots (0x200 * slot)
        (le 2 code ++ le 2 tag.toNat ++ le 2 data.length ++ le 1 st ++ zs 1 ++ le 4 detail ++ le 4 sq.toNat ++
          fit 496 data)
      done := pt.done ||| BitVec.ofNat 16 (2 ^ slot)
      seq := sq }).irq p 0

/-! ### The checks of R86 -/

/-- The request as the control core holds it. -/
def Accepted.req (a : Accepted) (p : Nat) : Req :=
  { part := p, slot := a.slot, code := a.code, tag := a.rq.tag, length := a.rq.length.toNat,
    form := a.rq.form.toNat, flags := a.rq.flags.toNat, bulkOff := a.rq.bulkOff.toNat,
    bulkLen := a.rq.bulkLen.toNat, data := fit 496 a.rq.data }

/-- The first reserved data byte, or flag byte with an undefined bit, that is not zero (R86 step 4). -/
def CmdDef.badByte (d : CmdDef) (r : Req) : Option Nat :=
  let bad := ((d.resv r).filter fun o => o < r.length && r.u o 1 ≠ 0) ++
    ((d.masks r).filter fun m => m.1 < r.length && r.u m.1 1 &&& (255 - m.2) ≠ 0).map (·.1)
  bad.foldl (fun b o => some (match b with | some x => min x o | none => o)) none

/-- R86 in its order: the status and detail of the first check that fails. -/
def CmdDef.check (d : CmdDef) (r : Req) (s : State) : Option (Nat × Nat) :=
  if 496 < r.length then some (stBadLength, 4)
  else if s.dev.mode = .rusk && !d.rusk then some (stUnsupported, 0)
  else if 1 < r.form || (r.form = 1 && !d.expert) then some (stUnsupported, 6)
  else if r.flags ≠ 0 then some (stRange, 7)
  else match d.badByte r with
    | some o => some (stRange, d.detail r o)
    | none =>
      if r.length ≠ d.len r then some (stBadLength, 4)
      else if r.bulkLen = 0xFFFFFFFF || s.bulkSize r.part < r.bulkOff + r.bulkLen then some (stBadLength, 12)
      else if r.bulkOff % 32 ≠ 0 then some (stRange, 8)
      else none

/-- The codes of Table 16.1 (R462). -/
def knownCode (code : Nat) : Bool :=
  code ≤ 5 || (0x10 ≤ code && code ≤ 0x12) || (0x20 ≤ code && code ≤ 0x24) || (0x100 ≤ code && code ≤ 0x108) ||
    (0x200 ≤ code && code ≤ 0x204) || (0x300 ≤ code && code ≤ 0x306) || (0x400 ≤ code && code ≤ 0x403) ||
    (0x500 ≤ code && code ≤ 0x503) || (0x600 ≤ code && code ≤ 0x603) || (0x700 ≤ code && code ≤ 0x704) ||
    (0x800 ≤ code && code ≤ 0x806) || (0x900 ≤ code && code ≤ 0x906) || (0xA00 ≤ code && code ≤ 0xA02)

/-- A command of partition `p` that is not long-running has not completed (R88). -/
def State.blocked (s : State) (p : Nat) : Bool := s.longs.any fun l => l.part = p && l.blocks && !l.discard

/-- Answers, one by one, the unknown codes at the front of a partition's accepted requests (R86 steps 1 and 2). -/
def State.drain (s : State) (p : Nat) : Nat → State
  | 0 => s
  | n + 1 =>
    match (s.part p).accepted with
    | a :: rest =>
      if knownCode a.code || s.blocked p || s.ctlHeld then s
      else
        let t := s.modPart p fun pt => { pt with accepted := rest }
        let bad := 496 < a.rq.length.toNat
        (t.respond p a.slot a.code a.rq.tag (if bad then stBadLength else stUnsupported) (if bad then 4 else 0)
          []).drain p n
    | [] => s

/-- Completes a long-running or waiting command; a discarded one leaves no response (R112). -/
def State.finish (s : State) (l : Long) (st detail : Nat) (data : List Byte) : State :=
  let t := { s with longs := s.longs.erase l }
  if l.discard then t else (t.respond l.part l.slot l.code l.tag st detail data).drain l.part 16

/-- Takes an answer: the response of a completed command, or the record of one that still runs, with the instant at which
it began (R89). -/
def State.answer (s : State) (r : Req) (x : Answer) : State :=
  match x with
  | .refuse st detail => s.respond r.part r.slot r.code r.tag st detail []
  | .done st data t => t.respond r.part r.slot r.code r.tag st 0 data
  | .later l t => { t with longs := t.longs ++ [{ l with t0 := s.now }] }

/-- The commands whose data the management plane holds (R20): BOOT_RECORDS, FW_LOAD, LOG_READ, AGE_REPORT and
AGE_HISTORY. -/
def managementCodes : List Nat := [0x0901, 0x0902, 0x0805, 0x0A00, 0x0A01]

/-- A plane whose core has an unresolved lockstep fault accepts no new work (R25). -/
def State.planeHeld (s : State) (code : Nat) : Bool := s.ctlHeld || (managementCodes.contains code && s.supHeld)

/-- The request of one of the five commands goes through the control plane's event ring to the supervisor (R20, steps 1
and 2), which takes it after the events that lie before it. -/
def State.relayRequest (s : State) (p slot : Nat) : State := (s.post 0 (.request p slot)).supervise

/-- The supervisor's completion goes through the management plane's event ring to the control core, which reads it (R20,
steps 3 and 4). -/
def State.relayDone (s : State) (p slot : Nat) : State :=
  (s.post 2 (.completion p slot)).modPlane 2 fun x => { x with entries := x.entries.erase (.completion p slot) }

/-- The answer of a command whose data the management plane holds comes back through its event ring (R20). -/
def Answer.relayed (x : Answer) (p slot : Nat) : Answer :=
  match x with
  | .refuse st detail => .refuse st detail
  | .done st data t => .done st data (t.relayDone p slot)
  | .later l t => .later l t

/-- How the control core serves a command whose checks have passed: by itself, or for the five commands of R20 through the
plane event rings. -/
def State.route (s : State) (r : Req) (h : Req → State → Answer) : Answer :=
  if managementCodes.contains r.code then (h r (s.relayRequest r.part r.slot)).relayed r.part r.slot else h r s

/-- Partition `p` has a command that the control core can start now (R25, R87, R88): its oldest accepted request names a
command, and nothing holds it back. -/
def State.canStart (s : State) (p : Nat) : Bool :=
  match (s.part p).accepted with
  | a :: _ => knownCode a.code && !s.blocked p && !s.planeHeld a.code
  | [] => false

/-- The partition whose command the control core takes next (R87): the first that has one, from the partition whose turn it
is. -/
def State.nextPart (s : State) : Option Nat := ((List.range 8).map fun k => (s.dev.turn + k) % 8).find? s.canStart

/-- The control core takes the oldest accepted request of partition `p`; the turn passes to the next partition (R87). -/
def State.takeRequest (s : State) (p : Nat) : State :=
  { s.modPart p fun pt => { pt with accepted := pt.accepted.drop 1 } with dev := { s.dev with turn := (p + 1) % 8 } }

/-- The control core serves the oldest accepted request of partition `p` if it is that of the slot and the partition's
turn has come (R87, R88). -/
def State.serve (s : State) (p slot : Nat) (d : CmdDef) (h : Req → State → Answer) : State :=
  match (s.part p).accepted with
  | a :: _ =>
    if a.slot ≠ slot || a.code ≠ d.code || s.nextPart ≠ some p then s
    else
      let r := a.req p
      let t := s.takeRequest p
      (match d.check r t with
       | some (st, detail) => t.answer r (.refuse st detail)
       | none => t.answer r (t.route r h)).drain p 16
  | [] => s

/-- A host writes a request into a slot and rings its doorbell (R81, R83): refused where the slot is
device-owned. -/
def State.submit (s : State) (p slot code : Nat) (q : Request) : State :=
  if s.slotHeld p slot then (s.refuseCtrl p (0x1000 + 0x200 * slot)).countIgnored p
  else
    (s.modPart p fun pt =>
      { pt with slots := memWrite pt.slots (0x200 * slot) (reqBytes code q) }).doorbell p slot

/-- The accepted request of a slot is this one already. -/
def State.holds (s : State) (p slot code : Nat) (q : Request) : Bool :=
  (s.part p).accepted.any fun a =>
    a.slot = slot && a.code = code && decide (a.rq = { q with data := fit 496 q.data })

/-- A mailbox command: the host submits the request, unless the device has accepted the same request in that slot
already, and the control core serves it when its turn has come. -/
def mailbox (d : CmdDef) (h : Req → State → Answer) (dt : Nat) (m : Mbox) (s0 : State) :
    Host.Outcome State Fault Refusal :=
  let s := s0.elapse dt
  let p := m.via.part.val
  let slot := m.slot.val
  if !s.reaches m.via then .next (s.refusePort m.via 0 (0x1000 + 0x200 * slot))
  else if s.holds p slot d.code m.rq then .next (s.serve p slot d h)
  else .next ((s.submit p slot d.code m.rq).serve p slot d h)

/-! ### Helpers of the handlers -/

/-- Completes with OK after writing `data` to the bulk range; the response gives the bytes written (R84). -/
def bulkReply (r : Req) (data : List Byte) (s : State) : Answer :=
  if r.bulkLen < data.length || r.bulkLen = 0 then .refuse stBadLength 12
  else .done stOk (le 4 data.length) (s.storeWrite (s.bulkBase r.part + r.bulkOff) data)

/-- P0, or the owner of the resource (R469). -/
def State.mayOperate (s : State) (p : Nat) (c : PRes) (i : Nat) : Bool := p = 0 || s.ownerOf c i = p

/-- The key of a resource in the grant maps: its class code in RIGHTS_GRANT and its index. -/
def resKey (c : PRes) (i : Nat) : Nat :=
  match c with
  | .dev => 0
  | .chan => 0x10000 + i
  | .obj => 0x10000 + i / 128
  | .axis => 0x20000 + i
  | .queue => 0x30000 + i
  | .lc => 0x40000 + i
  | .latch => 0x50000 + i
  | .sync => 0x60000 + i
  | .time => 0x70000 + i

/-- Partition `p` holds expert rights on a resource (R96): P0 always; the owner unless P0 has revoked them; any
other by grant. -/
def State.expertOn (s : State) (p : Nat) (c : PRes) (i : Nat) : Bool :=
  p = 0 ||
    (if s.ownerOf c i = p then decide (SMap.get 0 s.revoked (resKey c i) = 0)
     else bitOf (SMap.get 0 s.expert (resKey c i)) p)

/-- A long-running command still uses channel `c` (R88): CHAN_OPEN or its re-qualification. -/
def State.chanInUse (s : State) (c : Nat) : Bool :=
  s.longs.any fun l => (l.code = 0x100 || l.code = 0x803 || l.code = 0x106) && l.res = c

/-- A record of a command that runs on. -/
def Req.long (r : Req) (res arg : Nat) (blocks : Bool) : Long :=
  { part := r.part, slot := r.slot, code := r.code, tag := r.tag, res := res, arg := arg, blocks := blocks,
    discard := false, t0 := 0, bulkOff := r.bulkOff, bulkLen := r.bulkLen }

end Sys2Proof.Machine
end

