-- ==== Sys2Proof/Machine/Flags.lean ====
section
/-! DEFINITION. Registers and flags computed from the state: IFVER, STATE, IRQ_STATUS, HB_STATUS, ERR_COUNT, IRQ_N
and the register read of a partition window (Tables 3.4 to 3.17, R397). -/
namespace Sys2Proof.Machine

/-- The window of a served partition shows current values; before READY every register but STATE.DEV reads its
reset value (R397). -/
def State.live (s : State) : Bool := s.dev.mode = .ready || s.dev.mode = .rusk

/-- Something is staged (STATE.STAGED, Table 3.7). -/
def Stage.any (g : Stage) : Bool := !g.params.isEmpty || !g.rules.isEmpty || !g.scheds.isEmpty || !g.sigs.isEmpty

/-- IFVER of partition `p` (Table 3.6). -/
def State.ifver (s : State) (p : Nat) : Nat :=
  let v := match s.dev.mode with
    | .ready => s.dev.mboxVer + s.dev.fwMajor * 0x100 + s.dev.fwMinor * 0x10000
    | .rusk => 4
    | _ => 0
  v + p * 0x1000000 + flag 27 (p = 0)

/-- STATE.DEV (Table 3.7). -/
def DevMode.code (m : DevMode) : Nat :=
  match m with
  | .held | .boot => 0 | .ready => 1 | .rusk => 2

/-- STATE of partition `p` (Table 3.7). -/
def State.stateReg (s : State) (p : Nat) : Nat :=
  if s.live then
    s.dev.mode.code + flag 4 (s.part p).resetting.isSome + flag 8 (s.commits.any (·.part = p)) +
      flag 9 (s.stage p).any
  else s.dev.mode.code + 0x10

/-- HB_STATUS.STATE (Table 3.16). -/
def HbState.code (h : HbState) : Nat :=
  match h with
  | .off => 0 | .armed => 1 | .ok => 2 | .late => 3 | .expired => 4

/-- HB_STATUS.AGE: ms since the last valid write, saturating; 0 while there has been none (Table 3.16). -/
def State.hbAge (s : State) (p : Nat) : Nat :=
  let pt := s.part p
  if pt.hbSeen then sat 0xFFFF ((s.now - pt.hbAt) / 1000000) else 0

/-- ERR_COUNT (Table 3.8). -/
def Part.errCount (pt : Part) : Nat := pt.refused.toNat + 0x10000 * pt.ignored.toNat

/-- IRQ_STATUS (Table 3.13). -/
def Part.irqStatus (pt : Part) : Nat :=
  flag 0 (pt.done ≠ 0) + flag 1 (pt.evtHead ≠ pt.evtTail) + flag 2 (pt.qNotify ≠ 0) + (pt.irqSet.toNat / 8) * 8

/-- IRQ_N of a QSPI port is driven low (R75). -/
def State.irqN (s : State) (port : Port) : Bool :=
  (List.range 8).any fun p =>
    s.served p && s.portOf p = port && (s.part p).irqStatus &&& (s.part p).irqEnable.toNat ≠ 0

/-- An aperture selector as it reads; a change of its queue's owner has made it OFF (R80, R97). -/
def State.apReg (s : State) (p n : Nat) : Nat := (Tab.get 0 (s.part p).aps n).toNat

/-- The core that serves a queue: DCn for the telegram queue of coordinate n (R130). -/
def State.qServer (s : State) (q : Nat) : Nat :=
  ((List.range 4).find? fun n => s.par K.lcTelQueue n = q).getD (s.par K.qCore q)

/-- The value of the register at a word-aligned offset of partition `p`'s control window (Table 3.4); the read
of ERR_COUNT clears it, which the access does. -/
def State.regVal (s : State) (p off : Nat) : Nat :=
  let pt := s.part p
  if off = 0x000 then 0x00B03264
  else if off = 0x004 then s.ifver p
  else if off = 0x008 then s.stateReg p
  else if !s.live then 0
  else if off = 0x00C then pt.errCount
  else if off = 0x014 then pt.done.toNat
  else if off = 0x020 then pt.qNotify.toNat % 0x100000000
  else if off = 0x024 then pt.qNotify.toNat / 0x100000000
  else if off = 0x028 then pt.irqStatus
  else if off = 0x02C then pt.irqEnable.toNat
  else if off = 0x030 then pt.irqVector.toNat
  else if off = 0x034 then pt.evtHead.toNat
  else if off = 0x038 then pt.evtTail.toNat
  else if off = 0x040 then pt.hb.code + 0x10000 * s.hbAge p
  else if off = 0x048 then s.apReg p 0
  else if off = 0x04C then s.apReg p 1
  else if off = 0x050 then s.apReg p 2
  else if off = 0x054 then s.apReg p 3
  else 0

end Sys2Proof.Machine
end

