-- ==== Sys2Proof/Machine/Motion.lean ====
section
/-! DEFINITION. The arithmetic of the axis engine (R314, R320 to R326): rounding, the track step, and plans of phases
of constant jerk. Plans are computed with quantities in 2^-128 and times in 2^-64 s, which keeps every sample within
the 2^-24 axis units of R322; a plan's free instant is found by bisection. -/
namespace Sys2Proof.Machine

/-- `n / d` rounded to the nearest integer, ties toward +infinity (R314); `d` positive. -/
def rnd (n : Int) (d : Nat) : Int := (2 * n + d) / (2 * d : Nat)

/-- Saturates to s64; the flag is SAT (R314). -/
def sat64 (x : Int) : Int × Bool :=
  if x < -(2 ^ 63) then (-(2 ^ 63), true) else if 2 ^ 63 - 1 < x then (2 ^ 63 - 1, true) else (x, false)

/-- The sign of an integer as a factor. -/
def isgn (x : Int) : Int := if x < 0 then -1 else if x = 0 then 0 else 1

/-- Integer square root of numbers below 2^384. -/
def wsqrt (x : Int) : Int := (isqrtBits x.toNat 192 0 : Nat)

/-- Square root rounded to the nearest integer. -/
def rsqrt (x : Int) : Int :=
  let r := wsqrt x
  if r < x - r * r then r + 1 else r

/-- What a track step yields: position, velocity, acceleration, jerk and the flags of Table 10.7. -/
structure Step where
  p : Int
  v : Int
  a : Int
  j : Int
  flags : Nat

/-- The track step of R320 over `h` ns under the limits `lv`, `la`, `lj` and the gain `kp` (Q16.16). -/
def trackStep (p v a pd vd : Int) (lv la lj kp h : Nat) : Step :=
  let e := sat64 (pd - p)
  let w := sat64 (rnd (vd * 65536 + kp * e.1) 65536)
  let vlim := decide ((lv : Int) < w.1.natAbs)
  let vw := if vlim then isgn w.1 * lv else w.1
  let dv := sat64 (rnd ((vw - v) * (2 * lj) - a * a.natAbs) (2 * lj))
  let q := sat64 (isgn dv.1 * rsqrt (2 * lj * dv.1.natAbs))
  let alim := decide ((la : Int) < q.1.natAbs)
  let aw := if alim then isgn q.1 * la else q.1
  let k := sat64 (rnd ((aw - a) * 1000000000) h)
  let jlim := decide ((lj : Int) < k.1.natAbs)
  let j := if jlim then isgn k.1 * lj else k.1
  let hh : Int := h
  let p' := sat64 (rnd (p * 6000000000000000000000000000 + v * hh * 6000000000000000000 +
    a * hh * hh * 3000000000 + j * hh * hh * hh) 6000000000000000000000000000)
  let v' := sat64 (rnd (v * 2000000000000000000 + a * hh * 2000000000 + j * hh * hh) 2000000000000000000)
  let a' := sat64 (rnd (a * 1000000000 + j * hh) 1000000000)
  { p := p'.1, v := v'.1, a := a'.1, j := j,
    flags := flag 0 vlim + flag 1 alim + flag 2 jlim +
      flag 3 (e.2 || w.2 || dv.2 || q.2 || k.2 || p'.2 || v'.2 || a'.2) }

/-! ### Profiles -/

/-- A motion state in units of 2^-128. -/
structure Mot where
  p : Int
  v : Int
  a : Int

/-- The motion after `t` (2^-64 s) at constant jerk `j` (Q32.32). -/
def Mot.adv (m : Mot) (j : Int) (t : Nat) : Mot :=
  let jj := j * 2 ^ 96
  { p := m.p + m.v * t / 2 ^ 64 + m.a * t * t / 2 ^ 129 + jj * t * t * t / (6 * 2 ^ 192)
    v := m.v + m.a * t / 2 ^ 64 + jj * t * t / 2 ^ 129
    a := m.a + jj * t / 2 ^ 64 }

/-- The motion after a list of phases. -/
def Mot.run (m : Mot) (ps : List Phase) : Mot := ps.foldl (fun x ph => x.adv ph.jerk ph.dur) m

/-- The motion and the jerk at time `t` of a plan, and whether the plan has ended by then. -/
def Mot.at (m : Mot) : List Phase → Nat → Mot × Int × Bool
  | [], _ => (m, 0, true)
  | ph :: ps, t => if t < ph.dur then (m.adv ph.jerk t, ph.jerk, false) else (m.adv ph.jerk ph.dur).at ps (t - ph.dur)

/-- The limits of a plan in 2^-128. -/
structure Lim where
  v : Int
  a : Int
  j : Int
  jq : Int

/-- Limits from their Q32.32 values. -/
def Lim.of (v a j : Nat) : Lim := { v := v * 2 ^ 96, a := a * 2 ^ 96, j := j * 2 ^ 96, jq := j }

/-- `x / y` as a time in 2^-64 s, not below 0. -/
def quo (x y : Int) : Nat := (x * 2 ^ 64 / y).toNat

/-- The mirrored profile. -/
def mirror (ps : List Phase) : List Phase := ps.map fun ph => { ph with jerk := -ph.jerk }
/-- The mirrored motion. -/
def Mot.neg (m : Mot) : Mot := { p := -m.p, v := -m.v, a := -m.a }

/-- The stop that first lowers the acceleration, from a motion whose velocity with the acceleration released is not
negative: down to `-r`, hold, up to 0. -/
def downStop (l : Lim) (m : Mot) : List Phase :=
  let r := wsqrt (l.j * m.v + m.a * m.a / 2)
  if r ≤ l.a then [⟨quo (m.a + r) l.j, -l.jq⟩, ⟨quo r l.j, l.jq⟩]
  else
    [⟨quo (m.a + l.a) l.j, -l.jq⟩,
     ⟨((2 * l.j * m.v + m.a * m.a - 2 * l.a * l.a) * 2 ^ 64 / (2 * l.j * l.a)).toNat, 0⟩, ⟨quo l.a l.j, l.jq⟩]

/-- Twice the jerk times the velocity that releasing the acceleration leads to: its sign decides the stop. -/
def released (l : Lim) (m : Mot) : Int := 2 * l.j * m.v + m.a * m.a.natAbs

/-- The stop of least duration (R326). -/
def stopPhases (l : Lim) (m : Mot) : List Phase :=
  if 0 ≤ released l m then downStop l m else mirror (downStop l m.neg)

/-- Raising the acceleration for a time `u`, and holding it at the limit. -/
def upPhases (l : Lim) (m : Mot) (u : Nat) : List Phase :=
  let t := min u (quo (l.a - m.a) l.j)
  [⟨t, l.jq⟩, ⟨u - t, 0⟩]

/-- The profile that raises the acceleration for `u` and then stops. -/
def upStop (l : Lim) (m : Mot) (u : Nat) : List Phase :=
  let up := upPhases l m u
  up ++ downStop l (m.run up)

/-- The least `u` between `lo` and `hi`, to the last bit, whose profile reaches position `goal`. -/
def bisect (l : Lim) (m : Mot) (goal : Int) : Nat → Nat → Nat → Nat
  | 0, lo, _ => lo
  | n + 1, lo, hi =>
    let mid := (lo + hi) / 2
    if (m.run (upStop l m mid)).p < goal then bisect l m goal n mid hi else bisect l m goal n lo mid

/-- The move to rest at `goal`, which lies ahead of where the stop of least duration ends (R321). -/
def moveUp (l : Lim) (m : Mot) (goal : Int) : List Phase :=
  let stop := downStop l m.neg
  let u0 := if released l m < 0 then ((stop.take (stop.length - 1)).map (·.dur)).sum else 0
  let r := wsqrt (l.j * (l.v - m.v) + m.a * m.a / 2)
  let uV := if r ≤ l.a then quo (r - m.a) l.j
    else quo (l.a - m.a) l.j +
      ((2 * l.j * (l.v - m.v) + m.a * m.a - 2 * l.a * l.a) * 2 ^ 64 / (2 * l.j * l.a)).toNat
  let full := (m.run (upStop l m uV)).p
  if full ≤ goal then
    let up := upPhases l m uV
    let m1 := m.run up
    let rel : List Phase := [⟨quo m1.a l.j, -l.jq⟩]
    up ++ rel ++ [⟨quo (goal - full) l.v, 0⟩] ++ downStop l { p := 0, v := l.v, a := 0 }
  else upStop l m (bisect l m goal 192 u0 uV)

/-- Brings an acceleration or a velocity above its limit within it at full jerk (R321), for a motion whose excess is
positive. -/
def limitDown (l : Lim) (m : Mot) : List Phase :=
  if l.v < m.v || (0 < m.a && 2 * l.j * l.v < released l m) then
    let r := wsqrt (m.a * m.a + 2 * l.j * (m.v - l.v))
    if r ≤ l.a then [⟨quo (m.a + r) l.j, -l.jq⟩]
    else
      let ph : Phase := ⟨quo (m.a + l.a) l.j, -l.jq⟩
      [ph, ⟨quo ((m.adv ph.jerk ph.dur).v - l.v) l.a, 0⟩]
  else []

/-- The phase that brings an acceleration above its limit within it. -/
def accPhases (l : Lim) (m : Mot) : List Phase :=
  if l.a < m.a then [⟨quo (m.a - l.a) l.j, -l.jq⟩] else if m.a < -l.a then [⟨quo (-m.a - l.a) l.j, l.jq⟩] else []

/-- The phases that first bring the motion within its limits. -/
def limitPhases (l : Lim) (m : Mot) : List Phase :=
  let acc := accPhases l m
  let m1 := m.run acc
  acc ++ limitDown l m1 ++ mirror (limitDown l m1.neg)

/-- A motion from its Q32.32 state. -/
def Mot.of (p v a : Int) : Mot := { p := p * 2 ^ 96, v := v * 2 ^ 96, a := a * 2 ^ 96 }

/-- The plan of R321 from a motion to rest at the Q32.32 position `goal`. -/
def planMove (l : Lim) (m : Mot) (goal : Int) : List Phase :=
  let pre := limitPhases l m
  let m1 := m.run pre
  let g := goal * 2 ^ 96
  let stop := stopPhases l m1
  let d := (m1.run stop).p
  pre ++ (if d = g then stop
    else if d < g then moveUp l m1 g
    else mirror (moveUp l m1.neg (-g)))

/-- The plan of a conditioned stop (R326). -/
def planStop (l : Lim) (m : Mot) : List Phase :=
  let pre := accPhases l m
  pre ++ stopPhases l (m.run pre)

/-- Times within a phase at which the velocity is zero. -/
def stillTimes (m : Mot) (ph : Phase) : List Nat :=
  let jj := ph.jerk * 2 ^ 96
  let ts : List Int :=
    if jj = 0 then (if m.a = 0 then [] else [-m.v * 2 ^ 64 / m.a])
    else
      let d := m.a * m.a - 2 * jj * m.v
      if d < 0 then [] else [(-m.a - wsqrt d) * 2 ^ 64 / jj, (-m.a + wsqrt d) * 2 ^ 64 / jj]
  ts.filterMap fun (t : Int) => if 0 < t && t < ph.dur then some t.toNat else none

/-- The positions at which a plan's velocity is zero, and the velocities at its phase ends and turning points. -/
def planShape : Mot → List Phase → List Int × List Int
  | m, [] => ([m.p], [m.v])
  | m, ph :: ps =>
    let jj := ph.jerk * 2 ^ 96
    let turn := if jj = 0 then [] else
      let t : Int := -m.a * 2 ^ 64 / jj
      if 0 < t && t < ph.dur then [(m.adv ph.jerk t.toNat).v] else []
    let rest := planShape (m.adv ph.jerk ph.dur) ps
    (((stillTimes m ph).map fun t => (m.adv ph.jerk t).p) ++ rest.1, m.v :: turn ++ rest.2)

/-- A plan whose velocity changes sign (R323); velocities below half of the last bit of Q32.32 count as zero. -/
def planReverses (m : Mot) (ps : List Phase) : Bool :=
  let vs := (planShape m ps).2
  (vs.any fun v => 2 ^ 95 < v) && vs.any fun v => v < -(2 ^ 95)

/-- A plan that carries the axis through its target and back (R323), by more than 2^-24. -/
def planPasses (m : Mot) (ps : List Phase) (goal : Int) : Bool :=
  let g := goal * 2 ^ 96
  (planShape m ps).1.any fun p =>
    (m.p < g && g + 2 ^ 104 < p) || (g < m.p && p < g - 2 ^ 104)

/-- A 2^-128 quantity in Q32.32, rounded. -/
def q32 (x : Int) : Int := (x + 2 ^ 95) / 2 ^ 96

end Sys2Proof.Machine
end

