-- ==== Sys2Proof/Machine/Timing.lean ====
section
/-! DEFINITION. Bit timing and frame durations (R159 to R168). A function from a parameter number to its value for
one channel stands for a configuration, active or staged. Times are in sixteenths of a nanosecond, of which 25
make the engine's 1.5625 ns and 100 its 6.25 ns. -/
namespace Sys2Proof.Machine

/-- The timing, format and transceiver parameters of one channel, by parameter number. -/
abbrev ChanCfg := Nat → Nat

/-- The formats of an enumeration value of `chan[c].formats` (R157). -/
def hasCC (f : Nat) : Bool := f ≤ 3
/-- FD is declared. -/
def hasFD (f : Nat) : Bool := f = 1 || f = 3
/-- XL is declared. -/
def hasXL (f : Nat) : Bool := 2 ≤ f

/-- The declared formats include a frame kind (0 CC, 1 FD, 2 XL). -/
def declares (f kind : Nat) : Bool := if kind = 0 then hasCC f else if kind = 1 then hasFD f else hasXL f

/-- t_bitA. -/
def ChanCfg.bitA (g : ChanCfg) : Nat := (1 + g K.chanTseg1A + g K.chanTseg2A) * g K.chanBrpA * 100
/-- t_bitD; 0 without a data phase. -/
def ChanCfg.bitD (g : ChanCfg) : Nat := (1 + g K.chanTseg1D + g K.chanTseg2D) * g K.chanBrpD * 100

/-- The largest payload of the declared formats. -/
def maxPayload (f : Nat) : Nat := if hasXL f then 2048 else if hasFD f then 64 else 8

/-- Sixteenths of a nanosecond as the nearest whole nanosecond. -/
def ns16 (v : Nat) : Nat := (divRound v 16).toNat

/-- The conditions of R162. -/
def ChanCfg.timingOk (g : ChanCfg) : Bool :=
  let f := g K.chanFormats
  let data := hasFD f || hasXL f
  g K.chanSjwA ≤ g K.chanTseg2A && g K.chanSjwD ≤ g K.chanTseg2D &&
  16000 ≤ g.bitA && g.bitA ≤ 1600000 &&
  (!data || (g K.chanBrpD ≠ 0 && g.bitD ≤ g.bitA && 5 ≤ 1 + g K.chanTseg1D + g K.chanTseg2D)) &&
  (!hasFD f || 2000 ≤ g.bitD) && (!(hasXL f && !hasFD f) || 800 ≤ g.bitD) &&
  (!(g K.chanBrpD ≠ 0 && g.bitD < 2000) || g K.chanFast = 1) &&
  (g K.chanFast = 0 || (hasXL f && g K.chanXcvr = 2 && g K.chanXlErrSig = 1 &&
    16 * g K.chanModeSettle ≤ 2 * g.bitD)) &&
  g K.chanTdcMin < g K.chanTdcMax && g K.chanMaxLen ≤ maxPayload f

/-- Bits of a frame at the arbitration and at the data rate (Table 5.4). -/
def frameBits (kind : Nat) (xtd : Bool) (n : Nat) : Nat × Nat :=
  if kind = 0 then
    (if xtd then (67 + 8 * n + (53 + 8 * n) / 4, 0) else (47 + 8 * n + (33 + 8 * n) / 4, 0))
  else if kind = 1 then
    (if xtd then 57 else 34, 5 + 8 * n + (5 + 8 * n) / 4 + (if n ≤ 16 then 27 else 32))
  else (38, 116 + 8 * n + (108 + 8 * n) / 10)

/-- t_frame (R166): an FD frame without BRS runs at the arbitration rate throughout. -/
def ChanCfg.frameTime (g : ChanCfg) (kind : Nat) (xtd : Bool) (n : Nat) (brs : Bool) : Nat :=
  let b := frameBits kind xtd n
  if kind = 1 && !brs then (b.1 + b.2) * g.bitA else b.1 * g.bitA + b.2 * g.bitD

/-- t_frame_max (R167). -/
def ChanCfg.frameMax (g : ChanCfg) : Nat :=
  let f := g K.chanFormats
  let n := g K.chanMaxLen
  let cc := if hasCC f then g.frameTime 0 true (min n 8) false else 0
  let fd := if hasFD f then g.frameTime 1 true (min n 64) (g K.chanRateD ≠ 0) else 0
  let xl := if hasXL f then g.frameTime 2 false (min n 2048) true else 0
  max cc (max fd xl)

/-- By how much the planner lowers SJW of the arbitration phase at an offset of `off` quanta, so that it does not exceed
TSEG2 (R165, R429). -/
def ChanCfg.sjwCut (g : ChanCfg) (off : Int) : Nat := ((g K.chanSjwA : Int) - (g K.chanTseg2A - off)).toNat

/-- SP_A in per mille with a planner offset of `off` quanta, truncated. -/
def ChanCfg.spA (g : ChanCfg) (off : Int) : Nat :=
  (1000 * (1 + g K.chanTseg1A + off) / (1 + g K.chanTseg1A + g K.chanTseg2A : Nat)).toNat

/-- The SSP offset (R168) with a planner offset of `off` steps of 1.5625 ns. -/
def ChanCfg.sspOffset (g : ChanCfg) (off : Int) : Int :=
  25 * off + (if g K.chanTdcOffset = 0 then ((1 + g K.chanTseg1D) * g K.chanBrpD * 100 : Nat)
    else (25 * g K.chanTdcOffset : Nat))

/-- SP_D in per mille, or the SSP offset in per mille of t_bitD with compensation on (Table 5.14), truncated. -/
def ChanCfg.spD (g : ChanCfg) (off : Int) : Nat :=
  if g K.chanBrpD = 0 then 0
  else if g K.chanTdc = 1 then (1000 * g.sspOffset off / g.bitD).toNat
  else 1000 * (1 + g K.chanTseg1D) / (1 + g K.chanTseg1D + g K.chanTseg2D)

/-- The smallest FD payload length that holds `n` bytes (R160). -/
def fdLen (n : Nat) : Nat :=
  if n ≤ 8 then n else ([12, 16, 20, 24, 32, 48, 64].find? fun l => n ≤ l).getD 64

/-- The DLC of a payload of `n` bytes in a frame of kind `kind` (Table 5.2). -/
def dlcOf (kind n : Nat) : Nat :=
  if kind = 0 then min 8 n
  else if kind = 1 then
    (if n ≤ 8 then n
     else if n ≤ 12 then 9 else if n ≤ 16 then 10 else if n ≤ 20 then 11 else if n ≤ 24 then 12
     else if n ≤ 32 then 13 else if n ≤ 48 then 14 else 15)
  else n - 1

/-- The payload as it goes out (R160): FD padded with zeros to the next FD length, XL at least 1 byte. -/
def wirePayload (kind : Nat) (bs : List Byte) : List Byte :=
  if kind = 0 then bs.take 8
  else if kind = 1 then fit (fdLen (min 64 bs.length)) bs
  else if bs.isEmpty then zs 1 else bs.take 2048

/-- The active configuration of channel `c`. -/
def State.cfg (s : State) (c : Nat) : ChanCfg := fun num => s.par num c

end Sys2Proof.Machine
end

