-- ==== Sys2Proof/Machine/Objects.lean ====
section
/-! DEFINITION. Message objects, transmit requests and the start budget (R231 to R240, R412 to R415): the record of
an object, its payload buffers, its requests, and the items it yields. -/
namespace Sys2Proof.Machine

/-! ### Kinds and places -/

/-- `obj[c][o].dir`: 0 NONE, 1 RX, 2 TX_EVENT, 3 TX_SCHED (R231). -/
def State.objDir (s : State) (c o : Nat) : Nat := s.opar K.objDir c o
/-- Object `o` of channel `c` is a transmit object. -/
def State.objTx (s : State) (c o : Nat) : Bool := 2 ≤ s.objDir c o
/-- The channel whose engine serves channel `c`'s transmit objects: its twin once service has passed (R204). -/
def State.engineOf (s : State) (c : Nat) : Nat := if (s.chan c).err.byTwin then c + 1 else c
/-- The data core that serves channel `c`'s objects (R17, R204). -/
def State.coreOf (s : State) (c : Nat) : Nat := (s.chan (s.engineOf c)).core
/-- The channel that defines object `o` sent by engine `e`: a twin that serves its primary sends the primary's
transmit objects, whose numbers are not defined on the twin (R203). -/
def State.homeOf (s : State) (e o : Nat) : Nat := if (s.chan e).err.serving && s.objTx (e - 1) o then e - 1 else e

/-- The mode sends data frames (Table 5.8). -/
def ChMode.sends (m : ChMode) : Bool :=
  match m with
  | .normal | .loopInt | .loopExt => true
  | .restricted | .monitor => false

/-- Engine `e` takes part in arbitration: OPEN in a sending mode, integrated and not bus-off (R158, R174, R186). -/
def State.mayAttempt (s : State) (e : Nat) : Bool :=
  let ch := s.chan e
  ch.st = .opened && ch.mode.sends && ch.phase = .none && ch.err.causes.isEmpty &&
    (ch.err.st = .active || ch.err.st = .passive)

/-- Engine `e` may start frames: no new timing waits for the next bus idle either (R164). -/
def State.canSend (s : State) (e : Nat) : Bool := s.mayAttempt e && (s.chan e).timingDue.isNone

/-- The configuration the engine of channel `c` works under: the old timing until it has switched (R164). -/
def State.engCfg (s : State) (c : Nat) : ChanCfg := fun num => ((s.chan c).timingOld.lookup num).getD (s.par num c)

/-- The effective attempt mode is one-shot (R176, R194). -/
def State.oneshot (s : State) (c o : Nat) : Bool :=
  s.opar K.objOneshot c o = 1 || ((s.chan c).obj o).collOneshot

/-- A pending request is held: by the mode or SLEEP (R174), in LONE (R191) or by a TRAP (R374). -/
def State.objHeld (s : State) (c o : Nat) : Bool :=
  let e := s.chan (s.engineOf c)
  let x := (s.chan c).obj o
  x.pending && (x.trapHeld || e.st = .sleep || (e.st = .opened && !e.mode.sends) ||
    (e.err.lone && s.objDir c o = 2))

/-- The payload in the current buffer. -/
def Obj.payload (x : Obj) : List Byte := if x.cur then x.buf1 else x.buf0

/-- Bytes an object occupies in its channel's pool (R231). -/
def objBytes (dir size : Nat) : Nat :=
  if dir = 0 then 0 else if dir = 1 then 64 + upTo 32 size else 64 + 2 * upTo 32 size

/-! ### The record (Table 7.5) -/

/-- The status word of an object (Table 7.5). -/
def State.objStatus (s : State) (c o : Nat) : Nat :=
  let x := (s.chan c).obj o
  flag 0 x.new + flag 1 x.trunc + flag 2 x.overwrite + flag 3 x.empty + flag 4 x.pending + flag 5 (s.objHeld c o) +
    flag 6 (s.objTx c o && s.oneshot c o) + flag 7 x.oneshotFailed + flag 8 x.collide + flag 9 x.storeErr +
    flag 10 (s.objTx c o && (s.chan c).err.byTwin)

/-- A prefetch of this object still runs (R148, R237). -/
def State.prefetching (s : State) (x : Obj) : Bool := x.hold ≠ 0 && s.now < x.holdAt + 3600

/-- The 64-byte record of an object (Table 7.5). -/
def State.objRecord (s : State) (c o : Nat) : List Byte :=
  let x := (s.chan c).obj o
  let tx := s.objTx c o
  le 4 x.seq.toNat ++ le 2 x.len ++ le 2 x.origLen ++ le 4 (if tx then s.opar K.objId c o else x.id.toNat) ++
    le 2 x.dlc ++ le 1 (if tx && x.frames = 0 then s.opar K.objFormat c o else x.fmt.toNat) ++
    le 1 (if tx then flag 0 x.cur + 2 * (if s.prefetching x then x.hold else 0) else 0) ++ le 4 (s.objStatus c o) ++ le 4 x.overwrites.toNat ++
    le 8 x.time.toNat ++ le 8 x.coord.toNat ++ le 1 (if x.frames = 0 then s.opar K.objStampLc c o else x.stampLc) ++ le 1 x.lcState.toNat ++
    le 1 x.gen.toNat ++ [x.sdt, x.vcid] ++ zs 3 ++ le 4 x.af.toNat ++ le 4 x.frames.toNat ++ zs 8

/-- Objects of channel `c` whose record a change of state from `old` has altered without a write of its own, HELD,
SERVED_BY_TWIN or a configured field, take a bracket for it (R240). -/
def State.settleObjs (s old : State) (c : Nat) : State :=
  (List.range 128).foldl (fun t o =>
    let x := (s.chan c).obj o
    let y := (old.chan c).obj o
    if s.objDir c o ≠ 0 && x.seq = y.seq &&
        (s.objStatus c o ≠ old.objStatus c o ||
          [K.objId, K.objFormat, K.objStampLc].any fun k => s.opar k c o ≠ old.opar k c o && (k = K.objId || x.frames = 0))
    then t.modObj c o fun z => { z with seq := z.seq + 2 } else t) s
/-- The same for the objects that engine `e` serves or may serve. -/
def State.settle (s old : State) (e : Nat) : State := (s.settleObjs old e).settleObjs old (e - 1)

/-! ### Frames -/

/-- The number of a frame kind (Table 7.1). -/
def kindNat (k : FrameKind) : Nat :=
  match k with
  | .cc => 0 | .fd => 1 | .xl => 2

/-- The frame kind of a format byte (Table 7.1). -/
def kindOf (fmt : Nat) : FrameKind := if fmt % 4 = 0 then .cc else if fmt % 4 = 1 then .fd else .xl

/-- The format byte of a frame (Table 7.1). -/
def Frame.fmt (f : Frame) : Nat :=
  kindNat f.kind + flag 2 f.brs + flag 3 f.esi + flag 4 f.rtr + flag 5 f.sec

/-- The 2-bit state code of coordinate `n` in an lc_state byte (Table 2.6). -/
def lcCodeOf (b : Byte) (n : Nat) : Nat := b.toNat / 4 ^ n % 4

/-- The frame block of Table 7.7 for a frame stamped in coordinate `n`. -/
def frameBlock (f : Frame) (trunc : Bool) (n rule seq : Nat) : List Byte :=
  le 4 f.id.toNat ++ le 2 (if f.rtr then 0 else f.payload.length) ++ le 2 f.dlc ++ le 1 f.fmt ++
    le 1 (flag 0 trunc + flag 1 f.own + flag 2 f.arbLost + flag 3 f.stale + flag 4 f.loss) ++ [f.sdt, f.vcid] ++
    le 4 f.af.toNat ++ le 8 ((f.lcs[n]?).getD 0).toNat ++ le 1 (n + 4 * lcCodeOf f.lcState n) ++
    le 1 f.gen.toNat ++ le 2 rule ++ le 4 seq

/-- The frame that object `o` of channel `c` sends from engine `e` with a payload, before its stamps (R160, R235;
ESI from the transmitter's error state, Table 5.1). -/
def State.formFrame (s : State) (e c o : Nat) (payload : List Byte) : Frame :=
  let fmt := s.opar K.objFormat c o
  let k := kindOf fmt
  let rtr := k = .cc && bitOf fmt 4
  let bs := wirePayload (kindNat k) payload
  { id := BitVec.ofNat 32 (s.opar K.objId c o), kind := k, brs := k = .fd && bitOf fmt 2,
    esi := k = .fd && (s.chan e).err.st = .passive, rtr := rtr, sec := k = .xl && bitOf fmt 5, own := true,
    arbLost := false, stale := false, loss := false, dlc := dlcOf (kindNat k) bs.length,
    payload := if rtr then [] else bs,
    sdt := if k = .xl then BitVec.ofNat 8 (s.opar K.objXlSdt c o) else 0,
    vcid := if k = .xl then BitVec.ofNat 8 (s.opar K.objXlVcid c o) else 0,
    af := if k = .xl then BitVec.ofNat 32 (s.opar K.objXlAf c o) else 0, seq := 0, gen := 0, lcState := 0,
    time := 0, lcs := [] }

/-! ### The start budget (R412 to R415) -/

/-- A start-class action arrives (R412). -/
def State.enqueue (s : State) (c : Nat) (o : Option Nat) : State :=
  { s with budget := { s.budget with
      waiting := s.budget.waiting ++ [{ chan := c, obj := o, t0 := s.now, told := false }] } }

/-- Withdraws a waiting request (R415): no token is spent and it is counted. -/
def State.withdraw (s : State) (c : Nat) (o : Option Nat) : State :=
  if s.budget.waiting.any fun w => w.chan = c && w.obj = o then
    { s with budget := { s.budget with
        waiting := s.budget.waiting.filter fun w => !(w.chan = c && w.obj = o)
        withdrawn := s.budget.withdrawn + 1 } }
  else s

/-- The bus rank of an identifier (R238): the base part first, a base frame before an extended one, then the
object number. -/
def busKey (id o : Nat) : Nat :=
  (if id / 0x80000000 = 1 then (id % 0x20000000 / 0x40000) * 0x80000 + 0x40000 + id % 0x40000
   else (id % 0x800) * 0x80000) * 128 + o

/-! ### Requests (R235, R236) -/

/-- Adds one to send_ignored of channel `c`. -/
def State.sendIgnored (s : State) (c : Nat) : State :=
  s.modChan c fun ch => { ch with ring := { ch.ring with sendIgnored := ch.ring.sendIgnored + 1 } }

/-- A lane of the store lies in buffer `b` of object `o` of channel `c` (R231, log entry 26). -/
def laneInBuffer (c o : Nat) (b : Bool) (lane : Nat) : Bool :=
  Config.objBuffers + 0x10000 * c ≤ 8 * lane && 8 * lane < Config.objBuffers + 0x10000 * (c + 1) &&
    Config.bufferOf lane = 2 * o + flag 0 b

/-- The current buffer of an object cannot be read (Table 4.1). -/
def State.bufferBad (s : State) (c o : Nat) : Bool :=
  s.store.poison.any (laneInBuffer c o ((s.chan c).obj o).cur)

/-- A prefetch of an object finds its current buffer poisoned: the object reports a store error (Table 4.1). -/
def State.checkBuffer (s : State) (c o : Nat) : State :=
  if s.bufferBad c o then s.modObj c o fun x => { x with storeErr := true } else s

/-- A write of buffer `b` of an object clears its poisoned lanes (R120). -/
def State.healBuffer (s : State) (c o : Nat) (b : Bool) : State :=
  { s with store := { s.store with poison := s.store.poison.filter fun l => !laneInBuffer c o b l } }

/-- Pending event requests that the engine may attempt, of channel `c`. -/
def State.eventReqs (s : State) (c : Nat) : List Nat :=
  (s.chan c).objs.filterMap fun kv =>
    if s.objDir c kv.1 = 2 && kv.2.pending && !kv.2.waitToken && !kv.2.trapHeld && !kv.2.storeErr then some kv.1 else none

/-- The least element of a list under a key. -/
def minBy {α : Type} (key : α → Nat) (xs : List α) : Option α :=
  xs.foldl (fun b x => match b with
    | some y => if key x < key y then some x else some y
    | none => some x) none

/-- The pending event requests an engine may attempt, with the channels that define them: its own and those of the primary
it serves, which it attempts no more once the primary has passed its self-test (R210). -/
def State.reqsOf (s : State) (e : Nat) : List (Nat × Nat) :=
  (if (s.chan e).err.byTwin then [] else (s.eventReqs e).map fun o => (e, o)) ++
    (if (s.chan e).err.serving && (s.chan (e - 1)).passDue.isNone then (s.eventReqs (e - 1)).map fun o => (e - 1, o) else [])

/-- The highest-ranked pending event request an engine may attempt (R238), with the channel that defines it. -/
def State.topRequest (s : State) (e : Nat) : Option (Nat × Nat) :=
  minBy (fun co => busKey (s.opar K.objId co.1 co.2) co.2) (s.reqsOf e)

/-- The engine starts a prefetch of an object's current buffer (R237): hold names it for 3.6 µs at most. -/
def State.prefetch (s : State) (c o : Nat) : State :=
  s.modObj c o fun x => { x with hold := if x.cur then 2 else 1, holdAt := s.now }

/-- The event frame in the transmit buffer of engine `e` leaves it; `over` says that its request has ended. It may be on the
bus by then (DESIGN CHOICE, log entry 146). -/
def State.displace (s : State) (e : Nat) (ended : Bool) : State :=
  let ch := s.chan e
  match ch.txBuf with
  | some (.object o) =>
    if ch.bufSched then s
    else
      let c := s.homeOf e o
      let x := (s.chan c).obj o
      let d : Displaced :=
        { what := .object o, home := c, frame := ch.bufKept.getD (s.formFrame e c o x.payload)
          past := if ch.bufKept.isSome then [] else x.past.map fun tp => (tp.1, s.formFrame e c o tp.2)
          ended := ended || ch.bufKept.isSome, at_ := s.clk.time, last := s.now + (s.engCfg e).frameMax / 16 + 1 }
      s.modChan e fun y =>
        { y with
          txBuf := none, bufKept := none
          displaced := if y.txNow.isSome || !s.mayAttempt e then y.displaced
            else (y.displaced.filter fun z => s.now ≤ z.last) ++ [d] }
  | _ => s

/-- The transmit buffer takes the frame of the engine's highest-ranked pending event request, unless it holds a
scheduled frame for its target (R164). A request whose buffer cannot be read is passed over (Table 4.1). -/
def State.refillFrom (s : State) (e : Nat) : Nat → State
  | 0 => s
  | fuel + 1 =>
    let keep := (s.chan e).txBuf.isSome && ((s.chan e).bufSched || (s.chan e).bufKept.isSome)
    if keep || !s.canSend e || (s.chan e).err.lone then s
    else match s.topRequest e with
      | some (c, o) =>
        if hlt : o < 128 then
          let w : TxWhat := .object ⟨o, hlt⟩
          if (s.chan e).txBuf = some w then s
          else if s.bufferBad c o then (s.checkBuffer c o).refillFrom e fuel
          else ((s.displace e false).modChan e fun ch => { ch with txBuf := some w, bufSched := false }).prefetch c o
        else s
      | none => s.displace e false

/-- Refills the transmit buffer of engine `e`. -/
def State.refill (s : State) (e : Nat) : State := s.refillFrom e 257

/-- The transmit buffer of engine `e` holds the frame of object `o` of channel `c`. -/
def State.buffers (s : State) (e c o : Nat) : Bool :=
  match (s.chan e).txBuf with
  | some (.object b) => b.val = o && s.homeOf e o = c
  | _ => false

/-- The transmit buffer of engine `e` holds a frame of an object of channel `c`. -/
def State.bufferOwn (s : State) (e c : Nat) : Bool :=
  match (s.chan e).txBuf with
  | some (.object o) => s.homeOf e o = c
  | _ => false

/-- A request of an event object ends (R236): in success, in failure or by discard. -/
def State.endRequest (s : State) (c o : Nat) : State :=
  let e := s.engineOf c
  let t := if s.buffers e c o && (s.chan e).bufKept.isNone then s.displace e true else s
  t.modObj c o fun x => { x with pending := false, waitToken := false, trapHeld := false, past := [] }

/-- Discards a pending request without ONESHOT_FAIL (R110, R164, R202, R239): counted in send_ignored where
`count`, and in withdrawn if it waited under the start budget. -/
def State.discardRequest (s : State) (c o : Nat) (count : Bool) : State :=
  if ((s.chan c).obj o).pending then
    let t := (s.endRequest c o).withdraw c (some o)
    if count then t.sendIgnored c else t
  else s

/-- A fallback of Table 3.24 is in force on the objects of channel `c`. -/
def State.fallbackOn (s : State) (c : Nat) : Option Fallback := (s.part (s.chanOwner c)).fallback

/-- A TRAP holds the event requests of channel `c`, except those of a disable object (R374, R375): some source
whose TRAP scope covers the channel has not left FAULT. -/
def State.trapScope (s : State) (c : Nat) : Bool :=
  s.fc.recs.any fun kv => kv.2.traps && kv.2.st = .fault &&
    (if kv.1 < 0x20 then kv.1 = c
     else if (0x50 ≤ kv.1 && kv.1 ≤ 0x57) || (0x60 ≤ kv.1 && kv.1 ≤ 0x63) then
       (match (s.chan c).sched with
        | some d => d.kind = 1 && d.lc = kv.1 % 4
        | none => false)
     else if 0x80 ≤ kv.1 && kv.1 ≤ 0xFF then false
     else true)

/-- Object `o` of channel `c` is the disable object of some axis context. -/
def State.isDisable (s : State) (c o : Nat) : Bool :=
  (List.range 128).any fun a => s.par K.axChan a = c && s.par K.axDisableObj a = o

/-- A transmit request for object `o` of channel `c` (R235, R236): ignored and counted for a TX_SCHED or EMPTY object, and
on a retired channel whose service has not passed; else the request is pending. -/
def State.addRequest (s : State) (c o : Nat) : State :=
  let x := (s.chan c).obj o
  if s.objDir c o ≠ 2 || x.empty || ((s.chan c).st = .retired && !(s.chan c).err.byTwin) then s.sendIgnored c
  else if x.pending then s
  else
    let start := s.opar K.objStartClass c o = 1
    let t := s.modObj c o fun y =>
      { y with pending := true, oneshotFailed := false, once := s.oneshot c o, waitToken := start, tried := false,
               arbLost := false
               trapHeld := s.trapScope c && !s.isDisable c o }
    if start then t.enqueue c (some o) else t.refill (s.engineOf c)

/-- A host's request to send an event object (R236): a fallback ignores and counts it (Table 3.24). -/
def State.requestSend (s : State) (c o : Nat) : State :=
  if (s.fallbackOn c).isSome then s.sendIgnored c else s.addRequest c o

/-! ### Payloads (R235, R237) -/

/-- Writes a payload into the buffer that is not current and makes it current (R237). -/
def State.putPayload (s : State) (c o : Nat) (bs : List Byte) : State :=
  let was := (s.chan c).obj o
  let t := (s.healBuffer c o !was.cur).modObj c o fun x =>
    { x with
      seq := x.seq + 2
      storeErr := false
      len := bs.length
      origLen := bs.length
      buf0 := if x.cur then bs else x.buf0
      buf1 := if x.cur then x.buf1 else bs
      cur := !x.cur
      empty := false
      hold := if s.prefetching x then x.hold else 0
      silent := if (s.fallbackOn c).isSome then x.silent else false
      past := if x.pending || s.buffers (s.engineOf c) c o || (s.chan (s.engineOf c)).txNow.isSome then x.past ++ [(s.clk.time, x.payload)]
              else [] }
  if was.storeErr then t.refill (s.engineOf c) else t

/-- The host has supplied a new payload for an object: unless a fallback of the owner is in force, it is sent again
(R111). -/
def State.newPayload (s : State) (c o : Nat) : State :=
  if (s.fallbackOn c).isSome || !((s.chan c).obj o).silent then s
  else s.modObj c o fun x => { x with silent := false }

/-- The buffer a write needs is held by a prefetch (R237). -/
def State.bufferBusy (s : State) (x : Obj) : Bool :=
  s.prefetching x && x.hold = (if x.cur then 1 else 2)

/-- A payload write (R237): made at once, or kept, replacing an earlier kept one, until its buffer is free. -/
def State.writePayload (s : State) (c o : Nat) (bs : List Byte) : State :=
  if s.bufferBusy ((s.chan c).obj o) then s.modObj c o fun x => { x with deferred := some bs, empty := false }
  else (s.putPayload c o bs).modObj c o fun x => { x with deferred := none }

/-- Makes a kept payload write whose buffer is free (R237). -/
def State.writeDeferred (s : State) (c o : Nat) : State :=
  let x := (s.chan c).obj o
  match x.deferred with
  | some bs => if s.bufferBusy x then s else (s.putPayload c o bs).modObj c o fun y => { y with deferred := none }
  | none => s

/-- The payload an attempt that started at `sof` carries (R175): the first one replaced after `sof`, else the
current one. -/
def Obj.payloadAt (x : Obj) (sof : W64) : List Byte :=
  match x.past.find? fun tp => 0 < (tp.1 - sof).toInt with
  | some tp => tp.2
  | none => x.payload

/-! ### Items and updates -/

/-- An item of an object: OBJ_RX 0x0203 or TX_DONE 0x0206 (R234). -/
def State.objItem (s : State) (c o ty : Nat) (f : Frame) (trunc : Bool) (payload : List Byte) : OutItem :=
  { q := s.opar K.objDeliverQ c o, ty := ty, index := c * 128 + o, aux := f.time,
    payload := frameBlock f trunc (s.opar K.objStampLc c o) 0xFFFF ((s.chan c).obj o).seq.toNat ++ payload }

/-- A frame updates receive object `o` of channel `c` (R233) and writes an OBJ_RX item (R234). -/
def State.rxUpdate (s : State) (c o : Nat) (f : Frame) : State :=
  let size := s.opar K.objSize c o
  let n := s.opar K.objStampLc c o
  let bs := f.payload.take size
  let trunc := size < f.payload.length
  let exceeds := ((s.chan c).obj o).new
  let t := (s.healBuffer c o false).modObj c o fun x =>
    { x with
      seq := x.seq + 2, len := bs.length, origLen := f.payload.length, id := f.id, dlc := f.dlc,
      fmt := BitVec.ofNat 8 f.fmt, buf0 := bs, trunc := trunc, overwrite := x.overwrite || exceeds,
      overwrites := if exceeds then x.overwrites + 1 else x.overwrites, new := true, time := f.time,
      coord := (f.lcs[n]?).getD 0, lcState := BitVec.ofNat 8 (lcCodeOf f.lcState n), gen := f.gen,
      stampLc := n, sdt := f.sdt, vcid := f.vcid, af := f.af, frames := x.frames + 1 }
  let u := t.modChan c fun ch => { ch with ring := { ch.ring with
      trunc := if trunc then ch.ring.trunc + 1 else ch.ring.trunc
      overwrites := if exceeds then ch.ring.overwrites + 1 else ch.ring.overwrites } }
  u.emit (u.coreOf c) (u.objItem c o 0x0203 f trunc bs)

end Sys2Proof.Machine
end

