-- ==== Sys2Proof/Machine/AxisBase.lean ====
section
/-! DEFINITION. The signal image's records (R282, R283) and the states, flags, reactions and feedback supervision of
axis contexts (R316, R326 to R334). -/
namespace Sys2Proof.Machine

/-! ### The signal image -/

/-- A signal that has restarted (R288). -/
def SigRec.reset : SigRec :=
  { value := 0, time := 0, coord := 0, count := 0, valid := false, sat := false, stale := false, short := false,
    gen := 0, lcState := 0 }

/-- A group id that no active set holds (Table 9.3). -/
def GroupRt.reset : GroupRt := { seq := 0, stale := false, defined := false, time := 0, coord := 0 }

/-- The record of signal `id`. -/
def State.sigRec (s : State) (id : Nat) : SigRec := SMap.get SigRec.reset s.gw.recs id
/-- The sequence word of group `g`. -/
def State.groupRt (s : State) (g : Nat) : GroupRt := SMap.get GroupRt.reset s.gw.groups g
/-- Changes the record of signal `id`, whose lanes the gateway writes (R120). -/
def State.modSig (s : State) (id : Nat) (f : SigRec → SigRec) : State :=
  { s.refresh (Config.sigImage + 32 * id) 32 with gw := { s.gw with recs := SMap.mod SigRec.reset s.gw.recs id f } }
/-- Changes the sequence word of group `g`, whose lane the gateway writes (R120). -/
def State.modGroup (s : State) (g : Nat) (f : GroupRt → GroupRt) : State :=
  { s.refresh (Config.seqWords + 8 * g) 8 with gw := { s.gw with groups := SMap.mod GroupRt.reset s.gw.groups g f } }

/-! ### States and flags (R316, R337, R338) -/

/-- The code of an axis state (Table 10.7). -/
def AxState.code (x : AxState) : Nat :=
  match x with
  | .inactive => 0 | .track => 1 | .target => 2 | .stopping => 3 | .standstill => 4 | .held => 5

/-- Axis `a` is defined (R307). -/
def State.axDefined (s : State) (a : Nat) : Bool := s.par K.axChan a ≠ 0xFF

/-- Some defined context links signal `id` (R307). -/
def State.axLinked (s : State) (id : Nat) : Bool :=
  (List.range 128).any fun a => s.axDefined a && (s.par K.axSpSig a = id || s.par K.axVffSig a = id)

/-- A change of state, which sends AX_STATE (R316). -/
def State.axState (s : State) (a : Nat) (st : AxState) (reason : Nat) : State :=
  let old := (s.axis a).st
  let t := s.modAxis a fun x => { x with st := st, redefined := x.redefined && st = .inactive }
  if old = st then t
  else t.event (s.par K.axOwner a) 0x0601 a (le 1 old.code ++ le 1 st.code ++ le 1 reason)

/-- Sets sticky flags; those that were clear are told by AX_FLAG (R337, R338). -/
def State.axFlags (s : State) (a bits : Nat) : State :=
  let x := s.axis a
  let t := s.modAxis a fun y => { y with flags := y.flags ||| bits }
  (List.range 11).foldl (fun u i =>
    if bitOf bits i && !bitOf x.flags i then
      u.event (s.par K.axOwner a) 0x0603 a (le 2 (2 ^ i) ++ zs 6 ++ le 8 (tc 64 x.p))
    else u) t

/-- Sets or clears a current condition (Table 10.7). -/
def Axis.setCond (x : Axis) (i : Nat) (b : Bool) : Axis :=
  { x with cond := if b then x.cond ||| 2 ^ i else if bitOf x.cond i then x.cond - 2 ^ i else x.cond }

/-- The limits in force. -/
def Axis.lim (x : Axis) : Lim := Lim.of x.vMax x.aMax x.jMax

/-- The motion of the last evaluation. -/
def Axis.mot (x : Axis) : Mot := Mot.of x.p x.v x.a

/-- Plans to rest at `goal` from the present state (R321, R323). -/
def State.axPlan (s : State) (a : Nat) (goal : Int) : State :=
  let x := s.axis a
  let ps := planMove x.lim x.mot goal
  (s.modAxis a fun y =>
    ({ y with target := goal, plan := ps, planP := y.p, planV := y.v, planA := y.a, clock := 0 }).setCond 0
      false).axFlags a
    (flag 5 (planReverses x.mot ps) + flag 4 (planPasses x.mot ps goal))

/-- Plans a conditioned stop from the present state (R326). -/
def State.axPlanStop (s : State) (a : Nat) : State :=
  s.modAxis a fun y =>
    ({ y with plan := planStop y.lim y.mot, planP := y.p, planV := y.v, planA := y.a, clock := 0 }).setCond 0 false

/-- Starts a conditioned stop (R326): in STANDSTILL and INACTIVE it changes nothing; one that runs goes on. -/
def State.axStopNow (s : State) (a reason : Nat) : State :=
  match (s.axis a).st with
  | .inactive | .standstill | .stopping => s
  | .track | .target | .held => (s.axPlanStop a).axState a .stopping reason

/-- Enters TARGET with a target (R321). -/
def State.axTarget (s : State) (a : Nat) (goal : Int) (reason : Nat) : State :=
  (s.axPlan a goal).axState a .target reason

/-- Freezes the set-point (R332). -/
def State.axHold (s : State) (a reason : Nat) : State :=
  (s.modAxis a fun x => ({ x with v := 0, a := 0, plan := [] }).setCond 0 false).axState a .held reason

/-- The strongest reaction in force (R333, Table 10.7). -/
def Axis.inForce (x : Axis) : Nat := max x.reaction x.hbReact

/-- A feedback reaction (R331, R333), as a code of Table 10.7: a stronger one than any in force acts. -/
def State.axReact (s : State) (a r : Nat) : State :=
  let x := s.axis a
  let k := if r = 4 && s.par K.axDisableObj a = 0xFF then 3 else r
  let t := s.modAxis a fun y => { y with reaction := max y.reaction k }
  if x.st = .inactive || k ≤ x.inForce then t
  else if k = 2 then t.axHold a 3
  else if k = 3 then t.axStopNow a 3
  else if k = 4 then
    let u := t.axStopNow a 3
    u.modAxis a fun y => { y with disableDue := decide (y.st = .stopping) }
  else t

/-- The code of Table 10.7 of an `ax[a].fb_react` value (Table 10.4). -/
def reactCode (v : Nat) : Nat := if v = 0 then 0 else v + 1

/-- A feedback condition is detected (R330): 1 lost, 2 frozen, 3 implausible; `m` is the model value. It is detected while
it is not current, and, though still current from before an AX_START that cleared its count, where the count reaches its
limit (`reached`) anew. -/
def State.fbDetect (s : State) (a k : Nat) (m : Int) (reached : Bool) : State :=
  let x := s.axis a
  if bitOf x.cond (2 + k) && !reached then s
  else
    let p := s.par K.axOwner a
    let t := (s.modAxis a fun y => y.setCond (2 + k) true).axFlags a (2 ^ (7 + k))
    let t := (t.condOn (0x80 + a) k 0).raiseU (0x80 + a) k 1 a true p
    let t := t.axReact a (reactCode (s.par K.axFbReact a))
    let r := reactCode (s.par K.axFbReact a)
    let r := if r = 4 && s.par K.axDisableObj a = 0xFF then 3 else r
    t.event p 0x0602 a (le 1 k ++ le 1 r ++ zs 6 ++ le 8 (tc 64 x.pFb) ++ le 8 (tc 64 m))

/-- A feedback condition is no longer current (R330). -/
def State.fbEnd (s : State) (a k : Nat) : State :=
  if bitOf (s.axis a).cond (2 + k) then (s.modAxis a fun y => y.setCond (2 + k) false).condOff (0x80 + a) k 0 else s

/-- The model value at TIME `t` (R329): the polynomial of the last evaluation that does not lie after `t`. -/
def Axis.model (x : Axis) (t : W64) : Option Int :=
  match (x.evals.filter fun e => 0 ≤ (t - e.time).toInt).getLast? with
  | some e =>
    let h := (t - e.time).toInt
    some (rnd (e.p * 6000000000000000000000000000 + e.v * h * 6000000000000000000 + e.a * h * h * 3000000000 +
      e.j * h * h * h) 6000000000000000000000000000)
  | none => none

/-- An update of the feedback signal of a context (R327 to R330). The miss count follows at the check after the deadline. -/
def State.fbUpdate (s : State) (a : Nat) (r : SigRec) : State :=
  let x := s.axis a
  let pf := sat64 (r.value.toInt * 2 ^ (32 - s.par K.axIoFrac a))
  let t := (s.modAxis a fun y => { y with pFb := pf.1 }).axFlags a (flag 3 pf.2)
  let t := if pf.2 then t.raiseU (0x80 + a) 5 0 a false (s.par K.axOwner a) else t
  if !x.supervised then t.modAxis a fun y => { y with fbVal := r.value, fbSeen := true }
  else
    let t := t.fbEnd a 1
    let fz := if x.v.natAbs ≤ s.par K.axFbFreezeSpeed a then 0
      else if x.fbSeen && x.fbVal = r.value then x.freezes + 1 else 0
    let t := t.modAxis a fun y => { y with freezes := fz, fbVal := r.value, fbSeen := true }
    let m := x.model (r.time - BitVec.ofNat 64 (s.par K.axFbDelay a))
    let t := if s.par K.axFbFreeze a ≤ fz then t.fbDetect a 2 (m.getD (Config.lostModel a s.now)) (x.freezes < s.par K.axFbFreeze a) else t.fbEnd a 2
    match m with
    | none => t
    | some mv =>
      let dev := (pf.1 - mv).natAbs
      let n := if s.par K.axFbDev a < dev then x.devs + 1 else 0
      let t := t.modAxis a fun y =>
        { y with devs := n, devMax := max y.devMax (sat 0xFFFFFFFF ((dev + 0x8000) / 0x10000)) }
      if s.par K.axFbDevN a ≤ n then t.fbDetect a 3 mv (x.devs < s.par K.axFbDevN a) else if n = 0 then t.fbEnd a 3 else t

/-- An update of signal `id`: every context whose feedback it is (R307) takes it. -/
def State.fbNotify (s : State) (id : Nat) : State :=
  (List.range 128).foldl (fun t a =>
    if s.par K.axFbSig a = id && s.axDefined a && (s.axis a).st ≠ .inactive then t.fbUpdate a (t.sigRec id) else t) s

/-- The feedback deadline of an occurrence has passed (R327): `fb_lag` past it in the direction of motion, or in ns
for a TIME schedule. -/
def State.fbDue (s : State) (a : Nat) (d : Due) : Bool :=
  let lag := s.par K.axFbLag a
  if d.time then decide ((lag : Int) < (s.clk.time - d.at_).toInt)
  else match (s.chan (s.par K.axChan a)).sched with
  | some sc =>
    let e := (s.lcVal sc.lc - d.at_).toInt
    decide ((lag : Int) < (if d.back then -e else e))
  | none => true

/-- The feedback checks of one context whose deadlines have passed (R313 step 4, R327). -/
def State.fbCheck (s : State) (a : Nat) : State :=
  ((s.axis a).due.filter (s.fbDue a)).foldl (fun t d =>
    let cnt := (t.sigRec (t.par K.axFbSig a)).count
    let x := t.axis a
    let n := if cnt = x.fbCount then sat 255 (x.misses + 1) else 0
    let u := t.modAxis a fun y => { y with due := y.due.erase d, misses := n, fbCount := cnt }
    if s.par K.axFbMiss a ≤ n then u.fbDetect a 1 (Config.lostModel a s.now) (x.misses < s.par K.axFbMiss a) else u) s

/-- The frame of an occurrence of object `o` on channel `c` has started (R327): the feedback of its contexts falls due,
and their supervision begins. -/
def State.fbExpect (s : State) (c o : Nat) (d : Due) : State :=
  (List.range 128).foldl (fun t a =>
    if s.par K.axChan a = c && s.par K.axObj a = o && (s.axis a).st ≠ .inactive && s.par K.axFbSig a ≠ 0xFFFFFFFF then
      t.modAxis a fun y =>
        { y with due := y.due ++ [d],
                 fbCount := if y.supervised then y.fbCount else (s.sigRec (s.par K.axFbSig a)).count,
                 supervised := true }
    else t) s

/-! ### Heartbeat fallbacks (R110, R334) -/

/-- A heartbeat fallback acts on a context: STOP as a conditioned stop, HOLD as a move to the newest sample. -/
def State.axFallback (s : State) (a : Nat) (f : Fallback) : State :=
  let x := s.axis a
  let k := match f with
    | .hold => 1
    | .stop => 3
  if x.st = .inactive then s
  else
    let t := s.modAxis a fun y => { y with hbReact := max y.hbReact k, hbOver := false }
    if k ≤ x.inForce then t
    else match f with
      | .stop => t.axStopNow a 4
      | .hold =>
        if x.st = .track then
          t.axTarget a (match x.samples.getLast? with
            | some e => e.2
            | none => Config.emptyDemand a s.now) 4
        else t

/-- The conditioned stops, samples and motion survive; a valid heartbeat write lets the next AX_CMD end the
fallback (R111, R334). -/
def State.axFallbackOver (s : State) (p : Nat) : State :=
  (List.range 128).foldl (fun t a =>
    if s.par K.axOwner a = p && (s.axis a).hbReact ≠ 0 then t.modAxis a fun y => { y with hbOver := true } else t) s

end Sys2Proof.Machine
end

