-- ==== Sys2Proof/Machine/Staging.lean ====
section
/-! DEFINITION. Staged configuration (R102, R469): what a partition has staged, which resources it touches, and the
views that quotas and reads take of staged and active copies. -/
namespace Sys2Proof.Machine

/-- Channel `c` is RETIRED: a command other than CHAN_STATUS that names it returns RETIRED (R154). -/
def State.retired (s : State) (c : Nat) : Bool := (s.chan c).st = .retired

/-- The resource that a key id names, as a key of the grant maps. -/
def keyRes (key : Nat) : Nat :=
  match pDesc (key / 0x100000) with
  | some d => resKey d.res (key % 0x100000)
  | none => 0

/-- The staged copy touches a resource. -/
def Stage.touches (g : Stage) (k : Nat) : Bool :=
  (g.params.any fun kv => keyRes kv.1 = k) || (g.rules.any fun x => 0x10000 + x.1 = k) ||
    (g.scheds.any fun x => 0x10000 + x.1 = k) || g.sigs.any fun x => 0x10000 + x.1 = k

/-- Staging on resource `k` by partition `p` is BUSY (R102): a pending commit covers it, or another partition holds
staged configuration on it. -/
def State.stageBusy (s : State) (p k : Nat) : Bool :=
  (s.commits.any fun c => c.stage.touches k) ||
    (List.range 8).any fun q => q ≠ p && (s.stage q).touches k

/-- All staged copies: what the partitions hold, then the pending commits. -/
def State.copies (s : State) : List Stage := s.stages.toList ++ s.commits.map (·.stage)

/-- The staged rule list of channel `c`, if one is staged. -/
def State.stagedRules (s : State) (c : Nat) : Option RuleList := s.copies.findSome? fun g => g.rules.lookup c
/-- The staged schedule of channel `c`, if one, or its removal, is staged. -/
def State.stagedSched (s : State) (c : Nat) : Option (Option Sched) := s.copies.findSome? fun g => g.scheds.lookup c
/-- The staged signal set of channel `c`, if one is staged. -/
def State.stagedSigs (s : State) (c : Nat) : Option SigSet := s.copies.findSome? fun g => g.sigs.lookup c
/-- The staged value of a key, if one is staged. -/
def State.stagedPar (s : State) (num inst : Nat) : Option Nat :=
  s.copies.findSome? fun g => SMap.find? g.params (keyId num inst)

/-- The value a key would have once everything staged is active. -/
def State.nextPar (s : State) (num inst : Nat) : Nat := (s.stagedPar num inst).getD (s.par num inst)

/-! ### The two configuration copies (R125, Table 9.8) -/

/-- A configuration table, by kind and resource key: rule list, schedule, signal set, or parameters. -/
def tableKey (kind res : Nat) : Nat := kind * 0x100000 + res

/-- The tables that a staged copy replaces. -/
def Stage.tables (g : Stage) : List Nat :=
  ((g.rules.map fun x => tableKey 0 (0x10000 + x.1)) ++ (g.scheds.map fun x => tableKey 1 (0x10000 + x.1)) ++
    (g.sigs.map fun x => tableKey 2 (0x10000 + x.1)) ++ g.params.map fun kv => tableKey 3 (keyRes kv.1)).eraseDups

/-- What a lane of a configuration copy holds: the copy (0 A, 1 B), the kind of entry (0 none, 1 rule, 2 slot, 3 section,
4 signal descriptor, 5 group descriptor, 6 scaling entry, 7 axis context), its channel or axis and its index or id. The
schedule area comes first (R252), the signal area stands where Table 9.8 puts it, and the rest holds rules and contexts
(log entry 27). -/
def confLane (lane n : Nat) : Nat × Nat × Nat × Nat :=
  let copy := (8 * lane - Config.confCopies) / 0x500000
  let o := (8 * lane - Config.confCopies) % 0x500000
  let e := Config.entryOf lane n
  let free := fun (ks : List Nat) => (copy, if ks.contains e.1 then e.1 else 0, e.2.1, e.2.2)
  if o < 0x88000 then free [2, 3]
  else if 0x188000 ≤ o && o < 0x388000 then (copy, 4, 0, (o - 0x188000) / 8)
  else if 0x388010 ≤ o && o < 0x3C8000 then (copy, 6, e.2.1, e.2.2)
  else if 0x3C8000 ≤ o && o < 0x4C8000 then (copy, 5, 0, (o - 0x3C8000) / 16)
  else if 0x388000 ≤ o && o < 0x388010 then (copy, 0, 0, 0)
  else free [1, 7]

/-- A lane lies in a configuration copy. -/
def confRegion (lane : Nat) : Bool := Config.confCopies ≤ 8 * lane && 8 * lane < Config.pool

/-- The channel whose active signal set holds signal or group `i`. -/
def State.sigChan (s : State) (group : Bool) (i : Nat) : Option Nat :=
  (List.range 32).find? fun c =>
    if group then (s.chan c).sigs.groups.any fun x => x.id = i else (s.chan c).sigs.sigs.any fun x => x.1 = i

/-- The table that an entry of `confLane` belongs to. -/
def State.tableOf (s : State) (e : Nat × Nat × Nat × Nat) : Option Nat :=
  match e.2.1 with
  | 1 => some (tableKey 0 (0x10000 + e.2.2.1 % 32))
  | 2 | 3 => some (tableKey 1 (0x10000 + e.2.2.1 % 32))
  | 4 => (s.sigChan false e.2.2.2).map fun c => tableKey 2 (0x10000 + c)
  | 5 => (s.sigChan true e.2.2.2).map fun c => tableKey 2 (0x10000 + c)
  | 6 => some (tableKey 2 (0x10000 + e.2.2.1 % 32))
  | 7 => some (tableKey 3 (0x20000 + e.2.2.1 % 128))
  | _ => none

/-- The copy that holds the active content of a table: 0 A, 1 B. -/
def State.activeCopy (s : State) (table : Nat) : Nat := SMap.get 0 s.store.roles table

/-- The lanes of some tables in the copies that hold their staged content are written anew: none stays poisoned (R120,
R125). -/
def State.rewriteStaged (s : State) (tables : List Nat) : State :=
  { s with store := { s.store with poison := s.store.poison.filter fun l =>
      let e := confLane l s.dev.nextCommit
      !(confRegion l && match s.tableOf e with
        | some k => tables.contains k && s.activeCopy k ≠ e.1
        | none => false) } }

/-- Partition `p`'s staged configuration becomes `f` of what it was: the control core copies the active content of the
tables it touches into their staged copies and writes there (R125). -/
def State.restage (s : State) (p : Nat) (f : Stage → Stage) : State :=
  (s.modStage p f).rewriteStaged (f (s.stage p)).tables

/-- The roles of the two copies of some tables are exchanged (R125). -/
def State.swapRoles (s : State) (tables : List Nat) : State :=
  { s with store := { s.store with roles := tables.foldl (fun m k => SMap.mod 0 m k (1 - ·)) s.store.roles } }

/-- Replaces the entry of a channel in an association list. -/
def putAssoc {α : Type} (m : List (Nat × α)) (c : Nat) (v : α) : List (Nat × α) :=
  SMap.put m c v

/-- Stages a parameter value; a group member written directly makes its preset CUSTOM (R31, R163). -/
def Stage.setPar (g : Stage) (num inst v : Nat) : Stage :=
  let ps := SMap.put g.params (keyId num inst) v
  let custom :=
    if K.chanBrpA ≤ num && num ≤ K.chanSjwA then SMap.put ps (keyId K.chanRateA inst) 0xFF
    else if K.chanBrpD ≤ num && num ≤ K.chanSjwD then SMap.put ps (keyId K.chanRateD inst) 0xFF
    else ps
  { g with params := custom }

/-- The values of a preset's group (Table 5.3): brp, tseg1, tseg2, sjw. -/
def presetValues (num v : Nat) : List Nat :=
  if num = K.chanRateA then [([8, 4, 2, 1][v]?).getD 1, 127, 32, 32]
  else
    match v with
    | 1 => [1, 59, 20, 20] | 2 => [1, 29, 10, 10] | 3 => [1, 23, 8, 8] | 4 => [1, 14, 5, 5]
    | 5 => [1, 11, 4, 4] | 6 => [1, 5, 2, 2] | _ => [0, 14, 5, 5]

/-- Stages one value of a PARAM_SET or of a command: a preset sets its whole group (R31). -/
def Stage.write (g : Stage) (num inst v : Nat) : Stage :=
  if num = K.chanRateA || num = K.chanRateD then
    let first := if num = K.chanRateA then K.chanBrpA else K.chanBrpD
    let ps := ((presetValues num v).zipIdx).foldl (fun m x => SMap.put m (keyId (first + x.2) inst) x.1) g.params
    { g with params := SMap.put ps (keyId num inst) v }
  else g.setPar num inst v

/-- The configuration of channel `c` that a staged copy would make active. -/
def State.viewOf (s : State) (g : Stage) : Nat → Nat → Nat := fun num inst =>
  (SMap.find? g.params (keyId num inst)).getD (s.par num inst)

/-- Rule entries of a list: a rule with an extension occupies two (R220). -/
def RuleList.entries (l : RuleList) : Nat := (l.rules.map fun x => if x.ext.isSome then 2 else 1).sum

/-- Rule use of partition `p` (R220), with the list of channel `c0` replaced. -/
def State.ruleUse (s : State) (p : Option Nat) (c0 : Nat) (l0 : Option RuleList) : Nat :=
  ((List.range 32).map fun c =>
    if p.isSome && p ≠ some (s.chanOwner c) then 0
    else
      let l := if c = c0 && l0.isSome then l0 else s.stagedRules c
      (l.getD (s.chan c).rules).entries).sum

/-- Slots of a schedule. -/
def slotCount (d : Option Sched) : Nat :=
  match d with
  | some x => x.slots.length
  | none => 0

/-- Slot use of partition `p`, or of all (R252), with some schedules replaced. -/
def State.slotUse (s : State) (p : Option Nat) (new : List (Nat × Option Sched)) : Nat :=
  ((List.range 32).map fun c =>
    if p.isSome && p ≠ some (s.chanOwner c) then 0
    else match new.lookup c with
      | some d => slotCount d
      | none => slotCount ((s.stagedSched c).getD (s.chan c).sched)).sum

/-- Signals, groups and scaling entries of a set. -/
def SigSet.sizes (x : SigSet) : Nat × Nat × Nat := (x.sigs.length, x.groups.length, x.scales.length)

/-- Signal, group and scaling use of partition `p`, or of all (R286), with some sets replaced. -/
def State.sigUse (s : State) (p : Option Nat) (new : List (Nat × SigSet)) : Nat × Nat × Nat :=
  (List.range 32).foldl (fun a c =>
    if p.isSome && p ≠ some (s.chanOwner c) then a
    else
      let z := (match new.lookup c with
        | some x => x
        | none => (s.stagedSigs c).getD (s.chan c).sigs).sizes
      (a.1 + z.1, a.2.1 + z.2.1, a.2.2 + z.2.2)) (0, 0, 0)

/-- Discards all staged configuration on a resource, whoever staged it (R97 step 1). -/
def Stage.dropRes (g : Stage) (k : Nat) : Stage :=
  { params := g.params.filter fun kv => keyRes kv.1 ≠ k
    rules := g.rules.filter fun x => 0x10000 + x.1 ≠ k
    scheds := g.scheds.filter fun x => 0x10000 + x.1 ≠ k
    sigs := g.sigs.filter fun x => 0x10000 + x.1 ≠ k }

/-- A pending commit covers resource `k`. -/
def State.covered (s : State) (k : Nat) : Bool := s.commits.any fun c => c.stage.touches k

/-- The class code of RIGHTS_GRANT of a resource class (Table 3.27). -/
def PRes.classCode (c : PRes) : Nat :=
  match c with
  | .dev => 0 | .chan | .obj => 1 | .axis => 2 | .queue => 3 | .lc => 4 | .latch => 5 | .sync => 6 | .time => 7

/-- The owner key of a resource class (R96). -/
def PRes.ownerKey (c : PRes) : Nat :=
  match c with
  | .dev => K.timeOwner
  | .chan | .obj => K.chanOwner
  | .axis => K.axOwner
  | .queue => K.qOwner
  | .lc => K.lcOwner
  | .latch => K.latOwner
  | .sync => K.syncOwner
  | .time => K.timeOwner

/-- Queue selectors of queue `q` become OFF at a change of its owner (R80; what else they read then is the model's choice,
log entry 137). -/
def State.dropSelectors (s : State) (q : Nat) : State :=
  (List.range 8).foldl (fun t p => t.modPart p fun x =>
    { x with aps := x.aps.map fun v => if v.toNat % 16 = 1 && v.toNat / 16 % 64 = q then 0 else v }) s

/-- A change of owner (R97): staged configuration on the resource is discarded, its grants are cleared with a
RIGHTS_CHANGED event to each partition that loses one, and both owners receive OWNER_CHANGED. A write of the
present owner changes nothing. -/
def State.changeOwner (s : State) (r : PRes) (i new : Nat) : State :=
  let old := s.ownerOf r i
  if old = new then s
  else
    let k := resKey r i
    let bits := SMap.get 0 s.expert k
    let t := { s with
      stages := s.stages.map (fun g : Stage => g.dropRes k)
      expert := SMap.erase s.expert k
      revoked := SMap.erase s.revoked k }
    let t := t.setPar r.ownerKey i new
    let t := if r = .queue then t.dropSelectors i else t
    let t := (List.range 8).foldl (fun u p =>
      if bitOf bits p then u.event p 0x0008 i (le 1 r.classCode ++ le 1 p ++ le 1 0) else u) t
    let pay := le 1 r.classCode ++ le 1 old ++ le 1 new
    (t.event old 0x0007 i pay).event new 0x0007 i pay

end Sys2Proof.Machine
end

