-- ==== Sys2Proof/Machine/Signals.lean ====
section
/-! DEFINITION. The signal gateway (R281 to R306): bit positions, conversions, the signal map and its checks, unpack,
pack, staleness, the restart at a switch, and the commands 0x0500 to 0x0503. -/
namespace Sys2Proof.Machine

/-! ### Bit positions (R289) -/

/-- The BIG walk from the most significant bit down: `n` positions from `p`. -/
def bigRun : Nat → Nat → List Nat
  | 0, _ => []
  | n + 1, p => p :: bigRun n (if p % 8 ≠ 0 then p - 1 else p + 15)

/-- The descriptor is BIG. -/
def Sig.big (d : Sig) : Bool := bitOf d.form 0
/-- The encoding of a descriptor: 0 UINT, 1 SINT, 2 F32, 3 F64. -/
def Sig.enc (d : Sig) : Nat := d.form / 2 % 4
/-- The signal is written by an axis context. -/
def Sig.isAxis (d : Sig) : Bool := bitOf d.form 3

/-- The payload bits of a signal, least significant first: `pos(d, 0)` to `pos(d, len - 1)`. -/
def Sig.positions (d : Sig) : List Nat :=
  if d.big then (bigRun d.len d.offset).reverse else (List.range d.len).map (d.offset + ·)

/-- The extent of a signal in bytes: the byte of its last bit in the payload, plus 1. -/
def Sig.extent (d : Sig) : Nat :=
  (if d.big then d.positions.headD 0 else d.offset + d.len - 1) / 8 + 1

/-- Bit `p` of a payload. -/
def payBit (bs : List Byte) (p : Nat) : Bool := bitOf ((bs[p / 8]?).getD 0).toNat (p % 8)

/-- The number whose bits lie at the listed positions, least significant first. -/
def extractBits (bs : List Byte) : List Nat → Nat
  | [] => 0
  | p :: ps => flag 0 (payBit bs p) + 2 * extractBits bs ps

/-- Gives payload bit `p` a value. -/
def putBit (bs : List Byte) (p : Nat) (b : Bool) : List Byte :=
  bs.modify (p / 8) fun x =>
    if b then x ||| BitVec.ofNat 8 (2 ^ (p % 8)) else x &&& ~~~(BitVec.ofNat 8 (2 ^ (p % 8)))

/-- Writes the bits of `v` at the listed positions, least significant first. -/
def insertBits (bs : List Byte) (v : Nat) : List Nat → List Byte
  | [] => bs
  | p :: ps => insertBits (putBit bs p (v % 2 = 1)) (v / 2) ps

/-! ### Conversions (R291, R292) -/

/-- The scaling of R291. -/
def Scale.apply (e : Scale) (x : Int) : Int :=
  let y := x * e.mul
  (if 0 < e.shift then (y + 2 ^ (e.shift - 1)) / 2 ^ e.shift else y) + e.offset

/-- Saturates to a range; the flag says that it had to. -/
def satInt (lo hi x : Int) : Int × Bool := if x < lo then (lo, true) else if hi < x then (hi, true) else (x, false)

/-- A binary32 pattern as binary64 (R292); the payload of a NaN keeps its place and the NaN is quiet. -/
def f32to64 (w : Nat) : Nat :=
  let sign := w / 0x80000000 * 0x8000000000000000
  let e := w / 0x800000 % 256
  let f := w % 0x800000
  sign +
    (if e = 255 then 0x7FF * 2 ^ 52 + (if f = 0 then 0 else (f * 2 ^ 29) ||| 2 ^ 51)
     else if e ≠ 0 then (e + 896) * 2 ^ 52 + f * 2 ^ 29
     else if f = 0 then 0
     else (f.log2 + 874) * 2 ^ 52 + (f - 2 ^ f.log2) * 2 ^ (52 - f.log2))

/-- A binary64 pattern rounded to binary32, ties to even; a finite value beyond the range becomes the largest
finite value of its sign, with the SAT flag (R292). -/
def f64to32 (w : Nat) : Nat × Bool :=
  let sign := w / 0x8000000000000000 % 2 * 0x80000000
  let e := w / 2 ^ 52 % 2048
  let f := w % 2 ^ 52
  if e = 2047 then
    (sign + 0x7F800000 + (if f = 0 then 0 else 0x400000 + Config.nanPayload w % 0x400000), false)
  else
    let m := if e = 0 then f else 2 ^ 52 + f
    let ex : Int := (max e 1 : Nat) - 1075
    let u : Int := max (-149) (ex + m.log2 - 23)
    let sh := (u - ex).toNat
    let q := m / 2 ^ sh
    let r := m % 2 ^ sh
    let n := if 2 ^ sh < 2 * r || (2 * r = 2 ^ sh && q % 2 = 1) then q + 1 else q
    if 104 < u || (u = 104 && q = 0xFFFFFF && r ≠ 0) then (sign + 0x7F7FFFFF, true)
    else (sign + (u + 149).toNat * 0x800000 + n, false)

/-- The scaling entry of a descriptor. -/
def SigSet.scaleOf (x : SigSet) (d : Sig) : Option Scale := if d.scale = 0 then none else x.scales.lookup d.scale

/-- A raw field as an image value, with SAT. -/
def rxConvert (x : SigSet) (d : Sig) (raw : Nat) : W64 × Bool :=
  if d.enc = 2 then (BitVec.ofNat 64 (f32to64 raw), false)
  else if d.enc = 3 then (BitVec.ofNat 64 raw, false)
  else
    let v : Int := if d.enc = 1 then sgn d.len raw else raw
    match x.scaleOf d with
    | none => (BitVec.ofInt 64 v, false)
    | some e =>
      let y := satInt (-(2 ^ 63)) (2 ^ 63 - 1) (e.apply v)
      (BitVec.ofInt 64 y.1, y.2)

/-- An image value as a raw field, with SAT. -/
def txConvert (x : SigSet) (d : Sig) (val : W64) : Nat × Bool :=
  if d.enc = 2 then f64to32 val.toNat
  else if d.enc = 3 then (val.toNat, false)
  else
    let sc := x.scaleOf d
    let v : Int := if d.enc = 0 && sc.isNone then val.toNat else val.toInt
    let y := match sc with
      | none => v
      | some e => e.apply v
    let z := if d.enc = 0 then satInt 0 (2 ^ d.len - 1) y
      else satInt (-(2 ^ (d.len - 1))) (2 ^ (d.len - 1) - 1) y
    (tc d.len z.1, z.2)

/-! ### Groups, records and the image -/

/-- A TX group. -/
def Group.tx (g : Group) : Bool := bitOf g.flags 0
/-- The stamp coordinate of a group. -/
def Group.stamp (g : Group) : Nat := g.flags / 2 % 4
/-- A signal id lies in the group's run. -/
def Group.has (g : Group) (id : Nat) : Bool := g.first ≤ id && id < g.first + g.count

/-- The signals of a group with their descriptors. -/
def SigSet.members (x : SigSet) (g : Group) : List (Nat × Sig) := x.sigs.filter fun s => g.has s.1

/-- Changes the gateway counts of channel `c`. -/
def State.modSigStat (s : State) (c : Nat) (f : SigStat → SigStat) : State :=
  s.modChan c fun ch => { ch with sigStat := f ch.sigStat }

/-- The 32 bytes of a signal record (Table 9.2). -/
def SigRec.bytes (x : SigRec) : List Byte :=
  le 8 x.value.toNat ++ le 8 x.time.toNat ++ le 8 x.coord.toNat ++ le 4 x.count.toNat ++
    le 1 (flag 0 x.valid + flag 1 x.sat + flag 2 x.stale + flag 3 x.short) ++ [x.gen, x.lcState, 0]

/-- The 8 bytes of a sequence word (Table 9.3). -/
def GroupRt.bytes (x : GroupRt) : List Byte := le 4 x.seq.toNat ++ le 1 (flag 0 x.stale + flag 1 x.defined) ++ zs 3

/-- The byte of the signal image at a window offset (Table 9.1). -/
def State.imageByte (s : State) (off : Nat) : Byte :=
  if off < 0x800000 then ((s.sigRec (off / 32)).bytes[off % 32]?).getD 0
  else if off < 0x880000 then ((s.groupRt ((off - 0x800000) / 8)).bytes[off % 8]?).getD 0
  else 0

/-- The active group and descriptor of a signal id, with its channel. -/
def State.sigOf (s : State) (id : Nat) : Option (Nat × Group × Sig) :=
  (List.range 32).findSome? fun c =>
    let x := (s.chan c).sigs
    match x.groups.find? (·.has id), x.sigs.lookup id with
    | some g, some d => some (c, g, d)
    | _, _ => none

/-- Writes the SIG_UPDATE item of a group that has a delivery queue (R300). -/
def State.sigUpdate (s : State) (c : Nat) (g : Group) (aux : W64) : State :=
  if g.deliverQ = 0xFF then s
  else s.emit (s.coreOf c)
    { q := g.deliverQ, ty := 0x0502, index := g.id, aux := aux,
      payload := ((List.range g.count).map fun i => (s.sigRec (g.first + i)).bytes).flatten }

/-! ### Unpack (R290) -/

/-- One signal of a group updated from a frame. -/
def State.unpackSig (s : State) (c : Nat) (x : SigSet) (g : Group) (f : Frame) (d : Nat × Sig) : State :=
  let bs := if f.rtr then [] else f.payload
  if bs.length < d.2.extent then
    (s.modSig d.1 fun r => { r with short := true }).modSigStat c fun t => { t with short := t.short + 1 }
  else
    let v := rxConvert x d.2 (extractBits bs d.2.positions)
    let n := g.stamp
    ((s.modSig d.1 fun r =>
      { r with value := v.1, time := f.time, coord := (f.lcs[n]?).getD 0, gen := f.gen,
               lcState := BitVec.ofNat 8 (lcCodeOf f.lcState n + 4 * n), count := r.count + 1, valid := true,
               sat := v.2, short := false, stale := false }).modSigStat c fun t =>
      { t with rxUpdates := t.rxUpdates + 1, sat := if v.2 then t.sat + 1 else t.sat }).fbNotify d.1

/-- One RX group updated from a frame, under one bracket. -/
def State.unpackGroup (s : State) (c : Nat) (x : SigSet) (f : Frame) (g : Group) : State :=
  let t := (x.members g).foldl (fun u d => u.unpackSig c x g f d) s
  (t.modGroup g.id fun r =>
    { r with seq := r.seq + 2, stale := false, time := f.time, coord := (f.lcs[g.stamp]?).getD 0 }).sigUpdate c g
    f.time

/-- Unpacks a frame with a selector: every RX group of the channel and selector, in ascending group id. -/
def State.unpack (s : State) (c sel : Nat) (f : Frame) : State :=
  let x := (s.chan c).sigs
  (x.groups.filter fun g => !g.tx && g.key = sel).foldl (fun u g => u.unpackGroup c x f g) s

/-! ### Pack (R295) -/

/-- The TX groups of an object, in ascending group id. -/
def SigSet.txGroups (x : SigSet) (o : Nat) : List Group := x.groups.filter fun g => g.tx && g.key % 128 = o

/-- Packs one signal into a payload: an AXIS signal that no context links is never packed (R308). -/
def State.packSig (s : State) (c : Nat) (x : SigSet) (bs : List Byte) (d : Nat × Sig) : State × List Byte :=
  let r := s.sigRec d.1
  if r.valid && (!d.2.isAxis || s.axLinked d.1) then
    let v := txConvert x d.2 r.value
    ((s.modSig d.1 fun y => { y with sat := v.2 }).modSigStat c
        fun t => { t with sat := if v.2 then t.sat + 1 else t.sat },
      insertBits bs v.1 d.2.positions)
  else (s, bs)

/-- Packs one group, under one bracket. -/
def State.packGroup (s : State) (c : Nat) (x : SigSet) (bs : List Byte) (g : Group) : State × List Byte :=
  let t := (x.members g).foldl (fun (a : State × List Byte) d => a.1.packSig c x a.2 d) (s, bs)
  (t.1.modGroup g.id fun r => { r with seq := r.seq + 2 }, t.2)

/-- Packs the TX groups of an object into its payload (R295). -/
def State.packObj (s : State) (c o : Nat) : State :=
  let x := (s.chan c).sigs
  let gs := x.txGroups o
  if gs.isEmpty then s
  else
    let ob := (s.chan c).obj o
    let cur := ob.deferred.getD (if ob.empty then [] else ob.payload)
    let n := gs.foldl (fun m g => max m g.frameLen) 0
    let bs := cur ++ zs (n - cur.length)
    let t := gs.foldl (fun (a : State × List Byte) g => a.1.packGroup c x a.2 g) (s, bs)
    (t.1.writePayload c o t.2).modSigStat c fun u => { u with txPacks := u.txPacks + 1 }

/-! ### The units' queues (R301) -/

/-- A gateway unit is in service. -/
def State.unitOk (s : State) (u : Nat) : Bool := if u = 0 then s.dev.unitsOk.1 else s.dev.unitsOk.2

/-- The unit that takes a request of channel `c` (R301, R302): the one that already holds outstanding work of the channel,
else the one with the shorter queue. -/
def State.unitFor (s : State) (c : Nat) : Nat :=
  if !s.unitOk 0 then 1
  else if !s.unitOk 1 then 0
  else match s.gw.reqs.find? (·.chan = c) with
    | some r => r.unit
    | none => if (s.gw.reqs.filter (·.unit = 1)).length < (s.gw.reqs.filter (·.unit = 0)).length then 1 else 0

/-- Hands work of channel `c` to the gateway: the last of its unit's queue. -/
def State.gwAdd (s : State) (c : Nat) (j : GwJob) : State :=
  { s with gw := { s.gw with
      reqs := s.gw.reqs ++ [{ unit := s.unitFor c, tick := s.dev.tick, chan := c, job := j }] } }

/-- Hands a frame and its selector to the gateway (R226). -/
def State.gwRequest (s : State) (c sel : Nat) (f : Frame) : State := s.gwAdd c (.unpack sel f)

/-- Request `r` asks for a pack of object `o` of channel `c`. -/
def GwReq.packs (r : GwReq) (c o : Nat) : Bool :=
  r.chan = c && match r.job with
    | .pack p _ => p = o
    | .unpack _ _ => false

/-- Asks the gateway to pack an event object, once a tick (R295). -/
def State.packRequest (s : State) (c o : Nat) : State :=
  if s.gw.reqs.any fun r => r.packs c o && r.tick = s.dev.tick then s else s.gwAdd c (.pack o false)

/-- SEND on an item that wrote to the object: the outstanding pack adds the object's request (R295). -/
def State.packThenSend (s : State) (c o : Nat) : State :=
  let reqs := s.gw.reqs.map fun r =>
    if r.packs c o && r.tick = s.dev.tick then { r with job := .pack o true } else r
  { s with gw := { s.gw with reqs := reqs } }

/-- A unit does the work of a request: the unpack of a frame, or the pack of an event object with the request that SEND
adds after it (R290, R295). -/
def State.serveJob (s : State) (r : GwReq) : State :=
  match r.job with
  | .unpack sel f => s.unpack r.chan sel f
  | .pack o send =>
    let t := s.packObj r.chan o
    if send then t.requestSend r.chan o else t

/-- A unit completes a request. -/
def State.serveReq (s : State) (r : GwReq) : State :=
  ({ s with gw := { s.gw with reqs := s.gw.reqs.erase r } }).serveJob r

/-- The requests of a list up to and including the first that `p` picks; none where none is picked. -/
def queueTo (p : GwReq → Bool) : List GwReq → List GwReq
  | [] => []
  | r :: rs => if p r then [r] else if rs.any p then r :: queueTo p rs else []

/-- Unit `u` serves its queue in order of arrival up to and including the first request that `p` picks (R301). -/
def State.serveTo (s : State) (u : Nat) (p : GwReq → Bool) : State :=
  if s.unitOk u then (queueTo p (s.gw.reqs.filter (·.unit = u))).foldl State.serveReq s else s

/-- A unit serves its queue up to its oldest unpack (R301). -/
def State.unpackNext (s : State) (u : Nat) : State :=
  s.serveTo u fun r => match r.job with
    | .unpack _ _ => true
    | .pack _ _ => false

/-- The unit that holds the pack of an object serves its queue up to it (R295, R301). -/
def State.packNext (s : State) (c o : Nat) : State :=
  match s.gw.reqs.find? (·.packs c o) with
  | some r => s.serveTo r.unit (·.packs c o)
  | none => s

/-- Serves every request made before the present tick (R301, R343), in order of arrival. -/
def State.gatewayDue (s : State) : State :=
  (s.gw.reqs.filter fun r => r.tick < s.dev.tick && s.unitOk r.unit).foldl State.serveReq s

/-- The pack of a scheduled object in the arming tick of its occurrence (R255, R295): its unit completes what it was
handed before, then the pack. -/
def State.packNow (s : State) (c o : Nat) : State :=
  if ((s.chan c).sigs.txGroups o).isEmpty then s
  else
    let u := s.unitFor c
    ((s.gw.reqs.filter fun r => r.unit = u && s.unitOk u).foldl State.serveReq s).packObj c o

/-- SIGNAL_UNPACK (R290). -/
def execSignalUnpack (dt : Nat) (unit : Fin 2) (s0 : State) : Host.Outcome State Fault Refusal :=
  .next ((s0.elapse dt).unpackNext unit)

/-- SIGNAL_PACK (R295). -/
def execSignalPack (dt : Nat) (c : Fin 32) (o : Fin 128) (s0 : State) : Host.Outcome State Fault Refusal :=
  .next ((s0.elapse dt).packNext c o)

/-! ### Writes of transmit signals (R294, R315) -/

/-- Applies values to signals of one group under one bracket, with the stamps given. -/
def State.writeGroup (s : State) (c : Nat) (g : Group) (es : List (Nat × W64)) (time co : W64) : State :=
  let n := g.stamp
  let st := BitVec.ofNat 8 ((s.lc n).st.code + 4 * n)
  let t := es.foldl (fun u e => u.modSig e.1 fun r =>
    { r with value := e.2, time := time, coord := co, gen := s.clk.gen, lcState := st, count := r.count + 1,
             valid := true, stale := false }) s
  let t := t.modGroup g.id fun r => { r with seq := r.seq + 2, stale := false, time := time, coord := co }
  if s.objDir c (g.key % 128) = 2 then t.packRequest c (g.key % 128) else t

/-- Applies the entries of a SIG_WRITE item that concern channels served by `core` (R294): in order, one bracket a
group; SEND asks for a request after the pack, and is ignored and counted on a scheduled object. -/
def State.applySigWrite (s : State) (core : Nat) (es : List (Nat × W64)) (send : Bool) : State :=
  (List.range 32).foldl (fun u c =>
    if s.coreOf c ≠ core then u
    else
      let gs := (s.chan c).sigs.groups.filter fun g => g.tx && es.any fun e => g.has e.1
      let v := gs.foldl (fun w g =>
        ((w.writeGroup c g (es.filter fun e => g.has e.1) s.clk.time (s.lcVal g.stamp)).sigUpdate c g 0).newPayload c
          (g.key % 128)) u
      if send then
        (gs.map fun g => g.key % 128).eraseDups.foldl (fun w o =>
          if w.objDir c o = 2 then w.packThenSend c o else w.sendIgnored c) v
      else v) s

/-! ### Freshness (R296) -/

/-- The limit that group `g` exceeds: 1 age_time, 2 age_dist, 0 none. -/
def State.staleReason (s : State) (g : Group) : Nat :=
  let r := s.groupRt g.id
  if g.ageTime ≠ 0 && (g.ageTime * 100000 : Int) < (s.clk.time - r.time).toInt then 1
  else if g.ageDist ≠ 0 && g.ageDist * 65536 < (s.lcVal g.stamp - r.coord).toInt.natAbs then 2
  else 0

/-- A group that exceeds a limit becomes stale, under one bracket, with its fault and event (R296, R302, R303). -/
def State.staleGroup (s : State) (c : Nat) (g : Group) : State :=
  let r := s.groupRt g.id
  let why := s.staleReason g
  if why = 0 || r.stale then s
  else
    let t := (List.range g.count).foldl (fun u i => u.modSig (g.first + i) fun x => { x with stale := true }) s
    let t := t.modGroup g.id fun x => { x with seq := x.seq + 2, stale := true }
    let t := t.modSigStat c fun u => { u with staleEntries := u.staleEntries + 1 }
    let p := s.chanOwner c
    let t := t.raiseU 0x70 0 1 g.id false p
    if s.par K.chanSigStaleEvent c = 1 then
      t.event p 0x0501 g.id (le 1 c ++ le 1 why ++ zs 6 ++ le 8 r.time.toNat ++ le 8 r.coord.toNat)
    else t

/-- The staleness check of one channel (R343). -/
def State.staleCheck (s : State) (c : Nat) : State :=
  (s.chan c).sigs.groups.foldl (fun t g => t.staleGroup c g) s

/-! ### The switch (R288) -/

/-- What of a signal decides its restart: its group's channel, kind, key and stamp, its descriptor and its scaling
entry. -/
def SigSet.identity (x : SigSet) (id : Nat) : Option SigIdent :=
  match x.groups.find? (·.has id), x.sigs.lookup id with
  | some g, some d =>
    some { chan := g.chan, tx := g.tx, key := g.key, stamp := g.stamp, offset := d.offset, len := d.len,
           form := d.form, scale := (x.scaleOf d).map fun e => (e.mul, e.shift, e.offset) }
  | _, _ => none

/-- Makes signal sets active on the channels named (R288): a signal that changed or no longer exists is cleared,
every other keeps its record; each affected group gets one bracket; a group that becomes defined counts from now. -/
def State.switchSigs (s : State) (new : List (Nat × SigSet)) : State :=
  let olds := new.map fun x => (s.chan x.1).sigs
  let news := new.map (·.2)
  let restart := fun (id : Nat) => decide (olds.findSome? (·.identity id) ≠ news.findSome? (·.identity id))
  let oldG := (olds.map (·.groups)).flatten
  let newG := (news.map (·.groups)).flatten
  let t := ((olds ++ news).map (·.sigs)).flatten.foldl (fun u d =>
    if restart d.1 then u.modSig d.1 fun _ => SigRec.reset else u) s
  let ids := ((oldG ++ newG).map (·.id)).eraseDups
  let t := ids.foldl (fun u g =>
    let was := oldG.any (·.id = g)
    let is := newG.any (·.id = g)
    let hit := was ≠ is || (oldG ++ newG).any fun x =>
      x.id = g && (List.range x.count).any fun i => restart (x.first + i)
    if hit then
      u.modGroup g fun r =>
        { r with seq := r.seq + 2, defined := is, stale := r.stale && is && was,
                 time := if is && !was then s.clk.time else r.time,
                 coord := if is && !was then
                     s.lcVal (((newG.find? (·.id = g)).map Group.stamp).getD 0) else r.coord }
    else u) t
  new.foldl (fun u x => u.modChan x.1 fun ch => { ch with sigs := x.2 }) t

/-! ### The signal map (R284, R285) -/

/-- Group descriptor `k` of a map. -/
def mapGroup (bs : List Byte) (k : Nat) : Group :=
  let o := 32 + 16 * k
  let w := rd bs o 4
  { id := Config.groupId bs k % 65536, first := w % 0x40000, count := w / 0x40000 % 4096 + 1, chan := rd bs (o + 4) 1,
    flags := rd bs (o + 5) 1, key := rd bs (o + 6) 2, frameLen := rd bs (o + 8) 2, deliverQ := rd bs (o + 10) 1,
    ageTime := rd bs (o + 12) 2, ageDist := rd bs (o + 14) 2 }

/-- Signal descriptor at an offset of a map. -/
def mapSig (bs : List Byte) (o : Nat) : Sig :=
  { offset := rd bs o 2 % 16384, len := rd bs (o + 2) 1, form := rd bs (o + 3) 1, scale := rd bs (o + 4) 2 }

/-- Scaling entry at an offset of a map. -/
def mapScale (bs : List Byte) (o : Nat) : Scale :=
  { mul := sgn 32 (rd bs o 4), shift := rd bs (o + 4) 1, offset := sgn 64 (rd bs (o + 8) 8) }

/-- The signals of the groups in map order: group, signal id, byte offset of the descriptor, descriptor. -/
def mapSigs (bs : List Byte) : List Group → Nat → List (Group × Nat × Nat × Sig)
  | [], _ => []
  | g :: gs, o =>
    ((List.range g.count).map fun i => (g, g.first + i, o + 8 * i, mapSig bs (o + 8 * i))) ++
      mapSigs bs gs (o + 8 * g.count)

/-- The first of a list of conditions that holds. -/
def firstBad (l : List (Bool × Nat)) : Option Nat := (l.find? (·.1)).map (·.2)

/-- Two lists share an element. -/
def shares (a b : List Nat) : Bool := a.any fun x => b.contains x

/-- Step 3 of R285: a wrong format or version, or a reserved field that is not zero. -/
def mapReserved (bs : List Byte) (ng ns nk : Nat) : Option Nat :=
  match firstBad [(rd bs 0 2 ≠ 5, 0), (rd bs 2 2 ≠ 1, 2), (rd bs 18 2 ≠ 0, 18)] with
  | some o => some o
  | none =>
    match (List.range ng).findSome? fun k =>
        let o := 32 + 16 * k
        firstBad [(0x40000000 ≤ rd bs o 4, o), (8 ≤ rd bs (o + 5) 1, o + 5),
          (bitOf (rd bs (o + 5) 1) 0 && 128 ≤ rd bs (o + 6) 2, o + 6), (rd bs (o + 11) 1 ≠ 0, o + 11)] with
    | some o => some o
    | none =>
      match (List.range ns).findSome? fun k =>
          let o := 32 + 16 * ng + 8 * k
          firstBad [(16384 ≤ rd bs o 2, o), (16 ≤ rd bs (o + 3) 1, o + 3), (rd bs (o + 6) 2 ≠ 0, o + 6)] with
      | some o => some o
      | none => (List.range nk).findSome? fun k =>
          let o := 32 + 16 * ng + 8 * ns + 16 * k
          firstBad [(rd bs (o + 5) 3 ≠ 0, o + 5)]

/-- Step 5 of R285: the groups. -/
def mapGroupsBad (chans : Nat) (gs : List Group) : Option Nat :=
  gs.zipIdx.findSome? fun gk =>
    let g := gk.1
    let o := 32 + 16 * gk.2
    let before := gs.take gk.2
    firstBad [(before.any fun h => g.id ≤ h.id, o),
      (0x40000 < g.first + g.count || before.any fun h => g.first < h.first + h.count && h.first < g.first + g.count, o),
      (31 < g.chan || !bitOf chans g.chan, o + 4), (if g.tx then 2048 < g.frameLen else g.frameLen ≠ 0, o + 8),
      (63 < g.deliverQ && g.deliverQ ≠ 0xFF, o + 10)]

/-- Step 6 of R285: the signals. -/
def mapSigsBad (nk : Nat) (ss : List (Group × Nat × Nat × Sig)) : Option Nat :=
  ss.findSome? fun x =>
    let g := x.1
    let o := x.2.2.1
    let d := x.2.2.2
    let badLen := d.len = 0 || 64 < d.len || (d.enc = 2 && d.len ≠ 32) || (d.enc = 3 && d.len ≠ 64)
    firstBad [(!badLen && 2048 < d.extent, o), (badLen, o + 2), (d.isAxis && !g.tx, o + 3),
      (nk < d.scale || (2 ≤ d.enc && d.scale ≠ 0), o + 4)]

/-- Step 8 of R285: frame_len and shared payload bits of TX groups. -/
def mapTxBad (gs : List Group) (ss : List (Group × Nat × Nat × Sig)) : Option Nat :=
  match gs.zipIdx.findSome? fun gk =>
      if gk.1.tx && ss.any fun x => x.1 = gk.1 && gk.1.frameLen < x.2.2.2.extent then some (32 + 16 * gk.2 + 8)
      else none with
  | some o => some o
  | none => ss.findSome? fun x =>
      if x.1.tx && ss.any fun y =>
          y.1 = x.1 && y.2.1 < x.2.1 && shares y.2.2.2.positions x.2.2.2.positions then some x.2.2.1
      else none

/-- The channels a word names. -/
def chansOf (w : Nat) : List Nat := (List.range 32).filter fun c => bitOf w c

/-- The signal set that a checked map gives channel `c`. It holds the scaling entries that its descriptors name; an entry
that no descriptor of the map names goes to the lowest channel that the map names, so that it counts in R286 too (DESIGN
CHOICE, log entry 103). -/
def mapSet (bs : List Byte) (ng ns c : Nat) : SigSet :=
  let gs := (List.range ng).map (mapGroup bs)
  let mine := gs.filter (·.chan = c)
  let all := mapSigs bs gs (32 + 16 * ng)
  let sigs := all.filterMap fun x => if x.1.chan = c then some (x.2.1, x.2.2.2) else none
  let spare := if (chansOf (rd bs 4 4)).head? = some c then
      ((List.range (rd bs 16 2)).map (· + 1)).filter fun k => all.all fun x => x.2.2.2.scale ≠ k
    else []
  let used := ((sigs.map (·.2.scale)).filter (· ≠ 0)).eraseDups
  { mapId := rd bs 20 4, groups := mine, sigs := sigs,
    scales := (used ++ spare).mergeSort.map fun k => (k, mapScale bs (32 + 16 * ng + 8 * ns + 16 * (k - 1))) }

/-- Group and signal ids held by the active or staged sets of channels outside a list. -/
def State.heldSets (s : State) (except : List Nat) : List SigSet :=
  ((List.range 32).filter fun c => !except.contains c).map (fun c =>
    match s.stagedSigs c with
    | some x => [(s.chan c).sigs, x]
    | none => [(s.chan c).sigs]) |>.flatten

/-- Quotas of R286 exceeded by new sets for some channels: the offset of the map's count at fault. -/
def State.sigQuota (s : State) (new : List (Nat × SigSet)) : Option Nat :=
  let all := s.sigUse none new
  let exceeds := (new.map fun x => s.chanOwner x.1).eraseDups.map fun p =>
    let u := s.sigUse (some p) new
    (decide (s.par K.partGrpQuota p < u.2.1), decide (s.par K.partSigQuota p < u.1),
      decide (16383 * s.par K.partSigQuota p / 262144 < u.2.2))
  firstBad [(65536 < all.2.1 || exceeds.any (·.1), 8), (262144 < all.1 || exceeds.any (·.2.1), 12),
    (16383 < all.2.2 || exceeds.any (·.2.2), 16)]

/-- The status and detail of the first check that a signal map fails (R285, R286), for the channels it names. -/
def State.sigMapBad (s : State) (r : Req) : Option (Nat × Nat) :=
  let bs := s.bulkIn r
  let chans := rd bs 4 4
  let ng := rd bs 8 4
  let ns := rd bs 12 4
  let nk := rd bs 16 2
  let cs := chansOf chans
  let gs := (List.range ng).map (mapGroup bs)
  let ss := mapSigs bs gs (32 + 16 * ng)
  let held := s.heldSets cs
  let shared := gs.zipIdx.findSome? fun gk =>
    if held.any fun x => x.groups.any fun h => h.id = gk.1.id ||
        (gk.1.first < h.first + h.count && h.first < gk.1.first + gk.1.count) then
      some (32 + 16 * gk.2)
    else none
  let keys := (List.range nk).findSome? fun k =>
    let o := 32 + 16 * ng + 8 * ns + 16 * k
    firstBad [(rd bs o 4 = 0, o), (62 < rd bs (o + 4) 1, o + 4)]
  if r.bulkLen < 32 || r.bulkLen ≠ rd bs 24 4 || r.bulkLen ≠ 32 + 16 * ng + 8 * ns + 16 * nk then some (stBadLength, 24)
  else if s.poisoned (s.bulkBase r.part + r.bulkOff) r.bulkLen ||
      crc32 (bs.take 28 ++ zs 4 ++ bs.drop 32) ≠ rd bs 28 4 then some (stIntegrity, 28)
  else match mapReserved bs ng ns nk with
  | some o => some (stRange, o)
  | none =>
    if ns ≠ (gs.map (·.count)).sum then some (stBadLength, 12)
    else match mapGroupsBad chans gs, mapSigsBad nk ss, keys, mapTxBad gs ss with
    | some o, _, _, _ => some (stRange, o)
    | none, some o, _, _ => some (stRange, o)
    | none, none, some o, _ => some (stRange, o)
    | none, none, none, some o => some (stRange, o)
    | none, none, none, none =>
      if r.form = 0 && nk ≠ 0 then some (stRange, 16)
      else if r.form = 1 && !cs.all (s.expertOn r.part .chan) then some (stDenied, 4)
      else if !cs.all (s.mayOperate r.part .chan) then some (stDenied, 4)
      else if cs.any s.retired then some (stRetired, 4)
      else if cs.any fun c => s.stageBusy r.part (0x10000 + c) then some (stBusy, 4)
      else match shared, s.sigQuota (cs.map fun c => (c, mapSet bs ng ns c)) with
      | some o, _ => some (stConflict, o)
      | none, some o => some (stNoSpace, o)
      | none, none => none

/-- SIG_STAGE (R284 to R287). -/
def hSigStage (r : Req) (s : State) : Answer :=
  match s.sigMapBad r with
  | some (st, o) => .refuse st o
  | none =>
    let bs := s.bulkIn r
    let new := (chansOf (rd bs 4 4)).map fun c => (c, mapSet bs (rd bs 8 4) (rd bs 12 4) c)
    .done stStaged [] (s.restage r.part fun g => { g with sigs := new.foldl (fun m x => putAssoc m x.1 x.2) g.sigs })

/-- SIG_CLEAR (R305): stages an empty set. -/
def hSigClear (r : Req) (s : State) : Answer :=
  let c := r.u 0 1
  if 31 < c then .refuse stRange 16
  else if !s.mayOperate r.part .chan c then .refuse stDenied 16
  else if s.retired c then .refuse stRetired 16
  else if s.stageBusy r.part (0x10000 + c) then .refuse stBusy 16
  else .done stStaged [] (s.restage r.part fun g => { g with sigs := putAssoc g.sigs c SigSet.empty })

/-- A group descriptor as its 16 bytes (Table 9.5). -/
def Group.bytes (g : Group) : List Byte :=
  le 4 (g.first + (g.count - 1) * 0x40000) ++ le 1 g.chan ++ le 1 g.flags ++ le 2 g.key ++ le 2 g.frameLen ++
    le 1 g.deliverQ ++ zs 1 ++ le 2 g.ageTime ++ le 2 g.ageDist

/-- A descriptor with a new scaling number as its 8 bytes (Table 9.6). -/
def Sig.bytes (d : Sig) (scale : Nat) : List Byte := le 2 d.offset ++ le 1 d.len ++ le 1 d.form ++ le 2 scale ++ zs 2

/-- A scaling entry as its 16 bytes (Table 9.7). -/
def Scale.bytes (e : Scale) : List Byte := le 4 (tc 32 e.mul) ++ le 1 e.shift ++ zs 3 ++ le 8 (tc 64 e.offset)

/-- The common id of a list, or the free value where they differ. -/
def oneId (l : List Nat) : Nat :=
  match l.eraseDups with
  | [x] => x
  | _ => Config.mergedId l % 0x100000000

/-- The signal map that holds some channels' sets (R284), with scaling entries numbered from 1. -/
def mapBytes (sets : List (Nat × SigSet)) : List Byte :=
  let gs := ((sets.map fun x => x.2.groups.map fun g => (g, x)).flatten).mergeSort fun a b => a.1.id ≤ b.1.id
  let scs := (sets.map fun x => x.2.scales.map fun e => (x.1, e.1, e.2)).flatten
  let num := fun (c k : Nat) => if k = 0 then 0 else scs.findIdx (fun e => e.1 = c && e.2.1 = k) + 1
  let sg := gs.map fun g => g.2.2.members g.1 |>.map fun d => d.2.bytes (num g.2.1 d.2.scale)
  let ns := (gs.map fun g => (g.2.2.members g.1).length).sum
  let body := (gs.map fun g => g.1.bytes).flatten ++ (sg.map List.flatten).flatten ++
    (scs.map fun e => e.2.2.bytes).flatten
  let head := le 2 5 ++ le 2 1 ++ le 4 ((sets.map fun x => 2 ^ x.1).sum) ++ le 4 gs.length ++ le 4 ns ++
    le 2 scs.length ++ zs 2 ++ le 4 (oneId (sets.map fun x => x.2.mapId)) ++ le 4 (32 + body.length)
  head ++ le 4 (crc32 (head ++ zs 4 ++ body)) ++ body

/-- The channels whose tables a read command reports: the partition's, or all for P0. -/
def State.myChans (s : State) (p : Nat) : List Nat := (List.range 32).filter fun c => p = 0 || s.chanOwner c = p

/-- SIG_READ (R305). -/
def hSigRead (r : Req) (s : State) : Answer :=
  let which := r.u 0 1
  if 1 < which then .refuse stRange 16
  else
    let cs := s.myChans r.part
    let sets := if which = 0 then cs.map fun c => (c, (s.chan c).sigs)
      else cs.filterMap fun c => (s.stagedSigs c).map fun x => (c, x)
    if which = 1 && sets.isEmpty then .refuse stState 16 else bulkReply r (mapBytes sets) s

/-- Lengths of the runs of free signal ids, walking the occupied runs in ascending order from `at_`. -/
def freeRuns : List (Nat × Nat) → Nat → List Nat
  | [], at_ => [0x40000 - at_]
  | (f, n) :: rs, at_ => (f - at_) :: freeRuns rs (max at_ (f + n))

/-- The SIG_STATUS response (Table 9.15). -/
def State.sigStatus (s : State) (c : Nat) : List Byte :=
  let ch := s.chan c
  let x := ch.sigs
  let y := s.stagedSigs c
  let all := (s.heldSets []).map (·.groups) |>.flatten
  let runs := ((all.map fun g => (g.first, g.count)).eraseDups).mergeSort fun a b => a.1 ≤ b.1
  let free := freeRuns runs 0
  let st := ch.sigStat
  le 1 c ++ le 1 ch.core ++ le 1 (flag 0 s.dev.unitsOk.1 + flag 1 s.dev.unitsOk.2) ++ zs 1 ++ le 4 x.groups.length ++
    le 4 x.sigs.length ++ le 4 ((y.map fun z => z.groups.length).getD 0xFFFFFFFF) ++
    le 4 ((y.map fun z => z.sigs.length).getD 0xFFFFFFFF) ++ le 2 x.scales.length ++
    le 2 ((y.map fun z => z.scales.length).getD 0xFFFF) ++ le 4 x.mapId ++ le 4 st.rxUpdates.toNat ++
    le 4 st.txPacks.toNat ++ le 4 st.short.toNat ++ le 4 st.sat.toNat ++ le 4 st.staleEntries.toNat ++
    le 4 free.sum ++ le 4 (free.foldl max 0) ++ le 4 (65536 - (all.map (·.id)).eraseDups.length) ++ zs 4

/-- SIG_STATUS (R306); CLEAR is for the owner and P0. -/
def hSigStatus (r : Req) (s : State) : Answer :=
  let c := r.u 0 1
  if 31 < c then .refuse stRange 16
  else
    let clear := bitOf (r.u 1 1) 0
    if clear && !s.mayOperate r.part .chan c then .refuse stDenied 17
    else if s.retired c then .refuse stRetired 16
    else .done stOk (s.sigStatus c)
      (if clear then s.modSigStat c fun _ => { rxUpdates := 0, txPacks := 0, short := 0, sat := 0, staleEntries := 0 }
       else s)

/-- What R86 checks of SIG_STAGE. -/
def cmdSigStage : CmdDef := { CmdDef.plain 0x0500 8 (offs 0 8) with expert := true }
/-- SIG_STAGE (R285). -/
def execSigStage (dt : Nat) (m : Mbox) (s : State) : Host.Outcome State Fault Refusal :=
  mailbox cmdSigStage hSigStage dt m s
/-- What R86 checks of SIG_CLEAR. -/
def cmdSigClear : CmdDef := .plain 0x0501 8 (offs 1 7)
/-- SIG_CLEAR (R305). -/
def execSigClear (dt : Nat) (m : Mbox) (s : State) : Host.Outcome State Fault Refusal :=
  mailbox cmdSigClear hSigClear dt m s
/-- What R86 checks of SIG_READ. -/
def cmdSigRead : CmdDef := .plain 0x0502 8 (offs 1 7)
/-- SIG_READ (R305). -/
def execSigRead (dt : Nat) (m : Mbox) (s : State) : Host.Outcome State Fault Refusal :=
  mailbox cmdSigRead hSigRead dt m s
/-- What R86 checks of SIG_STATUS. -/
def cmdSigStatus : CmdDef := { CmdDef.plain 0x0503 8 (offs 2 6) with masks := fun _ => [(1, 1)] }
/-- SIG_STATUS (R306). -/
def execSigStatus (dt : Nat) (m : Mbox) (s : State) : Host.Outcome State Fault Refusal :=
  mailbox cmdSigStatus hSigStatus dt m s

/-! ### The checks at the commit (R287) -/

/-- A group with a delivery queue that is not an OPEN D2H queue, or with more than 65 signals. -/
def State.deliverBad (s : State) (g : Group) : Bool :=
  g.deliverQ ≠ 0xFF && (65 < g.count || !(s.queue g.deliverQ).isOpen || s.par K.qDir g.deliverQ ≠ 1)

/-- R287 for channel `c` under a view of the parameters, with its set and rule list. -/
def State.sigConflict (s : State) (v : Nat → Nat → Nat) (c : Nat) (x : SigSet) (rules : RuleList) : Bool :=
  let txs := x.groups.filter (·.tx)
  let rxs := x.groups.filter fun g => !g.tx
  let bits := fun g => ((x.members g).map fun d => d.2.positions).flatten
  (txs.any fun g =>
    v K.objDir (c * 128 + g.key % 128) < 2 || v K.objSize (c * 128 + g.key % 128) < g.frameLen ||
      txs.any fun h => h.id < g.id && h.key = g.key && shares (bits h) (bits g)) ||
    (rxs.any fun g => ((x.members g).any fun d => v K.chanMaxLen c < d.2.extent) ||
      16384 < ((rxs.filter (·.key = g.key)).map (·.count)).sum) ||
    (x.groups.any s.deliverBad) ||
    rules.rules.any fun u => u.action / 2 % 2 = 1 && !rxs.any (·.key = u.selector)

end Sys2Proof.Machine
end

