-- ==== Sys2Proof/Machine/Axes.lean ====
section
/-! DEFINITION. Axis contexts (R307 to R341): evaluations, the stream and command items, the commands 0x0600 to 0x0603,
and what a switch does to a context. -/
namespace Sys2Proof.Machine

/-! ### The demand (R319) -/

/-- What the stream demands of a context: a position, a velocity, and whether it is starved or had to saturate. -/
structure Demand where
  p : Int
  v : Int
  starved : Bool
  sat : Bool

/-- The demand on the line through two samples, `k` key units past the first (R319): `w` is the coordinate speed, and a
starved demand has velocity 0. -/
def lineDemand (a b : W64 × Int) (k w : Int) (starved : Bool) : Demand :=
  let dk := (b.1 - a.1).toNat
  let p := sat64 (rnd (a.2 * dk + (b.2 - a.2) * k) dk)
  let v := if starved then (0, false) else sat64 (rnd ((b.2 - a.2) * w) dk)
  { p := p.1, v := v.1, starved := starved, sat := p.2 || v.2 }

/-- The demand at key `x`. `w` is the coordinate speed predicted for `x`, or one second in ns for a TIME schedule; `empty`
stands for the position where no sample is held. -/
def demandOf (samples : List (W64 × Int)) (extrap : Nat) (x : W64) (w : Int) (empty : Int) : Demand :=
  let stay := fun (p : Int) => { p := p, v := 0, starved := true, sat := false : Demand }
  let pairs := samples.zip (samples.drop 1)
  match pairs.find? fun ab => 0 ≤ (x - ab.1.1).toInt && (x - ab.2.1).toInt < 0 with
  | some ab => lineDemand ab.1 ab.2 (x - ab.1.1).toInt w false
  | none =>
    match pairs.getLast?, samples.getLast?, samples.head? with
    | some ab, some z, some f =>
      let exceeds := (x - z.1).toInt
      if exceeds < 0 then stay f.2
      else if exceeds ≤ extrap then lineDemand ab.1 ab.2 (x - ab.1.1).toInt w false
      else lineDemand ab.1 ab.2 ((z.1 - ab.1.1).toInt + extrap) w true
    | _, some z, _ => stay z.2
    | _, _, _ => stay empty

/-! ### Limits (R324) -/

/-- Puts written limits in force, as far as the state allows: a raised one at once; a lowered one in TARGET only where
the plan made with it does not pass the target, or under IMMEDIATE, or at rest; in STOPPING under IMMEDIATE. -/
def State.axLimits (s : State) (a : Nat) : State :=
  let x := s.axis a
  let v := s.par K.axVMax a
  let ac := s.par K.axAMax a
  let j := s.par K.axJMax a
  let setAll := fun (y : Axis) => { y with vMax := v, aMax := ac, jMax := j }
  let setUp := fun (y : Axis) => { y with vMax := max y.vMax v, aMax := max y.aMax ac, jMax := max y.jMax j }
  let raised := decide (x.vMax < v || x.aMax < ac || x.jMax < j)
  let lowered := decide (v < x.vMax || ac < x.aMax || j < x.jMax)
  match x.st with
  | .target =>
    let t := if raised then (s.modAxis a setUp).axPlan a x.target else s
    if !lowered then t
    else
      let y := t.axis a
      let ok := s.par K.axLimitApply a = 1 || bitOf y.cond 0 ||
        !planPasses y.mot (planMove (Lim.of v ac j) y.mot y.target) y.target
      if ok then (t.modAxis a setAll).axPlan a x.target else t
  | .stopping =>
    let t := if raised then (s.modAxis a setUp).axPlanStop a else s
    if lowered && s.par K.axLimitApply a = 1 then (t.modAxis a setAll).axPlanStop a else t
  | .inactive | .track | .standstill | .held => s.modAxis a setAll

/-- LIMIT_PENDING (R324): a written limit of a context is not yet in force. -/
def State.limitPending (s : State) (a : Nat) : Bool :=
  let x := s.axis a
  x.st ≠ .inactive && (x.vMax ≠ s.par K.axVMax a || x.aMax ≠ s.par K.axAMax a || x.jMax ≠ s.par K.axJMax a)

/-! ### Evaluation (R309 to R325) -/

/-- The plan's state after `h` ns more: the motion, its jerk and whether the plan has ended. -/
def Axis.sample (x : Axis) (h : Nat) : Mot × Int × Bool :=
  (Mot.of x.planP x.planV x.planA).at x.plan ((x.clock + h) * 2 ^ 64 / 1000000000)

/-- Writes the AXIS signals of a context (R315): one bracket for each group they lie in. -/
def State.axWrite (s : State) (a : Nat) (x tf : W64) : State :=
  let y := s.axis a
  let f := 2 ^ (32 - s.par K.axIoFrac a)
  let out := fun (v : Int) => BitVec.ofInt 64 (sat64 (rnd v f)).1
  let es := [(s.par K.axSpSig a, out y.p), (s.par K.axVffSig a, out y.v)]
  let gs := (es.filterMap fun e => (s.sigOf e.1).map fun z => (z.1, z.2.1)).eraseDups
  gs.foldl (fun t cg => t.writeGroup cg.1 cg.2 (es.filter fun e => cg.2.has e.1) tf x) s

/-- Records a SAT of the engine (R314, R339). -/
def State.axSat (s : State) (a flags : Nat) : State :=
  let t := s.axFlags a flags
  if bitOf flags 3 then t.raiseU (0x80 + a) 5 0 a false (s.par K.axOwner a) else t

/-- A starved demand sets STARVED and raises its sub-cause at every evaluation; the condition ends at the first that is not
starved (R319). -/
def State.axStarved (s : State) (a : Nat) (b : Bool) : State :=
  if b then
    (((s.modAxis a (·.setCond 2 true)).axFlags a 64).condOn (0x80 + a) 4 0).raiseU (0x80 + a) 4 1 a true (s.par K.axOwner a)
  else if bitOf (s.axis a).cond 2 then (s.modAxis a (·.setCond 2 false)).condOff (0x80 + a) 4 0
  else s

/-- The end of a stop profile: STANDSTILL, the disable request of STOP_DISABLE and a release (R326, R331, R341). The
engine's request is no SEND of a host: a fallback, which ignores those, does not ignore it (R331, R333). -/
def State.axStill (s : State) (a : Nat) : State :=
  let x := s.axis a
  let t := (s.modAxis a fun y => { y with v := 0, a := 0, disableDue := false }).axState a .standstill 5
  let t := if x.disableDue then t.addRequest (s.par K.axChan a) (s.par K.axDisableObj a) else t
  if x.release then (t.modAxis a fun y => { y with release := false }).axState a .inactive 1 else t

/-- A context takes the motion of its plan `h` ns on, in the formats of Table 10.1 (R314, R322). -/
def State.axMoved (s : State) (a h : Nat) (m : Mot) : State :=
  let p := sat64 (q32 m.p)
  let v := sat64 (q32 m.v)
  let ac := sat64 (q32 m.a)
  (s.modAxis a fun z => { z with p := p.1, v := v.1, a := ac.1, clock := z.clock + h }).axSat a
    (flag 3 (p.2 || v.2 || ac.2))

/-- One evaluation of context `a` for the occurrence at `x`, predicted to fire at TIME `tf` (R309 to R325): `w` is the
speed predicted there, and `time` says that the schedule is of kind TIME. -/
def State.axEval (s0 : State) (a : Nat) (x tf : W64) (w : Int) (time : Bool) : State :=
  if (s0.axis a).st = .inactive then s0
  else
    let s := s0.axLimits a
    let y := s.axis a
    let dt := (tf - y.tPrev).toInt
    let hmax := 1000 * s.par K.axHMax a
    let h := (max 1000 (min dt hmax)).toNat
    let moves := y.st = .track || y.st = .target || y.st = .stopping
    let s := if moves && (hmax : Int) < dt && (y.v ≠ 0 || y.a ≠ 0) then s.axFlags a 128 else s
    let r := match y.st with
      | .track =>
        let d := demandOf y.samples (s.par K.axExtrap a) (if time then tf else x) (if time then 1000000000 else w)
          (Config.emptyDemand a s.now)
        let st := trackStep y.p y.v y.a d.p d.v y.vMax y.aMax y.jMax (s.par K.axKp a) h
        let t := s.modAxis a fun z => { z with p := st.p, v := st.v, a := st.a, demand := d.p }
        ((t.axSat a (st.flags ||| flag 3 d.sat)).axStarved a d.starved, st.j)
      | .target =>
        let m := y.sample h
        if m.2.2 then
          (s.modAxis a fun z => ({ z with p := z.target, v := 0, a := 0, clock := z.clock + h }).setCond 0 true, m.2.1)
        else (s.axMoved a h m.1, m.2.1)
      | .stopping =>
        let m := y.sample h
        let t := s.axMoved a h m.1
        ((if m.2.2 then t.axStill a else t), m.2.1)
      | .standstill | .held | .inactive => (s.modAxis a fun z => { z with v := 0, a := 0 }, 0)
    let t := r.1.modAxis a fun z =>
      let es := z.evals ++ [{ time := tf, p := z.p, v := z.v, a := z.a, j := r.2 }]
      { z with tPrev := tf, tEval := tf, ran := true, evals := es.drop (es.length - 32) }
    t.axWrite a x tf

/-- The contexts linked to object `o` of channel `c`, in ascending number (R309). -/
def State.axesOf (s : State) (c o : Nat) : List Nat :=
  (List.range 128).filter fun a => s.par K.axChan a = c && s.par K.axObj a = o

/-- The evaluations of one occurrence (R255, R309). -/
def State.axEvalAll (s : State) (c o : Nat) (x tf : W64) (w : Int) (time : Bool) : State :=
  (s.axesOf c o).foldl (fun t a => t.axEval a x tf w time) s

/-! ### Items (R318, R321, R336) -/

/-- The samples of an AX_STREAM payload. -/
def streamSamples (bs : List Byte) : List (W64 × Int) :=
  (List.range (bs.length / 16)).map fun i =>
    (BitVec.ofNat 64 (rd bs (16 * i) 8), sgn 64 (rd bs (16 * i + 8) 8))

/-- The keys of a stream ascend strictly (R318). -/
def keysAscend (l : List (W64 × Int)) : Bool := (l.zip (l.drop 1)).all fun ab => 0 < (ab.2.1 - ab.1.1).toInt

/-- Applies an AX_STREAM item (R318), or counts it as ignored under a reaction or fallback (R334). -/
def State.axStreamItem (s : State) (a : Nat) (new : List (W64 × Int)) : State :=
  let x := s.axis a
  if x.inForce ≠ 0 then s.modAxis a fun y => { y with ignored := y.ignored + 1 }
  else match new with
    | f :: _ => s.modAxis a fun y =>
        let l := (y.samples.filter fun e => (e.1 - f.1).toInt < 0) ++ new
        { y with samples := l.drop (l.length - 64) }
    | [] => s

/-- Applies an AX_CMD item (R316, R321, R325, R326, R334). A TARGET is ignored in STOPPING, but for the item that ends a
heartbeat fallback, whose op applies from the present state; a TRACK leaves a stop that no reaction holds. -/
def State.axCmdItem (s : State) (a op : Nat) (goal : Int) : State :=
  let ends := (s.axis a).hbReact ≠ 0 && (s.axis a).hbOver
  let s := if ends then s.modAxis a fun y => { y with hbReact := 0, hbOver := false } else s
  let x := s.axis a
  if op = 3 then s.axStopNow a 2
  else if x.inForce ≠ 0 || x.st = .held || (x.st = .stopping && op = 1 && !ends) then
    s.modAxis a fun y => { y with ignored := y.ignored + 1 }
  else
    let s := if x.st = .inactive then (s.axLimits a).modAxis a fun y => { y with tPrev := s.clk.time }
      else s.modAxis a fun y => { y with release := false }
    if op = 1 then s.axTarget a goal 2
    else if x.st = .track then s
    else (s.modAxis a (·.setCond 0 false)).axState a .track 2

/-! ### Commands (R341) -/

/-- AX_DEFINE: stages the links of a context. -/
def hAxDefine (r : Req) (s : State) : Answer :=
  let a := r.u 0 1
  let vff := if r.form = 1 then r.u 16 4 else 0xFFFFFFFF
  let bad := firstBad [(127 < a, 16), (31 < r.u 1 1 && r.u 1 1 ≠ 0xFF, 17), (127 < r.u 2 1, 18),
    (127 < r.u 3 1 && r.u 3 1 ≠ 0xFF, 19), (32 < r.u 4 1, 20), (0x3FFFF < r.u 8 4, 24),
    (0x3FFFF < r.u 12 4 && r.u 12 4 ≠ 0xFFFFFFFF, 28), (0x3FFFF < vff && vff ≠ 0xFFFFFFFF, 32)]
  match bad with
  | some o => .refuse stRange o
  | none =>
    if !s.mayOperate r.part .axis a then .refuse stDenied 16
    else if r.form = 1 && !s.expertOn r.part .axis a then .refuse stDenied 6
    else if s.stageBusy r.part (resKey .axis a) then .refuse stBusy 16
    else
      let kv := [(K.axChan, r.u 1 1), (K.axObj, r.u 2 1), (K.axDisableObj, r.u 3 1), (K.axIoFrac, r.u 4 1),
        (K.axSpSig, r.u 8 4), (K.axFbSig, r.u 12 4), (K.axVffSig, vff)]
      .done stStaged [] (s.restage r.part fun g => kv.foldl (fun h e => h.setPar e.1 a e.2) g)

/-- AX_START (R317). -/
def hAxStart (r : Req) (s : State) : Answer :=
  let a := r.u 0 1
  let mode := r.u 1 1
  let init := r.u 2 1
  match firstBad [(127 < a, 16), (mode ≠ 1 && mode ≠ 2, 17), (2 < init, 18)] with
  | some o => .refuse stRange o
  | none =>
    if !s.mayOperate r.part .axis a then .refuse stDenied 16
    else
      let x := s.axis a
      let fb := s.par K.axFbSig a
      let rec_ := s.sigRec fb
      if !s.axDefined a || x.st = .track || x.st = .target || x.st = .stopping || (x.st = .inactive && x.redefined) then
        .refuse stState 16
      else if (init = 0 && (fb = 0xFFFFFFFF || !rec_.valid)) || (init = 2 && x.st = .inactive && !x.ran) then
        .refuse stState 18
      else
        let fp := sat64 (rec_.value.toInt * 2 ^ (32 - s.par K.axIoFrac a))
        let p := if init = 0 then fp.1 else if init = 1 then sgn 64 (r.u 8 8) else x.p
        let t := ((s.axSat a (flag 3 (init = 0 && fp.2))).modAxis a fun y =>
          { y with p := p, v := 0, a := 0, reaction := 0, misses := 0, freezes := 0, devs := 0, fbSeen := false,
                   supervised := false, due := [], tPrev := s.clk.time, disableDue := false, release := false,
                   plan := [], clock := 0 }).axLimits a
        .done stOk [] (if mode = 1 then (t.modAxis a (·.setCond 0 false)).axState a .track 1
          else t.axTarget a (sgn 64 (r.u 16 8)) 1)

/-- Stops one context (R326); with RELEASE it becomes INACTIVE once at STANDSTILL. -/
def State.axStopCmd (s : State) (a : Nat) (release : Bool) : State :=
  let t := s.axStopNow a 1
  if !release then t
  else if (t.axis a).st = .standstill then t.axState a .inactive 1
  else if (t.axis a).st = .inactive then t
  else t.modAxis a fun y => { y with release := true }

/-- AX_STOP (R326, R341): one context, or with 0xFF every context the partition owns. -/
def hAxStop (r : Req) (s : State) : Answer :=
  let a := r.u 0 1
  let rel := bitOf (r.u 1 1) 0
  if a = 0xFF then
    .done stOk [] ((List.range 128).foldl (fun t k => if s.par K.axOwner k = r.part then t.axStopCmd k rel else t) s)
  else if 127 < a then .refuse stRange 16
  else if !s.mayOperate r.part .axis a then .refuse stDenied 16
  else .done stOk [] (s.axStopCmd a rel)

/-- The AX_STATUS response (Table 10.7). -/
def State.axStatus (s : State) (a : Nat) : List Byte :=
  let x := s.axis a
  let tgt : Nat := match x.st with
    | .target => tc 64 x.target
    | .track => tc 64 x.demand
    | .inactive | .stopping | .standstill | .held => Config.idleTarget a s.now
  le 1 a ++ le 1 x.st.code ++ le 1 x.inForce ++ le 1 x.misses ++ le 2 x.flags ++ le 1 (x.cond + flag 1 (s.limitPending a)) ++
    le 1 x.samples.length ++ le 8 (tc 64 x.p) ++ le 8 (tc 64 x.v) ++ le 8 (tc 64 x.a) ++ le 8 tgt ++
    le 8 (tc 64 x.pFb) ++ le 8 x.tEval.toNat ++ le 4 x.devMax ++ le 4 x.ignored.toNat

/-- AX_STATUS (R337); ACK is for the owner and P0. -/
def hAxStatus (r : Req) (s : State) : Answer :=
  let a := r.u 0 1
  if 127 < a then .refuse stRange 16
  else
    let ack := bitOf (r.u 1 1) 0
    if ack && !s.mayOperate r.part .axis a then .refuse stDenied 17
    else .done stOk (s.axStatus a) (if ack then s.modAxis a fun y => { y with flags := 0, devMax := 0 } else s)

/-- What R86 checks of AX_DEFINE. -/
def cmdAxDefine : CmdDef :=
  { code := 0x0600, len := fun r => if r.form = 1 then 24 else 16,
    resv := fun _ => offs 5 3 ++ offs 20 4, masks := fun _ => [], expert := true, rusk := false }
/-- AX_DEFINE (R341). -/
def execAxDefine (dt : Nat) (m : Mbox) (s : State) : Host.Outcome State Fault Refusal :=
  mailbox cmdAxDefine hAxDefine dt m s
/-- What R86 checks of AX_START. -/
def cmdAxStart : CmdDef := .plain 0x0601 24 (offs 3 5)
/-- AX_START (R317). -/
def execAxStart (dt : Nat) (m : Mbox) (s : State) : Host.Outcome State Fault Refusal :=
  mailbox cmdAxStart hAxStart dt m s
/-- What R86 checks of AX_STOP. -/
def cmdAxStop : CmdDef := { CmdDef.plain 0x0602 8 (offs 2 6) with masks := fun _ => [(1, 1)] }
/-- AX_STOP (R326). -/
def execAxStop (dt : Nat) (m : Mbox) (s : State) : Host.Outcome State Fault Refusal :=
  mailbox cmdAxStop hAxStop dt m s
/-- What R86 checks of AX_STATUS. -/
def cmdAxStatus : CmdDef := { CmdDef.plain 0x0603 8 (offs 2 6) with masks := fun _ => [(1, 1)] }
/-- AX_STATUS (R337). -/
def execAxStatus (dt : Nat) (m : Mbox) (s : State) : Host.Outcome State Fault Refusal :=
  mailbox cmdAxStatus hAxStatus dt m s

/-! ### The switch (R316, R317) -/

/-- The AXIS signal `id` that no context links any more has VALID clear (R308), under its group's bracket. -/
def State.unlinkSig (s : State) (id : Nat) : State :=
  if s.axLinked id || !(s.sigRec id).valid then s
  else
    let t := s.modSig id fun r => { r with valid := false }
    match s.sigOf id with
    | some (_, g, _) => t.modGroup g.id fun r => { r with seq := r.seq + 2 }
    | none => t

/-- What a switch from `old` does to context `a`: a definition, its end, or a changed `sp_sig` or `io_frac` leave it
INACTIVE with p 0, which has not run; an AXIS signal that it linked and that no context links any more loses VALID. -/
def State.axSwitch (s : State) (old : State) (a : Nat) : State :=
  let ch := fun k => s.par k a ≠ old.par k a
  let t := if old.axDefined a then (s.unlinkSig (old.par K.axSpSig a)).unlinkSig (old.par K.axVffSig a) else s
  if s.axDefined a = old.axDefined a && !ch K.axSpSig && !ch K.axIoFrac then t
  else
    let u := (t.modAxis a fun y =>
      { y with p := 0, v := 0, a := 0, plan := [], samples := if s.axDefined a then y.samples else [], ran := false,
               supervised := false, due := [] }).axState a .inactive 6
    u.modAxis a fun y => { y with redefined := s.axDefined a && old.axDefined a }

/-- The link checks of R308 for context `a` under a view of the parameters and of the signal sets. -/
def State.axConflict (s : State) (v : Nat → Nat → Nat) (set : Nat → SigSet) (a : Nat) : Bool :=
  let c := v K.axChan a
  let st := (s.axis a).st
  if (st = .track || st = .target || st = .stopping) &&
      [K.axChan, K.axObj, K.axSpSig, K.axVffSig, K.axIoFrac].any fun k => v k a ≠ s.par k a then true
  else if c = 0xFF then false
  else
    let o := v K.axObj a
    let axisSig := fun id => (set c).groups.any fun g =>
      g.tx && g.key % 128 = o && g.has id && (((set c).sigs.lookup id).map Sig.isAxis).getD false
    let sigs := fun b => if v K.axChan b = 0xFF then [] else [v K.axSpSig b, v K.axVffSig b].filter (· ≠ 0xFFFFFFFF)
    s.par K.axOwner a ≠ s.chanOwner c || v K.objDir (c * 128 + o) ≠ 3 ||
      (v K.axDisableObj a ≠ 0xFF && v K.objDir (c * 128 + v K.axDisableObj a) ≠ 2) ||
      !axisSig (v K.axSpSig a) || (v K.axVffSig a ≠ 0xFFFFFFFF && !axisSig (v K.axVffSig a)) ||
      v K.axSpSig a = v K.axVffSig a ||
      ((List.range 128).any fun b => b ≠ a && shares (sigs b) (sigs a)) ||
      (v K.axFbSig a ≠ 0xFFFFFFFF && !(List.range 32).any fun d => s.chanOwner d = s.chanOwner c &&
        (set d).groups.any fun g => !g.tx && g.has (v K.axFbSig a)) ||
      8 < ((List.range 128).filter fun b => v K.axChan b = c && v K.axObj b = o).length

end Sys2Proof.Machine
end

