-- ==== Sys2Proof/Machine/Filter.lean ====
section
/-! DEFINITION. Channel rings, classification and message objects (R215 to R245): the ring entry a frame becomes, the
rules that decide where it goes, and the commands 0x0200 to 0x0204. -/
namespace Sys2Proof.Machine

/-! ### Ring entries (R215 to R217) -/

/-- Changes the ring of channel `c`. -/
def State.modRing (s : State) (c : Nat) (f : Ring → Ring) : State := s.modChan c fun ch => { ch with ring := f ch.ring }

/-- The reading of an engine's replica of TIME, which counts BUS clocks of 6.25 ns, at TIME `t` (R15), in whole ns (DESIGN
CHOICE, log entry 147). -/
def busTime (t : W64) : W64 := BitVec.ofNat 64 (t.toNat * 4 / 25 * 25 / 4)

/-- A frame with its stamps (R15, R161, Table 7.1): the replica at its start of frame, and every coordinate then. -/
def State.stampFrame (s : State) (f : Frame) (sof : W64) : Frame :=
  let q := busTime sof
  let l := (List.range 4).map fun n => s.lcAt n q
  { f with time := q, lcs := l.map (·.1), stale := l.any (·.2), gen := s.clk.gen, lcState := s.lcStates }

/-- When CMODE rises and falls in a frame of engine `e` that started at `sof` (R171, Table 5.6): from the sample point of
ADH to the end of the data bits of Table 5.4 (DEDUCED, log entry 148); none in a frame without FAST. -/
def State.fastPhase (s : State) (e : Nat) (f : Frame) (sof : W64) : Option (Nat × Nat) :=
  let g := s.engCfg e
  if f.kind ≠ .xl || g K.chanFast ≠ 1 then none
  else
    let start : Int := 16 * s.now - 16 * (s.clk.time - sof).toInt
    let sp := ((1 + g K.chanTseg1A : Nat) + (s.chan e).age.spA) * (g K.chanBrpA * 100 : Nat)
    let rise := start + (Config.adhBit f.id.toNat * g.bitA : Nat) + sp
    some ((rise / 16).toNat, ((rise + ((frameBits 2 false f.payload.length).2 * g.bitD : Nat)) / 16).toNat)

/-- An error or a protocol exception ends the FAST phase that engine `e` is in, and one that has not begun never begins
(R171). -/
def State.cutFast (s : State) (e : Nat) : State :=
  s.modChan e fun ch =>
    { ch with fast := match ch.fast with
        | some (r, f) => if s.now ≤ r then none else some (r, min f s.now)
        | none => none }

/-- CMODE of channel `c`: high in the FAST phase of a frame (R155, R171). -/
def State.cmode (s : State) (c : Nat) : Bool :=
  match (s.chan c).fast with
  | some (r, f) => r ≤ s.now && s.now < f
  | none => false

/-- A received frame as the engine forms it. -/
def RxFrame.frame (r : RxFrame) : Frame :=
  { id := r.id, kind := r.kind, brs := r.brs, esi := r.esi, rtr := r.rtr, sec := r.sec, own := false, arbLost := false,
    stale := false, loss := false, dlc := r.dlc, payload := if r.rtr then [] else r.payload, sdt := r.sdt, vcid := r.vcid,
    af := r.af, seq := 0, gen := 0, lcState := 0, time := 0, lcs := [] }

/-- Ring bytes that are skipped before an entry of `n` bytes written at count `wr` (R217). -/
def ringPad (wr n : Nat) : Nat :=
  let pos := wr % Config.ringBytes
  if pos + n > Config.ringBytes then Config.ringBytes - pos else 0

/-- Occupied bytes of a ring. -/
def Ring.used (r : Ring) : Nat := r.wr - r.rd

/-- Store address of a ring offset of channel `c`. -/
def ringAddr (c pos : Nat) : Nat := Config.chanRings + Config.ringBytes * c + pos

/-- The 64-byte header of a ring entry (Table 7.1); the crumb is the count of bytes in its last store word (R147). -/
def Frame.header (f : Frame) : List Byte :=
  let n := f.payload.length
  le 4 f.id.toNat ++ le 2 n ++ le 2 f.dlc ++ le 1 f.fmt ++
    le 1 (flag 0 f.own + flag 1 f.arbLost + flag 2 f.stale + flag 3 f.loss) ++ [f.sdt, f.vcid] ++ le 4 f.af.toNat ++
    le 4 f.seq.toNat ++ le 1 (n % 32) ++ [f.gen, f.lcState] ++ zs 1 ++ le 8 f.time.toNat ++
    ((List.range 4).map fun i => le 8 ((f.lcs[i]?).getD 0).toNat).flatten

/-- A ring entry as the fabric packs it into store words: the last one is padded with zeros (R147, R216). -/
def Frame.packed (f : Frame) : List Byte := fit (upTo 32 (64 + f.payload.length)) (f.header ++ f.payload)

/-- The PAD entry that fills `n` bytes up to the ring end (R217): a full header with the space less 64 as its length, or a
single store word; what follows is zero. -/
def padEntry (n : Nat) : List Byte :=
  if n < 64 then fit n (zs 9 ++ le 1 16) else fit n (zs 4 ++ le 2 (n - 64) ++ zs 3 ++ le 1 16)

/-- The fabric writes a frame into channel `c`'s ring, or drops it whole (R215 to R217). -/
def State.ringWrite (s : State) (c : Nat) (f0 : Frame) : State :=
  let r := (s.chan c).ring
  let f := { f0 with seq := r.seq + 1, loss := r.lossDue }
  let n := upTo 32 (64 + f.payload.length)
  let pad := ringPad r.wr n
  if Config.ringBytes - 32 < r.used + pad + n then
    let t := s.modRing c fun y => { y with seq := y.seq + 1, drop := y.drop + 1, lossDue := true, dropTold := true }
    if r.dropTold then t
    else (t.raiseU c 5 0 c false (s.chanOwner c)).event (s.chanOwner c) 0x0201 c
      (le 4 (r.drop + 1).toNat ++ le 4 (r.seq + 1).toNat)
  else
    let pos := (r.wr + pad) % Config.ringBytes
    ((s.modRing c fun y =>
      { y with entries := y.entries ++ [{ pos := pos, words := n / 32, frame := f }], wr := y.wr + pad + n,
               seq := y.seq + 1, lossDue := false, written := y.written + 1,
               high := max y.high (y.used + pad + n) }).storeWrite (ringAddr c (r.wr % Config.ringBytes)) (padEntry pad)).storeWrite
      (ringAddr c pos) f.packed

/-! ### Classification (R218 to R228) -/

/-- R224. -/
def Rule.matches (r : Rule) (f : Frame) : Bool :=
  let k := match f.kind with
    | .cc => if f.rtr then 1 else 0
    | .fd => 2
    | .xl => 3
  !r.absent && (f.id.toNat ^^^ r.idValue) &&& r.idMask = 0 && bitOf r.kinds k && (!f.own || bitOf r.flags 1) &&
    match r.ext with
    | none => true
    | some e => e.lenMin ≤ f.payload.length && f.payload.length ≤ e.lenMax &&
        (f.sdt.toNat ^^^ e.sdtValue) &&& e.sdtMask = 0 && (f.vcid.toNat ^^^ e.vcidValue) &&& e.vcidMask = 0 &&
        (f.af.toNat ^^^ e.afValue) &&& e.afMask = 0

/-- A frame item of channel `x` (R234): the block and the whole payload. -/
def State.frameItem (s : State) (core x q ty rule : Nat) (f : Frame) : State :=
  s.emit core { q := q, ty := ty, index := x, aux := f.time,
                payload := frameBlock f false (s.par K.chanCopyLc x) rule f.seq.toNat ++ f.payload }

/-- The actions of one matching rule of channel `x`'s list (R226). -/
def State.ruleActions (s : State) (core x i : Nat) (r : Rule) (f : Frame) : State :=
  let s := if bitOf r.action 0 && s.objDir x r.object = 1 then s.rxUpdate x r.object f else s
  let s := if bitOf r.action 1 then s.gwRequest x r.selector f else s
  if bitOf r.action 2 then s.frameItem core x r.queue 0x0204 i f else s

/-- Evaluates a frame against the rest of a list that starts at rule index `i` (R225). -/
def State.evalRules (s : State) (core x : Nat) (f : Frame) : List Rule → Nat → Bool → State
  | [], _, hit => if hit then s else s.modRing x fun y => { y with unmatched := y.unmatched + 1 }
  | r :: rs, i, hit =>
    let next := i + (if r.ext.isSome then 2 else 1)
    if r.matches f then
      let t := s.ruleActions core x i r f
      if bitOf r.flags 0 && r.action ≠ 0 then t.evalRules core x f rs next true else t
    else s.evalRules core x f rs next hit

/-- Takes the oldest entry of channel `c`'s ring (R218): mirrors it, classifies it against its primary's list first
where it serves the primary (R228), and frees it; a poisoned entry is discarded. -/
def State.takeEntry (s : State) (c : Nat) : State :=
  let ch := s.chan c
  match ch.ring.entries with
  | [] => s
  | e :: rest =>
    let n := 32 * e.words
    let free := fun (t : State) => t.modRing c fun y => { y with entries := rest, rd := y.rd + ringPad y.rd n + n }
    if s.poisoned (ringAddr c e.pos) n then free (s.modRing c fun y => { y with poisoned := y.poisoned + 1 })
    else
      let f := e.frame
      let q := s.par K.chanMirrorQ c
      let t := if q ≠ 0xFF && (!f.own || s.par K.chanMirrorOwn c = 1) then s.frameItem ch.core c q 0x0205 0xFFFF f else s
      let t := t.modRing c fun y => { y with classified := y.classified + 1 }
      let t := if ch.err.serving then t.evalRules ch.core (c - 1) f (s.chan (c - 1)).rules.rules 0 false else t
      free (t.evalRules ch.core c f ch.rules.rules 0 false)

/-- Writes the TX_DONE items whose place in the order of channel `c`'s ring has come (R229). -/
def State.tellDone (s : State) (c : Nat) : State :=
  let r := (s.chan c).ring
  let due := r.dones.filter fun d => d.1 ≤ r.rd
  due.foldl (fun t d => t.emit (s.chan c).core d.2)
    (s.modRing c fun y => { y with dones := y.dones.filter fun d => r.rd < d.1 })

/-- Takes up to `n` entries (R218). -/
def State.takeEntries (s : State) (c : Nat) : Nat → State
  | 0 => s
  | n + 1 => ((s.takeEntry c).tellDone c).takeEntries c n

/-- RING_ENTRY (R225). -/
def execRingEntry (dt : Nat) (c : Fin 32) (s0 : State) : Host.Outcome State Fault Refusal :=
  .next (((s0.elapse dt).takeEntry c).tellDone c)

/-! ### Values of parameters (R92, R162, Table 7.1, Table 7.9) -/

/-- An identifier word of Table 7.1: reserved bits clear and, for a base identifier, bits 28:11 clear. -/
def idWordOk (v : Nat) : Bool := v / 0x20000000 % 4 = 0 && (v / 0x80000000 = 1 || v < 0x800)

/-- A format byte that a transmit object may have (Table 7.9). -/
def formatOk (v : Nat) : Bool :=
  v < 0x40 && v % 4 ≠ 3 && !bitOf v 3 && (!bitOf v 4 || v % 4 = 0) && (!bitOf v 5 || v % 4 = 2)

/-- A value lies in the range of its key. -/
def PDesc.ok (d : PDesc) (v : Nat) : Bool :=
  match d.chk with
  | .none => d.lo ≤ v && v ≤ d.hi && (v - d.lo) % d.step = 0
  | .orFF => (d.lo ≤ v && v ≤ d.hi) || v = 0xFF
  | .orNone => (d.lo ≤ v && v ≤ d.hi) || v = 0xFFFFFFFF
  | .pow2 => d.lo ≤ v && v ≤ d.hi && 2 ^ v.log2 = v
  | .idWord => idWordOk v
  | .format => formatOk v
  | .testId => v / 0x20000000 % 4 = 0

/-- Parameter `num` takes the value `v`. -/
def valueOk (num v : Nat) : Bool :=
  match pDesc num with
  | some d => d.ok v
  | none => false

/-! ### Definitions of objects (R231, R242, R243) -/

/-- Bytes that the objects of channel `c` occupy under a view of the parameters (R231). -/
def poolBytes (v : Nat → Nat → Nat) (c : Nat) : Nat :=
  ((List.range 128).map fun o => objBytes (v K.objDir (c * 128 + o)) (v K.objSize (c * 128 + o))).sum

/-- The keys and values of one OBJ_DEFINE entry. -/
def objEntry (bs : List Byte) (expert : Bool) (o : Nat) : List (Nat × Nat) :=
  let fl := rd bs (o + 3) 1
  [(K.objDir, rd bs (o + 1) 1), (K.objFormat, rd bs (o + 2) 1), (K.objOneshot, fl % 2), (K.objTxc, fl / 2 % 2),
   (K.objStartClass, fl / 4 % 2), (K.objId, rd bs (o + 4) 4), (K.objSize, rd bs (o + 8) 2), (K.objPrio, rd bs (o + 10) 1),
   (K.objDeliverQ, rd bs (o + 11) 1)] ++
    (if expert then [(K.objStampLc, rd bs (o + 12) 1), (K.objXlSdt, rd bs (o + 13) 1), (K.objXlVcid, rd bs (o + 14) 1),
       (K.objXlAf, rd bs (o + 16) 4)]
     else [(K.objStampLc, 0), (K.objXlSdt, 0), (K.objXlVcid, 0), (K.objXlAf, 0)])

/-- An OBJ_DEFINE entry that is out of range. -/
def objEntryBad (bs : List Byte) (expert : Bool) (o : Nat) : Bool :=
  127 < rd bs o 1 || 8 ≤ rd bs (o + 3) 1 || (objEntry bs expert o).any (fun kv => !valueOk kv.1 kv.2) ||
    (rd bs (o + 2) 1 % 4 = 2 && rd bs (o + 8) 2 = 0) ||
    (rd bs (o + 1) 1 = 1 && rd bs (o + 2) 1 ≠ 0) ||
    (if expert then rd bs (o + 15) 1 ≠ 0 || rd bs (o + 20) 12 ≠ 0 else rd bs (o + 12) 4 ≠ 0)

/-- The entries of an OBJ_DEFINE: their size, and the bytes that hold them, inline or in the bulk range. -/
def State.objEntries (s : State) (r : Req) : Nat × List Byte :=
  (if r.form = 1 then 32 else 16, if r.bulkLen ≠ 0 then s.bulkIn r else r.data.drop 8)

/-- The staged copy with the entries of an OBJ_DEFINE (R231). -/
def State.objStage (s : State) (r : Req) : Stage :=
  let e := s.objEntries r
  (List.range (r.u 1 1)).foldl (fun (g : Stage) k =>
    (objEntry e.2 (decide (r.form = 1)) (e.1 * k)).foldl (fun h kv =>
      h.setPar kv.1 (r.u 0 1 * 128 + rd e.2 (e.1 * k) 1) kv.2) g) (s.stage r.part)

/-- The status and detail of the first check that an OBJ_DEFINE fails (R242). -/
def State.objRefused (s : State) (r : Req) : Option (Nat × Nat) :=
  let c := r.u 0 1
  let n := r.u 1 1
  let e := s.objEntries r
  if 31 < c then some (stRange, 16)
  else if 128 < n then some (stRange, 17)
  else if r.bulkLen ≠ 0 && r.bulkLen ≠ n * e.1 then some (stBadLength, 12)
  else if !s.mayOperate r.part .chan c then some (stDenied, 16)
  else if r.form = 1 && !s.expertOn r.part .chan c then some (stDenied, 6)
  else if s.retired c then some (stRetired, 16)
  else if s.stageBusy r.part (0x10000 + c) then some (stBusy, 16)
  else if r.bulkLen ≠ 0 && s.poisoned (s.bulkBase r.part + r.bulkOff) r.bulkLen then some (stIntegrity, 12)
  else match (List.range n).find? fun k => objEntryBad e.2 (decide (r.form = 1)) (e.1 * k) with
    | some k => some (stRange, k)
    | none => if 65536 < poolBytes (s.viewOf (s.objStage r)) c then some (stNoSpace, 16) else none

/-- OBJ_DEFINE (R242). -/
def hObjDefine (r : Req) (s : State) : Answer :=
  match s.objRefused r with
  | some (st, o) => .refuse st o
  | none => .done stStaged [] (s.restage r.part fun _ => s.objStage r)

/-- OBJ_READ (R240, R242): where the payload goes to the bulk range, the bytes written there stand before the record (R84). -/
def hObjRead (r : Req) (s : State) : Answer :=
  let c := r.u 0 1
  let o := r.u 1 1
  if 31 < c then .refuse stRange 16
  else if 127 < o then .refuse stRange 17
  else if !s.mayOperate r.part .chan c then .refuse stDenied 16
  else if s.objDir c o = 0 then .refuse stRange 17
  else if s.retired c then .refuse stRetired 16
  else
    let rec_ := s.objRecord c o
    let pay := ((s.chan c).obj o).payload
    let t := if bitOf (r.u 2 1) 0 then s.modObj c o fun y => { y with new := false, overwrite := false } else s
    if pay.length ≤ 432 then .done stOk (rec_ ++ pay) t
    else if r.bulkLen < pay.length then .refuse stBadLength 12
    else .done stOk (le 4 pay.length ++ rec_) (t.storeWrite (s.bulkBase r.part + r.bulkOff) pay)

/-! ### Rule tables (R221 to R223) -/

/-- The rule at entry `i` of a table. -/
def tableRule (bs : List Byte) (i : Nat) : Rule :=
  let o := 32 + 16 * i
  let e := o + 16
  { idValue := rd bs o 4, idMask := rd bs (o + 4) 4, kinds := rd bs (o + 8) 1, flags := rd bs (o + 9) 1,
    action := rd bs (o + 10) 1, object := rd bs (o + 11) 1, selector := rd bs (o + 12) 2, queue := rd bs (o + 14) 1,
    absent := false,
    ext := if bitOf (rd bs (o + 9) 1) 2 then
        some { lenMin := rd bs e 2, lenMax := rd bs (e + 2) 2, sdtValue := rd bs (e + 4) 1, sdtMask := rd bs (e + 5) 1,
               vcidValue := rd bs (e + 6) 1, vcidMask := rd bs (e + 7) 1, afValue := rd bs (e + 8) 4,
               afMask := rd bs (e + 12) 4 }
      else none }

/-- A rule entry breaks a condition of R223 step 4, but for its extension. -/
def ruleBad (bs : List Byte) (i n : Nat) (expert : Bool) : Bool :=
  let r := tableRule bs i
  r.idValue &&& (0xFFFFFFFF - r.idMask) ≠ 0 || r.idMask / 0x20000000 % 4 ≠ 0 || r.kinds = 0 || 16 ≤ r.kinds ||
    8 ≤ r.flags || 8 ≤ r.action || rd bs (32 + 16 * i + 15) 1 ≠ 0 || (r.ext.isSome && (n ≤ i + 1 || !expert)) ||
    127 < r.object || 63 < r.queue || (!bitOf r.action 0 && r.object ≠ 0) || (!bitOf r.action 1 && r.selector ≠ 0) ||
    (!bitOf r.action 2 && r.queue ≠ 0)

/-- An extension breaks a condition of R223 step 4. -/
def RuleExt.bad (e : RuleExt) : Bool :=
  e.lenMax < e.lenMin || 2048 < e.lenMax || e.sdtValue &&& (0xFF - e.sdtMask) ≠ 0 ||
    e.vcidValue &&& (0xFF - e.vcidMask) ≠ 0 || e.afValue &&& (0xFFFFFFFF - e.afMask) ≠ 0

/-- The rules of a table from entry `i` on, or the index of the first entry at fault. -/
def tableRules (bs : List Byte) (n : Nat) (expert : Bool) : Nat → Nat → Except Nat (List Rule)
  | 0, _ => .ok []
  | fuel + 1, i =>
    if n ≤ i then .ok []
    else if ruleBad bs i n expert then .error i
    else
      let r := tableRule bs i
      match r.ext with
      | some e =>
        if e.bad then .error (i + 1)
        else match tableRules bs n expert fuel (i + 2) with
          | .ok rs => .ok (r :: rs)
          | .error k => .error k
      | none => match tableRules bs n expert fuel (i + 1) with
          | .ok rs => .ok (r :: rs)
          | .error k => .error k

/-- The rule list that a RULE_STAGE brings in its bulk range, or the status and detail of the first check that fails
(R220 to R223). -/
def State.rulesOf (s : State) (r : Req) : Except (Nat × Nat) RuleList :=
  let c := r.u 0 1
  let bs := s.bulkIn r
  let n := rd bs 8 4
  let h := fun off => 0x80000000 + off
  if 31 < c then .error (stRange, 16)
  else if !s.mayOperate r.part .chan c then .error (stDenied, 16)
  else if r.form = 1 && !s.expertOn r.part .chan c then .error (stDenied, 6)
  else if s.retired c then .error (stRetired, 16)
  else if s.stageBusy r.part (0x10000 + c) then .error (stBusy, 16)
  else if r.bulkLen < 32 || r.bulkLen ≠ 32 + 16 * n then .error (stBadLength, h 8)
  else if s.poisoned (s.bulkBase r.part + r.bulkOff) r.bulkLen ||
      crc32 (bs.take 28 ++ zs 4 ++ bs.drop 32) ≠ rd bs 28 4 then .error (stIntegrity, h 28)
  else match firstBad [(rd bs 0 2 ≠ 2, 0), (rd bs 2 2 ≠ 1, 2), (rd bs 4 1 ≠ c, 4), (rd bs 5 3 ≠ 0, 5), (65536 < n, 8),
      (rd bs 16 12 ≠ 0, 16)] with
    | some o => .error (stRange, h o)
    | none => match tableRules bs n (decide (r.form = 1)) n 0 with
      | .error k => .error (stRange, k)
      | .ok rs =>
        let l : RuleList := { tableId := rd bs 12 4, rules := rs }
        if s.par K.partRuleQuota (s.chanOwner c) < s.ruleUse (some (s.chanOwner c)) c (some l) ||
            65536 < s.ruleUse none c (some l) then .error (stNoSpace, 0)
        else .ok l

/-- RULE_STAGE (R220 to R223). -/
def hRuleStage (r : Req) (s : State) : Answer :=
  match s.rulesOf r with
  | .error (st, o) => .refuse st o
  | .ok l => .done stStaged [] (s.restage r.part fun g => { g with rules := putAssoc g.rules (r.u 0 1) l })

/-- A rule, with its extension, as its bytes. -/
def Rule.bytes (r : Rule) : List Byte :=
  le 4 r.idValue ++ le 4 r.idMask ++ le 1 r.kinds ++ le 1 r.flags ++ le 1 r.action ++ le 1 r.object ++ le 2 r.selector ++
    le 1 r.queue ++ zs 1 ++
    match r.ext with
    | some e => le 2 e.lenMin ++ le 2 e.lenMax ++ le 1 e.sdtValue ++ le 1 e.sdtMask ++ le 1 e.vcidValue ++
        le 1 e.vcidMask ++ le 4 e.afValue ++ le 4 e.afMask
    | none => []

/-- A rule table (R221). -/
def RuleList.bytes (l : RuleList) (c : Nat) : List Byte :=
  let body := (l.rules.map Rule.bytes).flatten
  let head := le 2 2 ++ le 2 1 ++ le 1 c ++ zs 3 ++ le 4 l.entries ++ le 4 l.tableId ++ zs 12
  head ++ le 4 (crc32 (head ++ zs 4 ++ body)) ++ body

/-- RULE_READ (R242). -/
def hRuleRead (r : Req) (s : State) : Answer :=
  let c := r.u 0 1
  let which := r.u 1 1
  if 31 < c then .refuse stRange 16
  else if 1 < which then .refuse stRange 17
  else if !s.mayOperate r.part .chan c then .refuse stDenied 16
  else if s.retired c then .refuse stRetired 16
  else if which = 0 then bulkReply r ((s.chan c).rules.bytes c) s
  else match s.stagedRules c with
    | some l => bulkReply r (l.bytes c) s
    | none => .refuse stState 17

/-! ### FILT_STATUS (R244) -/

/-- The FILT_STATUS response (Table 7.13). -/
def State.filtStatus (s : State) (c : Nat) : List Byte :=
  let ch := s.chan c
  let r := ch.ring
  le 1 c ++ le 1 ch.core ++ zs 2 ++ le 4 r.written.toNat ++ le 4 r.drop.toNat ++ le 4 r.poisoned.toNat ++
    le 4 r.classified.toNat ++ le 4 r.unmatched.toNat ++ le 4 r.trunc.toNat ++ le 4 r.overwrites.toNat ++
    le 4 r.mirrored.toNat ++ le 4 r.sendIgnored.toNat ++ le 4 ch.rules.entries ++
    le 4 (((s.stagedRules c).map RuleList.entries).getD 0xFFFFFFFF) ++ le 4 (poolBytes s.par c) ++ le 4 r.high ++
    le 4 ch.rules.tableId ++ zs 4

/-- FILT_STATUS (R244): re-arms RING_DROP and starts ring_high_water anew (R217). -/
def hFiltStatus (r : Req) (s : State) : Answer :=
  let c := r.u 0 1
  if 31 < c then .refuse stRange 16
  else if !s.mayOperate r.part .chan c then .refuse stDenied 16
  else if s.retired c then .refuse stRetired 16
  else .done stOk (s.filtStatus c) (s.modRing c fun y => { y with dropTold := false, high := y.used })

/-- What R86 checks of OBJ_DEFINE. -/
def cmdObjDefine : CmdDef :=
  let size := fun (r : Req) => if r.form = 1 then 32 else 16
  let cnt := fun (r : Req) => if r.bulkLen ≠ 0 then 0 else r.u 1 1
  { code := 0x0200, len := fun r => 8 + cnt r * size r,
      resv := fun r => offs 2 6 ++ ((List.range (cnt r)).map fun k => (if r.form = 1 then 15 :: offs 20 12 else offs 12 4).map
        (8 + size r * k + ·)).flatten,
      masks := fun r => (List.range (cnt r)).map fun k => (8 + size r * k + 3, 7), expert := true, rusk := false,
      detail := fun r o => if o < 8 then 16 + o else (o - 8) / size r }
/-- OBJ_DEFINE (R231). -/
def execObjDefine (dt : Nat) (m : Mbox) (s : State) : Host.Outcome State Fault Refusal :=
  mailbox cmdObjDefine hObjDefine dt m s
/-- What R86 checks of OBJ_READ. -/
def cmdObjRead : CmdDef := { CmdDef.plain 0x0201 8 (offs 3 5) with masks := fun _ => [(2, 1)] }
/-- OBJ_READ (R240). -/
def execObjRead (dt : Nat) (m : Mbox) (s : State) : Host.Outcome State Fault Refusal :=
  mailbox cmdObjRead hObjRead dt m s
/-- What R86 checks of RULE_STAGE. -/
def cmdRuleStage : CmdDef := { CmdDef.plain 0x0202 8 (offs 1 7) with expert := true }
/-- RULE_STAGE (R223). -/
def execRuleStage (dt : Nat) (m : Mbox) (s : State) : Host.Outcome State Fault Refusal :=
  mailbox cmdRuleStage hRuleStage dt m s
/-- What R86 checks of RULE_READ. -/
def cmdRuleRead : CmdDef := .plain 0x0203 8 (offs 2 6)
/-- RULE_READ (R242). -/
def execRuleRead (dt : Nat) (m : Mbox) (s : State) : Host.Outcome State Fault Refusal :=
  mailbox cmdRuleRead hRuleRead dt m s
/-- What R86 checks of FILT_STATUS. -/
def cmdFiltStatus : CmdDef := .plain 0x0204 8 (offs 1 7)
/-- FILT_STATUS (R244). -/
def execFiltStatus (dt : Nat) (m : Mbox) (s : State) : Host.Outcome State Fault Refusal :=
  mailbox cmdFiltStatus hFiltStatus dt m s

/-! ### The switch (R239) -/

/-- What a switch from `old` does to object `o` of channel `c` (R239): it restarts empty where its kind, identifier,
format or size changed; its request is discarded and counted; a frame in the transmit buffer is sent as prepared, and no other follows it. -/
def State.switchObj (s : State) (old : State) (c o : Nat) : State :=
  if [K.objDir, K.objId, K.objFormat, K.objSize].all fun k => s.opar k c o = old.opar k c o then s
  else
    let x := (s.chan c).obj o
    let e := s.engineOf c
    let t := if x.pending then (s.withdraw c (some o)).sendIgnored c else s
    let t := if old.buffers e c o then t.modChan e fun ch =>
        { ch with bufKept := some (ch.bufKept.getD (old.formFrame e c o x.payload)) }
      else t
    t.modObj c o fun _ =>
      { Obj.reset with seq := if s.objDir c o = 0 then 0 else x.seq + 2, empty := decide (2 ≤ s.objDir c o),
                       silent := decide (s.fallbackOn c = some .stop) }

end Sys2Proof.Machine
end

