-- ==== Sys2Proof/Machine/Sched.lean ====
section
/-! DEFINITION. Angle-scheduled transmission and ISO 11898-4 time mode (R246 to R280): occurrences, arming, firing,
windows, misses, reference messages, and the states of a schedule. -/
namespace Sys2Proof.Machine

/-! ### Places and directions (R51, R53, R247) -/

/-- An ANGLE schedule. -/
def Sched.angle (d : Sched) : Bool := d.kind = 1
/-- Under REVERSE_FIRE an ANGLE section fires downward (Table 8.2). -/
def Sched.reverseFire (d : Sched) : Bool := bitOf d.flags 0
/-- The ISO 11898-4 level of a TIME section. -/
def Sched.level (d : Sched) : Nat := d.flags / 2 % 4
/-- The slot is a WINDOW slot. -/
def Slot.window (x : Slot) : Bool := x.kind = 1
/-- The slot's miss policy is LATE. -/
def Slot.lateP (x : Slot) : Bool := x.policy % 4 = 1
/-- The slot is one-shot. -/
def Slot.oneshot (x : Slot) : Bool := bitOf x.policy 2
/-- The slot carries REF. -/
def Slot.refP (x : Slot) : Bool := bitOf x.policy 3

/-- The direction of motion of a schedule: true under REV; TIME runs forward. -/
def State.schedBack (s : State) (d : Sched) : Bool := d.angle && (s.lc d.lc).rev
/-- Where a schedule stands: its coordinate, or TIME. -/
def State.schedPos (s : State) (d : Sched) : W64 := if d.angle then s.lcVal d.lc else s.clk.time
/-- Where a schedule stood at TIME `t`. -/
def State.schedPosAt (s : State) (d : Sched) (t : W64) : W64 := if d.angle then (s.lcAt d.lc t).1 else t

/-- Distance from `at_` to `x` in the direction of motion (R51). -/
def ahead (back : Bool) (x at_ : W64) : Int := if back then (at_ - x).toInt else (x - at_).toInt
/-- The place `k` further in the direction of motion. -/
def onward (back : Bool) (x : W64) (k : Int) : W64 := if back then x - BitVec.ofInt 64 k else x + BitVec.ofInt 64 k

/-- The next occurrence of an ANGLE schedule strictly beyond `at_`, with its slot number (R247). -/
def nextAngle (d : Sched) (at_ : W64) (back : Bool) : Option (Nat × W64) :=
  let off := (at_ - BitVec.ofNat 64 d.base).toInt
  let c : Int := d.cycle
  let dist := fun (x : Slot) => if back then (off - x.pos - 1) % c + 1 else (x.pos - off - 1) % c + 1
  (minBy (fun (y : Slot × Nat) => (dist y.1).toNat) (d.slots.zipIdx.filter fun y => !y.1.absent)).map fun y => (y.2, onward back at_ (dist y.1))

/-- The slot has an occurrence in basic cycle `cc` (R269). -/
def Slot.inCycle (x : Slot) (cc : Nat) : Bool := cc % 2 ^ x.rep = x.baseCycle

/-- The next occurrence of a TIME schedule strictly after `at_`, from the cycle that began at `start` with count `cc`. -/
def nextTime (d : Sched) (start : W64) (cc : Nat) (at_ : W64) : Option (Nat × W64) :=
  let cands := (List.range (d.matrix + 1)).map (fun j => d.slots.zipIdx.filterMap fun y =>
    let t := start + BitVec.ofNat 64 (j * d.cycle + y.1.pos)
    if !y.1.absent && y.1.inCycle ((cc + j) % d.matrix) && 0 < (t - at_).toInt then some (y.2, t) else none) |>.flatten
  minBy (fun y => (y.2 - at_).toNat) cands

/-- The next eligible occurrence beyond `at_`: spent ones are passed over (R256). -/
def Chan.nextOcc (ch : Chan) (d : Sched) (back : Bool) : Nat → W64 → Option (Nat × W64)
  | 0, _ => none
  | fuel + 1, at_ =>
    match if d.angle then nextAngle d at_ back else nextTime d ch.rt.cycleAt ch.rt.cycleCount at_ with
    | some (i, x) => if ch.rt.spent.contains x then ch.nextOcc d back fuel x else some (i, x)
    | none => none

/-- Slot `i` of a schedule. -/
def Sched.slot (d : Sched) (i : Nat) : Slot :=
  (d.slots[i]?).getD { pos := 0, winBefore := 0, winAfter := 0, object := 0, kind := 1, policy := 0, rep := 0,
                       baseCycle := 0, absent := false }

/-- Changes the running schedule of channel `c`. -/
def State.modRt (s : State) (c : Nat) (f : SchedRt → SchedRt) : State :=
  s.modChan c fun ch => { ch with rt := f ch.rt }

/-! ### Prediction (R258) -/

/-- The least time in ns, not negative, at which a motion at speed `w` and acceleration `a` (Q32.32 per second) has
covered `d` (2^-32 units): the root of R258. -/
def rootOf (d w a : Int) : Option Nat :=
  if d = 0 then some 0
  else if a = 0 then
    if w = 0 || (0 < d) ≠ (0 < w) then none else some (d * 1000000000 / w).toNat
  else
    let b := 1000000000 * w
    let disc := b * b + 2000000000000000000 * a * d
    if disc < 0 then none
    else
      let r := wsqrt disc
      let ts := ([(-b + r) / a, (-b - r) / a].filter fun (t : Int) => 0 ≤ t).map Int.toNat
      minBy (fun t => t) ts

/-- The acceleration the prediction uses: none in HOLDOVER (R48). -/
def State.lcAccel (s : State) (n : Nat) : Int := if (s.lc n).st = .track then (s.lc n).accel.toInt else 0

/-- Nanoseconds until a schedule's place is reached (R258); none at standstill or where no root exists. -/
def State.predict (s : State) (d : Sched) (x : W64) : Option Nat :=
  if d.angle then
    let w := s.lcSpd d.lc
    if w = 0 then none else rootOf (x - s.lcVal d.lc).toInt w (s.lcAccel d.lc)
  else
    let t := (x - s.clk.time).toInt
    if t < 0 then none else some t.toNat

/-- The speed predicted `t` ns ahead. -/
def State.speedIn (s : State) (n t : Nat) : Int := s.lcSpd n + s.lcAccel n * t / 1000000000

/-! ### Windows (R260, R261) -/

/-- The windows of a schedule are enforced now (R260). -/
def State.enforced (s : State) (d : Sched) : Bool := !d.angle || (d.winSpeedMin * 0x10000 ≤ (s.lcSpd d.lc).natAbs)

/-- How far ahead of a place the occurrences of a schedule lie whose windows have not ended there, with their slots: for
each slot of an ANGLE schedule the first two of them. -/
def Chan.placesAt (ch : Chan) (d : Sched) (back : Bool) (at_ : W64) : List (Int × Slot) :=
  if d.angle then
    let off := (at_ - BitVec.ofNat 64 d.base).toInt
    let c : Int := d.cycle
    (d.slots.filter fun x => !x.absent).map (fun x =>
      let e : Int := if back then (off - x.pos + x.winAfter - 1) % c + 1 - x.winAfter
        else (x.pos - off + x.winAfter - 1) % c + 1 - x.winAfter
      [(e, x), (e + c, x)]) |>.flatten
  else
    (List.range 3).map (fun j => d.slots.filterMap fun x =>
      if !x.absent && x.inCycle ((ch.rt.cycleCount + d.matrix + j - 1) % d.matrix) then
        let t := ch.rt.cycleAt + BitVec.ofNat 64 (j * d.cycle + x.pos) - BitVec.ofNat 64 d.cycle
        some ((t - at_).toInt, x)
      else none) |>.flatten

/-- The windows of channel `c` that are enforced now, seen from a place: how far ahead each begins, negative for one that
has begun, and its length (R260). Until the boundary of the last switch has been crossed, the occurrences before it are
those of the replaced schedule (R28). -/
def State.windowsAt (s : State) (c : Nat) (at_ : W64) : List (Int × Int) :=
  let ch := s.chan c
  match ch.sched with
  | none => []
  | some d =>
    let back := s.schedBack d
    let all := fun (y : Sched) => if s.enforced y then ch.placesAt y back at_ else []
    let places := match ch.rt.boundary, ch.rt.old with
      | some (b, bk), some o =>
        let new := fun (p : Int × Slot) => decide (0 ≤ ahead bk (onward back at_ p.1) b)
        (if o.angle then (all o).filter fun p => !new p else []) ++ (all d).filter new
      | _, _ => all d
    places.map fun p => (p.1 - p.2.winBefore, p.2.winBefore + p.2.winAfter)

/-- A place lies inside a window of channel `c` (R260). -/
def State.inWindow (s : State) (c : Nat) (at_ : W64) : Bool :=
  (s.windowsAt c at_).any fun w => w.1 ≤ 0 && 0 < w.1 + w.2

/-- An event frame of worst-case duration `dur` (1/16 ns) may start at TIME `t` on channel `c` (R261): outside every window,
and its advance, rounded up, ends before the next one begins. -/
def State.mayStart (s : State) (c : Nat) (t : W64) (dur : Nat) : Bool :=
  match (s.chan c).sched with
  | none => true
  | some d =>
    if (s.chan c).rt.st = .idle then true
    else
      let at_ := s.schedPosAt d t
      let ns := (dur + 15) / 16
      let adv : Int := if d.angle then
          ((2 * (s.lcSpd d.lc).natAbs * ns * 1000000000 + s.par K.lcAccMax d.lc * 0x100000000 * ns * ns +
            1999999999999999999) / 2000000000000000000 : Nat)
        else ns
      s.windowsAt c at_ |>.all fun w => w.1 + w.2 ≤ 0 || adv < w.1

/-- Worst-case duration of an event object's frame (R166, R261). -/
def State.objDuration (s : State) (c o : Nat) : Nat :=
  let fmt := s.opar K.objFormat c o
  (s.cfg c).frameTime (kindNat (kindOf fmt)) true (wirePayload (kindNat (kindOf fmt)) (zs (s.opar K.objSize c o))).length (bitOf fmt 2)

/-! ### Counting (R264) -/

/-- The owner of channel `c` hears a change of state among RUNNING, SUSPENDED and AWAITING_BOUNDARY (R257). -/
def SchedState.code (x : SchedState) : Nat :=
  match x with
  | .idle => 0 | .running => 1 | .suspended => 2 | .awaiting => 3

/-- A change of a schedule's state (R257, Table 8.8). -/
def State.schedState (s : State) (c : Nat) (st : SchedState) (reason : Nat) : State :=
  let old := (s.chan c).rt.st
  let t := s.modRt c fun r => { r with st := st, why := if st = .suspended then reason else r.why }
  if old = st || old = .idle || st = .idle then t
  else t.event (s.chanOwner c) 0x0402 c (le 1 st.code ++ le 1 reason)

/-- Counts a missed occurrence (R264): at `sched.miss_limit` consecutive misses the coordinate's source is raised. -/
def State.countMiss (s : State) (c : Nat) (d : Sched) (x : W64) : State :=
  let n := (s.chan c).rt.missRun + 1
  let t := s.modRt c fun r =>
    { r with missed := r.missed + 1, repMissed := r.repMissed + 1, lastMiss := x, missRun := n }
  if n = s.par K.schedMissLimit 0 && d.angle then t.raiseU (0x60 + d.lc) 0 1 c false (s.par K.lcOwner d.lc) else t

/-- An occurrence has fired or been missed (R256): it is spent, and the next lies beyond it. -/
def State.schedPassed (s : State) (c : Nat) (d : Sched) (x : W64) : State :=
  s.modRt c fun r => { r with last := some x, spent := if d.angle then r.spent ++ [x] else r.spent }

/-- An armed occurrence has fired or been missed: one of a replaced schedule is spent for the new one too, whose own
occurrences before it are still to come (R272). -/
def State.armedPassed (s : State) (c : Nat) (d : Sched) (x : Armed) : State :=
  if x.old then s.modRt c fun r => { r with spent := r.spent ++ [x.coord] } else s.schedPassed c d x.coord

/-- Withdraws the armed occurrence and its prefetched frame (R256). -/
def State.disarm (s : State) (c : Nat) : State :=
  match (s.chan c).rt.armed with
  | none => s
  | some _ =>
    let e := s.engineOf c
    let mine := (s.chan e).bufSched && s.bufferOwn e c
    ((s.modRt c fun r => { r with armed := none }).modChan e fun ch =>
      { ch with txBuf := if mine then none else ch.txBuf, bufSched := ch.bufSched && !mine,
                bufKept := if mine then none else ch.bufKept }).refill e

/-- The direction flag of coordinate `n` has changed, or its value has been set: occurrences are disarmed, and the next
lies in the new direction from where the coordinate is (R256). -/
def State.schedTurn (s : State) (n : Nat) : State :=
  (List.range 32).foldl (fun t c =>
    match (t.chan c).sched with
    | some d =>
      if d.angle && d.lc = n then
        (t.disarm c).modRt c fun r => { r with last := some (t.lcVal n) }
      else t
    | none => t) s

/-! ### States (R257, R274) -/

/-- A twin that has taken over service changes to a sending mode at the next bus idle (R204 step 3). -/
def Chan.willServe (e : Chan) : Bool :=
  e.err.serving && match e.wantMode with
    | some (m, _) => m.sends
    | none => false

/-- The first condition of R257 that suspends the schedule of channel `c`, by the reasons of Table 8.8. -/
def State.suspends (s : State) (c : Nat) (d : Sched) : Nat :=
  let e := s.chan (s.engineOf c)
  let l := (s.lc d.lc).st
  if d.angle && (l = .acquire || l = .lost || l = .noSource) then 1
  else if e.st = .closed || e.st = .sleep || (e.st = .opened && !e.mode.sends && !e.willServe) then 2
  else if e.err.st = .busOff || e.err.st = .busOffHeld then 3
  else if e.st = .retired then 4
  else 0

/-- The coordinate has crossed the boundary of the last switch in the direction of motion (R257, R274). -/
def State.schedCross (s : State) (c : Nat) : State :=
  let ch := s.chan c
  match ch.sched, ch.rt.boundary with
  | some d, some (b, back) =>
    if ahead back b (s.schedPos d) ≤ 0 then
      let t := s.modRt c fun r =>
        { r with boundary := none, old := none, passed := [], last := some (onward back b (-1)) }
      if ch.rt.st = .awaiting then t.schedState c .running 5 else t
    else s
  | _, _ => s

/-- Brings the state of a schedule up to date (R257). -/
def State.schedUpdate (s : State) (c : Nat) : State :=
  match (s.chan c).sched with
  | none => s.schedState c .idle 0
  | some d =>
    let r := s.suspends c d
    if r ≠ 0 then
      if (s.chan c).rt.st = .suspended then s else s.schedState c .suspended r
    else
      let t := s.schedCross c
      let rt := (t.chan c).rt
      match rt.boundary with
      | some (_, back) =>
        if rt.st = .suspended then t.schedState c .awaiting rt.why
        else if rt.st ≠ .awaiting && (s.lcSpd d.lc = 0 || (s.lc d.lc).rev ≠ back) then t.schedState c .awaiting 6
        else if rt.st = .awaiting then t else t.schedState c .running 0
      | none => if rt.st = .running then t else t.schedState c .running rt.why

/-- Counts as missed the slot at position `x` of the replaced schedule `d`, unless it is passed or lies before the
boundary `b`. -/
def State.oldMiss (t : State) (c : Nat) (d : Sched) (b : W64) (bk : Bool) (x : W64) : State :=
  if (t.chan c).rt.passed.contains x || ahead bk b x ≤ 0 then t
  else (t.countMiss c d x).modRt c fun r => { r with passed := r.passed ++ [x] }

/-- Counts as missed the slots of the replaced schedule `d` from position `at_` up to the present one `q`. -/
def oldMissWalk (c : Nat) (d : Sched) (b : W64) (bk : Bool) (q : W64) (back : Bool) : Nat → W64 → State → State
  | 0, _, t => t
  | n + 1, at_, t =>
    match nextAngle d at_ back with
    | some (_, x) =>
      if ahead back x q < 0 || (ahead back x q = 0) then oldMissWalk c d b bk q back n x (t.oldMiss c d b bk x) else t
    | none => t

/-- Counts old-Wafer occurrences that the coordinate passed since the last tick, before the boundary is crossed: each
once (R274). -/
def State.schedOldMisses (s : State) (c : Nat) : State :=
  let rt := (s.chan c).rt
  match rt.old, rt.boundary, rt.seen with
  | some d, some (b, bk), some p =>
    let q := s.schedPos d
    let back := decide ((q - p).toInt < 0)
    if p = q || rt.st ≠ .awaiting || (back && !d.reverseFire) then s
    else oldMissWalk c d b bk q back d.slots.length p s
  | _, _, _ => s

/-! ### Start limits (R263) -/

/-- The place at which an occurrence's attempts end (R263). -/
def startLimit (x : Armed) : W64 := onward x.back x.coord (if x.slot.lateP then x.slot.winAfter else x.tol)

/-- The reference message of an occurrence has neither started nor been counted (R265). -/
def Armed.armWaits (x : Armed) : Bool :=
  match x.arm with
  | some a => !a.spent
  | none => false

/-- Some context linked to object `o` of channel `c` has not come to rest: its set-point frames continue under a fallback
(Table 3.24). -/
def State.axesMove (s : State) (c o : Nat) : Bool :=
  (s.axesOf c o).any fun a => match (s.axis a).st with
    | .track | .target | .stopping => true
    | .inactive | .standstill | .held => false

/-- The slot of an occurrence sends no frame: a fallback silences its object, and no context linked to it moves (Table
3.24). -/
def State.hushed (s : State) (c : Nat) (x : Armed) : Bool :=
  let o := x.slot.object
  ((s.chan c).obj o).silent && !s.axesMove c o

/-- A silenced occurrence that is armed, or waits for another attempt, is over without a frame (Table 3.24). -/
def State.schedHush (s : State) (c : Nat) : State :=
  match (s.chan c).sched with
  | none => s
  | some d =>
    let t := match (s.chan c).rt.flying with
      | some x => if !x.started && s.hushed c x then s.modRt c fun r => { r with flying := none } else s
      | none => s
    match (t.chan c).rt.armed with
    | some x => if t.hushed c x then (t.disarm c).armedPassed c d x else t
    | none => t

/-- Ends occurrences whose start limit has passed, or which come due while the schedule is SUSPENDED (R264). -/
def State.schedExpire (s0 : State) (c : Nat) : State :=
  let s := s0.schedHush c
  let ch := s.chan c
  match ch.sched with
  | none => s
  | some d =>
    let at_ := s.schedPos d
    let s := match ch.rt.flying with
      | some x => if !x.started && ahead x.back (startLimit x) at_ ≤ 0 then s.modRt c fun r => { r with flying := none }
          else s
      | none => s
    match ch.rt.armed with
    | some x =>
      if ahead x.back (startLimit x) at_ ≤ 0 || (ch.rt.st = .suspended && !x.passed && ahead x.back x.coord at_ ≤ 0) then
        (((s.disarm c).countMiss c d x.coord).armedPassed c d x).modRt c fun r =>
          { r with refMissed := if x.armWaits then r.refMissed + 1 else r.refMissed
                   dues := match x.target with
              | some t => if x.blocked then r.dues else r.dues ++ [t]
              | none => r.dues }
      else s
    | none => s

/-- A frame of another node with start `sof` has ended, well or in an error: occurrences of channel `c` whose targets it
covered are blocked (R262); `id` is its identifier, where it has been received. -/
def State.blockedBy (s : State) (c : Nat) (sof : W64) (id : Option W32) : State :=
  let covers := fun (t : W64) => decide (0 ≤ (t - sof).toInt) && decide (0 ≤ (s.clk.time - t).toInt)
  s.modRt c fun r =>
    let hit := match r.armed with
      | some x => !x.blocked && (match x.target with
          | some t => covers t
          | none => false)
      | none => false
    let n := (r.dues.filter covers).length + (if hit then 1 else 0)
    { r with
      armed := r.armed.map fun x => if hit then { x with blocked := true } else x
      dues := []
      blocked := r.blocked + BitVec.ofNat 32 n
      repBlocked := r.repBlocked + BitVec.ofNat 32 n
      lastBlocker := if n = 0 then r.lastBlocker else id.getD r.lastBlocker }

/-! ### The angle reference message (R265 to R267) -/

/-- Nanoseconds of `sched.arm_lead`. -/
def State.armLead (s : State) : Nat := 1000 * s.par K.schedArmLead 0

/-- `n` big-endian bytes. -/
def be (n v : Nat) : List Byte := (le n v).reverse

/-- The first place of a pending commit's boundary strictly beyond `at_` in a direction (R27, R51): on a ROTARY
coordinate only the fraction counts. -/
def State.boundPlace (s : State) (n : Nat) (v at_ : W64) (back : Bool) : Option W64 :=
  if s.par K.lcKind n = 0 then some (onward back at_ ((ahead back v at_ - 1) % 0x100000000 + 1))
  else if 0 < ahead back v at_ then some v
  else none

/-- The boundary that a pending commit waits for (R273). -/
def State.boundOf (s : State) (k : Commit) (back : Bool) : Option W64 :=
  match k.hit with
  | some x => some x.1
  | none => s.boundPlace k.lc k.boundary k.seen back

/-- A commit that would change channel `c`'s schedule is pending with a boundary that does not lie beyond `x`. -/
def State.waferChanges (s : State) (c : Nat) (back : Bool) (x : W64) : Bool :=
  s.commits.any fun k => (k.stage.scheds.lookup c).isSome &&
    (k.lc = 0xFF || match s.boundOf k back with
      | some b => decide (ahead back b x ≤ 0)
      | none => false)

/-- An occurrence at or after the boundary of a pending commit that affects channel `c` belongs to the new
configuration (R28, R273): it is not dealt with before the switch. -/
def State.heldBack (s : State) (c : Nat) (back : Bool) (x : W64) : Bool :=
  s.commits.any fun k => k.chans.contains c && match k.hit with
    | some b => decide (0 ≤ ahead back x b.1)
    | none => false

/-- The next window that begins after the end of the window of an occurrence of slot `sl` at `x` (R266): how far beyond `x`
it begins, its length and the place of its occurrence. -/
def nextWindow (d : Sched) (sl : Slot) (x : W64) (back : Bool) : Option (Int × Nat × W64) :=
  let c : Int := d.cycle
  let cands := (d.slots.filter fun y => !y.absent).map (fun y =>
    let k : Int := (if back then (sl.pos - y.pos - 1 : Int) else y.pos - sl.pos - 1) % c + 1
    [k, k + c].map fun (z : Int) => (z - (y.winBefore : Int), y.winBefore + y.winAfter, onward back x z)) |>.flatten
  minBy (fun w => w.1.toNat) (cands.filter fun w => (sl.winAfter : Int) ≤ w.1)

/-- The target of an occurrence: none where the root is undefined or further than twice the lead (R258); the present
TIME for one whose instant has passed. -/
def State.targetOf (s : State) (d : Sched) (x : W64) (back : Bool) : Option W64 :=
  if ahead back x (s.schedPos d) < 0 then some s.clk.time
  else match s.predict d x with
    | some t => if t ≤ 2 * s.armLead then some (s.clk.time + BitVec.ofNat 64 t) else none
    | none => none

/-- The ARM of an occurrence (R265, R266), with all values fixed at arming. -/
def State.armMsg (s : State) (c : Nat) (d : Sched) (sl : Slot) (x : W64) (back : Bool) : ArmMsg :=
  let n := d.lc
  let coord := onward back x (-(d.refLead : Int))
  let tau := (s.predict d coord).getD 0
  let st := (s.lc n).st
  let w := s.speedIn n tau
  let a := s.lcAccel n
  let nxt : Option (Int × Nat × W64) := (nextWindow d sl x back).map fun y => (y.1 + (d.refLead : Int), y.2.1, y.2.2)
  let wok := decide (d.winSpeedMin * 0x10000 ≤ w.natAbs)
  let valid := match nxt with
    | some y => wok && y.1 < 0x100000000 && !s.waferChanges c back y.2.2
    | none => false
  let ns := match nxt with
    | some y => if valid then (y.1.toNat, y.2.1) else (0, 0)
    | none => (0, 0)
  let clip := fun (b : Nat) (v : Int) => tc b (max (-(2 ^ (b - 1))) (min (2 ^ (b - 1) - 1) v))
  { coord := coord, target := s.targetOf d coord back, fixed := false, spent := false,
    payload := be 1 (16 + 4 * n + flag 1 back + flag 0 (st = .track)) ++ be 1 (s.chan c).rt.armSeq.toNat ++
      be 1 (s.chan c).rt.gen.toNat ++ be 1 (flag 0 (s.par K.lcKind n = 1) + flag 1 valid + flag 2 (st = .holdover)) ++
      be 8 coord.toNat ++ be 4 (clip 32 (rnd w 0x10000)) ++ be 4 (clip 32 (rnd a 0x1000000)) ++ be 4 ns.1 ++ be 4 ns.2 ++
      zs 4 }

/-- A frame without its stamps that carries a payload under an identifier word. -/
def plainFrame (id : Nat) (k : FrameKind) (payload : List Byte) : Frame :=
  let bs := wirePayload (kindNat k) payload
  { id := BitVec.ofNat 32 id, kind := k, brs := false, esi := false, rtr := false, sec := false, own := true,
    arbLost := false, stale := false, loss := false, dlc := dlcOf (kindNat k) bs.length, payload := bs, sdt := 0,
    vcid := 0, af := 0, seq := 0, gen := 0, lcState := 0, time := 0, lcs := [] }

/-- The frame of an angle reference message (R265). -/
def State.armFrame (s : State) (c : Nat) (payload : List Byte) : Frame :=
  let xl := s.par K.chanRefFormat c = 1
  { id := BitVec.ofNat 32 (s.par K.chanRefId c), kind := if xl then .xl else .fd,
    brs := !xl && s.par K.chanRateD c ≠ 0, esi := !xl && (s.chan (s.engineOf c)).err.st = .passive, rtr := false,
    sec := false, own := true, arbLost := false, stale := false, loss := false, dlc := if xl then 31 else 13,
    payload := fit 32 payload, sdt := 0, vcid := 0, af := 0, seq := 0, gen := 0, lcState := 0, time := 0, lcs := [] }

/-! ### Arming (R254, R255) -/

/-- Arms occurrence `x` of an OBJECT slot (R255): the axis contexts are evaluated, the object is packed and prefetched;
an EMPTY object sends nothing and is counted, and one that a fallback silences sends nothing (Table 3.24). -/
def State.armOne (s : State) (c : Nat) (d : Sched) (i : Nat) (x : W64) (back : Bool) : State :=
  let sl := d.slot i
  let o := sl.object
  let tau := (s.predict d x).getD 0
  let tf := s.clk.time + BitVec.ofNat 64 tau
  let gone := decide (ahead back x (s.schedPos d) < 0)
  let hush := ((s.chan c).obj o).silent
  let s1 := ((s.axEvalAll c o x tf (if d.angle then s.speedIn d.lc tau else 0) (!d.angle)).packNow c o).modObj c o fun y =>
    { y with silent := hush }
  let s1 := s1.checkBuffer c o
  let ob := (s1.chan c).obj o
  if hush && !s1.axesMove c o then s1.schedPassed c d x
  else if ob.empty then (s1.modRt c fun r => { r with empty := r.empty + 1 }).schedPassed c d x
  else if ob.storeErr then (s1.countMiss c d x).schedPassed c d x
  else
    let msg := if sl.refP then some (s.armMsg c d sl x back) else none
    let arm : Armed :=
      { slot := sl, tol := d.lateTol, coord := x, back := back, target := s.targetOf d x back, fixed := false,
        started := false, blocked := false, late := gone, retry := false, once := s.oneshot c o, old := false,
        passed := false, arm := msg }
    let s2 := s1.modRt c fun r => { r with armed := some arm }
    let e := s.engineOf c
    let s3 := if h : o < 128 then
        ((s2.displace e false).modChan e fun ch =>
          { ch with txBuf := some (.object ⟨o, h⟩), bufSched := true, bufKept := none }).prefetch c o
      else s2
    if gone && (!d.angle || (s.lcSpd d.lc).natAbs ≤ s.par K.lcSpeedMax d.lc * 0x100000000) then
      s3.raiseU 0x65 0 2 c false 0
    else s3

/-- Deals with the next occurrences of channel `c` (R254): those that cannot be sent any more or come due while
SUSPENDED are missed, WINDOW slots are counted when crossed, and the first that lies within the lead is armed. -/
def State.schedArm (s : State) (c : Nat) : Nat → State
  | 0 => s
  | fuel + 1 =>
    let ch := s.chan c
    match ch.sched with
    | none => s
    | some d =>
      let back := s.schedBack d
      let at_ := s.schedPos d
      if ch.rt.armed.isSome || ch.rt.st = .idle || ch.rt.st = .awaiting || (back && !d.reverseFire) then s
      else match ch.nextOcc d back (ch.rt.spent.length + 1) (ch.rt.last.getD (onward back at_ (-1))) with
        | none => s
        | some (i, x) =>
          let sl := d.slot i
          let gap := ahead back x at_
          if s.heldBack c back x then s
          else if ch.rt.st = .suspended then
            if gap ≤ 0 then ((s.countMiss c d x).schedPassed c d x).schedArm c fuel else s
          else if sl.window then
            if gap ≤ 0 then
              ((s.modRt c fun r =>
                { r with fired := r.fired + 1, revFired := if back then r.revFired + 1 else r.revFired,
                         missRun := 0 }).schedPassed c d x).schedArm c fuel
            else s
          else if gap < 0 && gap + (if sl.lateP then sl.winAfter else d.lateTol : Nat) ≤ 0 then
            ((s.countMiss c d x).schedPassed c d x).schedArm c fuel
          else
            let near := gap < 0 || (match s.predict d x with
              | some t => decide (t ≤ s.armLead)
              | none => false)
            if near && !(d.angle && s.lcSpd d.lc = 0) then
              let t := s.armOne c d i x back
              if (t.chan c).rt.armed.isSome then t else t.schedArm c fuel
            else s

/-- The schedule's share of a dispatch tick (R254, R257, R343). -/
def State.schedTick (s : State) (c : Nat) : State :=
  match (s.chan c).sched with
  | none => s
  | some d =>
    let at_ := s.schedPos d
    let hyst := s.par K.lcDirHyst d.lc
    let s := s.modRt c fun r =>
      { r with spent := r.spent.filter fun x =>
                 if d.angle then (at_ - x).toInt.natAbs ≤ hyst else 0 ≤ (x - r.last.getD at_).toInt,
               cycleAt := if !d.angle && r.last.isNone then s.clk.time else r.cycleAt,
               cycleCount := if !d.angle && r.last.isNone then 0 else r.cycleCount }
    let s := ((s.schedUpdate c).schedOldMisses c).schedExpire c
    (s.schedArm c 8).modRt c fun r =>
      { r with seen := some at_, last := if d.angle then some (r.last.getD (onward (s.schedBack d) at_ (-1))) else r.last }

/-! ### Firing (R258, R259) -/

/-- A target that lies less than 1 µs ahead is not computed again (R258). -/
def State.targetFixed (s : State) (t : Option W64) : Bool :=
  match t with
  | some v => decide ((v - s.clk.time).toInt < 1000)
  | none => false

/-- FIRING_TARGET_UPDATE (R258): the targets of an occurrence and of its reference message are recomputed; each until it lies less than 1 µs ahead, and then fixed. -/
def execFiringTargetUpdate (dt : Nat) (c : Fin 32) (s0 : State) : Host.Outcome State Fault Refusal :=
  let s := s0.elapse dt
  let ch := s.chan c
  match ch.sched, ch.rt.armed with
  | some d, some x =>
    if x.fixed then .next s
    else
      let t := s.targetOf d x.coord x.back
      let msg := x.arm.map fun a =>
        if a.fixed || a.spent then a
        else
          let v := s.targetOf d a.coord x.back
          { a with target := v, fixed := s.targetFixed v }
      .next (s.modRt c fun r => { r with armed := some { x with target := t, fixed := s.targetFixed t, arm := msg } })
  | _, _ => .next s

/-- The engine takes a frame into progress, which started at `sof` (R171). -/
def State.takeOff (s : State) (e : Nat) (w : TxWhat) (sched : Bool) (f : Frame) (sof : W64) : State :=
  s.modChan e fun ch =>
    let mine := decide (ch.txBuf = some w)
    { ch with txNow := some w, nowSched := sched, nowFrame := some f, displaced := [],
              txBuf := if mine then none else ch.txBuf, bufSched := ch.bufSched && !mine,
              bufKept := if mine then none else ch.bufKept, fast := s.fastPhase e f sof }

/-- The frame of a slot's object, in the transmit buffer or formed for another attempt (R28, R175). -/
def State.slotFrame (s : State) (e c o : Nat) (sof : W64) : Frame :=
  match (s.chan e).bufKept with
  | some f => if s.buffers e c o then f else s.formFrame e c o (((s.chan c).obj o).payloadAt sof)
  | none => s.formFrame e c o (((s.chan c).obj o).payloadAt sof)

/-- The first attempt of an armed occurrence starts (R259, R262, R263). -/
def State.fireFirst (s : State) (c : Nat) (d : Sched) (x : Armed) (sof : W64) (blocker : Option W32) : State :=
  let o := x.slot.object
  let late := match x.target with
    | some t => decide (((s.engCfg c).bitA + 320 : Int) < 16 * (sof - t).toInt)
    | none => false
  let t := s.modRt c fun r =>
    { r with
      armed := none
      flying := some { x with started := true, late := late, blocked := x.blocked || blocker.isSome, arm := none }
      refMissed := if x.armWaits then r.refMissed + 1 else r.refMissed
      fired := r.fired + 1
      revFired := if x.back then r.revFired + 1 else r.revFired
      late := if late then r.late + 1 else r.late
      blocked := if blocker.isSome && !x.blocked then r.blocked + 1 else r.blocked
      repBlocked := if blocker.isSome && !x.blocked then r.repBlocked + 1 else r.repBlocked
      lastBlocker := blocker.getD r.lastBlocker
      missRun := 0 }
  let t := t.modObj c o fun y => { y with tried := false, arbLost := false }
  ((t.armedPassed c d x).fbExpect c o { at_ := if d.angle then x.coord else sof, back := x.back, time := !d.angle })

/-- SCHEDULED_FIRE (R259): the frame of the armed occurrence, or the next attempt of one that failed, starts at `sof`,
before its start limit; `blocker` is the frame of another node that held the bus at the target. -/
def execScheduledFire (dt : Nat) (c : Fin 32) (sof : W64) (blocker : Option W32) (s0 : State) :
    Host.Outcome State Fault Refusal :=
  let s := (s0.elapse dt).schedHush c
  let ch := s.chan c
  let e := s.engineOf c
  match ch.sched with
  | none => .next s
  | some d =>
    let inTime := fun (x : Armed) => decide (0 < ahead x.back (startLimit x) (s.schedPosAt d sof)) ||
      decide (x.target = some sof)
    let go := fun (x : Armed) (t : State) =>
      if h : x.slot.object < 128 then
        t.takeOff e (.object ⟨x.slot.object, h⟩) true (s.slotFrame e c x.slot.object sof) sof
      else t
    if !s.canSend e || ch.rt.st = .suspended || (s.chan e).txNow.isSome || ch.passDue.isSome then .next s
    else match ch.rt.flying, ch.rt.armed with
      | some x, _ =>
        if !x.started && inTime x then .next (go x (s.modRt c fun r => { r with flying := some { x with started := true } }))
        else .next s
      | none, some x =>
        let due := match x.target with
          | some t => decide (0 ≤ (busTime sof - t).toInt)
          | none => false
        if due && inTime x then .next (go x (s.fireFirst c d x sof blocker)) else .next s
      | none, none => .next s

/-- What becomes of a reference message that may start at `sof`: it starts within one t_bitA after its target and the 20 ns
of R15 (R259, R265); it is missed where that has passed; none while it waits. -/
def State.armStarts (s : State) (c : Nat) (x : Armed) (a : ArmMsg) (sof : Option W64) : Option Bool :=
  let late := fun (t v : W64) => decide (((s.engCfg c).bitA + 320 : Int) < 16 * (v - t).toInt)
  match a.target, sof with
  | some t, some v => if (busTime v - t).toInt < 0 then none else some (!late t v)
  | some t, none => if late t s.clk.time then some false else none
  | none, _ =>
    match (s.chan c).sched with
    | some d => if ahead x.back a.coord (s.schedPos d) < 0 then some false else none
    | none => some false

/-- ARM_FIRE (R265): the angle reference message of the armed REF slot starts, or is counted in ref_missed; a failed
readback of its payload raises 0x067. -/
def execArmFire (dt : Nat) (c : Fin 32) (sof : Option W64) (readbackOk : Bool) (s0 : State) :
    Host.Outcome State Fault Refusal :=
  let s := s0.elapse dt
  let e := s.engineOf c
  match (s.chan c).rt.armed with
  | some x =>
    match x.arm with
    | some a =>
      match if a.spent then none else s.armStarts c x a sof with
      | some starts =>
        let ok := starts && s.canSend e && (s.chan e).txNow.isNone && (s.chan c).rt.st ≠ .suspended && (s.chan c).passDue.isNone
        let t := s.modRt c fun r =>
          { r with armed := some { x with arm := some { a with spent := true } },
                   refMissed := if ok then r.refMissed else r.refMissed + 1 }
        let t := if readbackOk then t else t.raiseU 0x67 0 2 c false 0
        .next (if ok then t.takeOff e .arm true (s.armFrame c a.payload) (sof.getD 0) else t)
      | none => .next s
    | none => .next s
  | none => .next s

/-- The frame of the reference message of the basic cycle that begins now (R269, R271). -/
def State.refFrame (s : State) (c : Nat) : Frame :=
  let rt := (s.chan c).rt
  let level := ((s.chan c).sched.map Sched.level).getD 1
  plainFrame (s.par K.chanRefId c) .cc (fit (Config.refLen level % 9)
    (Config.refMessage level rt.cycleCount (s.clk.time.toNat / max 1 (s.par K.chanTtcNtu c)) (decide (rt.refGen ≠ s.clk.gen))))

/-- REF_MESSAGE (R269): a basic cycle begins; its reference message starts, or is counted in ref_missed and raises
0x064. -/
def execRefMessage (dt : Nat) (c : Fin 32) (started : Bool) (readbackOk : Bool) (s0 : State) :
    Host.Outcome State Fault Refusal :=
  let s := s0.elapse dt
  let ch := s.chan c
  let e := s.engineOf c
  match ch.sched with
  | none => .next s
  | some d =>
    let next := if ch.rt.last.isNone then ch.rt.cycleAt else ch.rt.cycleAt + BitVec.ofNat 64 d.cycle
    if d.angle || ch.rt.st = .idle || (s.clk.time - next).toInt < 0 then .next s
    else
      let ok := started && readbackOk && s.canSend e && (s.chan e).txNow.isNone && ch.passDue.isNone
      let t := s.modRt c fun r =>
        { r with cycleAt := next, cycleCount := if r.last.isNone then 0 else (r.cycleCount + 1) % d.matrix,
                 last := some (match r.last with
                   | some l => if 0 < (l - next).toInt then l else next
                   | none => next),
                 refMissed := if ok then r.refMissed else r.refMissed + 1 }
      .next (if ok then t.takeOff e .ref true (t.refFrame c) s.clk.time else t.raiseU 0x64 0 1 c false 0)

/-- OCCURRENCE_MISSED (R264): the start limit of an occurrence has passed, or it came due while SUSPENDED. -/
def execOccurrenceMissed (dt : Nat) (c : Fin 32) (s0 : State) : Host.Outcome State Fault Refusal :=
  .next ((s0.elapse dt).schedExpire c)

/-- SCHED_REPORT (R276): at most once per interval, and only when missed or blocked has risen. -/
def execSchedReport (dt : Nat) (c : Fin 32) (s0 : State) : Host.Outcome State Fault Refusal :=
  let s := s0.elapse dt
  let r := (s.chan c).rt
  if (r.repMissed = 0 && r.repBlocked = 0) ||
      (r.reportAt ≠ 0 && !s.passed r.reportAt (1000000 * s.par K.schedReportInterval 0)) then .next s
  else .next ((s.modRt c fun y => { y with repMissed := 0, repBlocked := 0, reportAt := s.now }).event (s.chanOwner c)
    0x0401 c (le 4 r.repMissed.toNat ++ le 4 r.repBlocked.toNat ++ le 4 r.lastBlocker.toNat ++ zs 4 ++
      le 8 r.lastMiss.toNat))

/-- EXCLUSIVE_WINDOW_END (R261): outside every window, event requests that waited take part in the next arbitration. -/
def execExclusiveWindowEnd (dt : Nat) (c : Fin 32) (s0 : State) : Host.Outcome State Fault Refusal :=
  let s := s0.elapse dt
  match (s.chan c).sched with
  | none => .next s
  | some d =>
    if s.inWindow c (s.schedPos d) then .next s
    else .next (s.refill (s.engineOf c))

/-- SCHED_BOUNDARY_CROSSED (R257, R274). -/
def execSchedBoundaryCrossed (dt : Nat) (c : Fin 32) (s0 : State) : Host.Outcome State Fault Refusal :=
  .next ((s0.elapse dt).schedCross c)

/-- The frame of an occurrence ended well (R263); its coordinate stamp, or its TIME, is compared with the occurrence
(R259). -/
def State.flightDone (s : State) (c : Nat) (f : Frame) : State :=
  match (s.chan c).sched, (s.chan c).rt.flying with
  | some d, some x =>
    let at_ := if d.angle then (f.lcs[d.lc]?).getD 0 else f.time
    let diff := sat 0xFFFFFFFF (at_ - x.coord).toInt.natAbs
    s.modRt c fun r => { r with flying := none, errLast := BitVec.ofNat 32 diff,
                                errMax := BitVec.ofNat 32 (max diff r.errMax.toNat) }
  | _, _ => s.modRt c fun r => { r with flying := none }

/-- An attempt of an occurrence failed (R263): it is attempted again unless it is one-shot. -/
def State.flightFail (s : State) (c : Nat) (again : Bool) : State :=
  s.modRt c fun r => { r with flying := if again then r.flying.map fun x => { x with started := false, retry := true } else none }

/-! ### The switch (R28, R272 to R274) -/

/-- The occurrences of a TIME schedule that have come due before a switch, behind the armed one, and have not been dealt
with: WINDOW slots have been crossed, the others are missed (R272; DESIGN CHOICE, log entry 149). -/
def State.schedClose (s : State) (c : Nat) (d : Sched) : Nat → State
  | 0 => s
  | n + 1 =>
    let ch := s.chan c
    match ch.rt.last with
    | none => s
    | some l =>
      match nextTime d ch.rt.cycleAt ch.rt.cycleCount l with
      | none => s
      | some (i, x) =>
        if 0 ≤ (x - s.clk.time).toInt then s
        else if ch.rt.armed.any (fun a => a.coord = x) then
          (s.modRt c fun r => { r with last := some x }).schedClose c d n
        else if (d.slot i).window then
          ((s.modRt c fun r => { r with fired := r.fired + 1, missRun := 0 }).schedPassed c d x).schedClose c d n
        else ((s.countMiss c d x).schedPassed c d x).schedClose c d n

/-- Makes a schedule, or none, active on channel `c`: the generation rises; for a coordinate boundary `b` the new
occurrences begin there; a TIME schedule whose grid changes is aligned anew, and in a grid that stays the new slots begin at
the boundary tick. The frame of an armed occurrence, which is in the transmit buffer, is sent as prepared (R28). -/
def State.switchSched (s : State) (c : Nat) (new : Option Sched) (b : Option W64) : State :=
  let old := (s.chan c).sched
  let same := match old, new with
    | some x, some y => decide (x.kind = y.kind)
    | _, _ => false
  let s : State := if same then s else s.disarm c
  let s : State := match old with
    | some x => if x.angle || (s.chan c).rt.st = .idle then s else s.schedClose c x (x.slots.length * (x.matrix + 1))
    | none => s
  s.modChan c fun ch =>
    let grid := match old, new with
      | some x, some y => decide (x.kind = y.kind && x.cycle = y.cycle && x.matrix = y.matrix && x.level = y.level)
      | _, _ => false
    let back := match new with
      | some y => s.schedBack y
      | none => false
    let rt := { ch.rt with gen := ch.rt.gen + 1, armed := ch.rt.armed.map (fun (a : Armed) => { a with old := true }) }
    let from_ := fun (l : W64) => if (l - s.clk.time).toInt < 0 then s.clk.time - 1 else l
    { ch with
      sched := new
      rt := match new, b with
        | none, _ => { rt with st := .idle, armed := none, flying := none, spent := [], last := none, boundary := none,
                               old := none, passed := [], seen := none }
        | some y, some x =>
          if y.angle then
            { rt with last := some (onward back x (-1)), boundary := some (x, back), old := old, passed := [],
                      st := if rt.st = .idle then .running else rt.st }
          else { rt with last := none }
        | some y, none =>
          { rt with last := if grid && !y.angle then rt.last.map from_ else none, boundary := none, old := none, passed := [],
                    st := if rt.st = .idle then .running else rt.st } }

/-- A channel opens with a TIME schedule: its cycles are aligned at the next tick boundary (R269). -/
def State.schedOpened (s : State) (c : Nat) : State :=
  match (s.chan c).sched with
  | some d => if d.angle then s else (s.disarm c).modRt c fun r => { r with last := none, spent := [] }
  | none => s

/-- R253 and R272 for channel `c` under a view of the parameters. -/
def State.schedConflict (s : State) (v : Nat → Nat → Nat) (c : Nat) (d : Sched) : Bool :=
  let ch := s.chan c
  (d.slots.any fun x => !x.window && v K.objDir (c * 128 + x.object) ≠ 3) ||
    (!d.angle && v K.chanMaxLen c < Config.refLen d.level % 9) ||
    (d.angle && s.par K.lcKind d.lc = 0 && (d.cycle ≠ 0x100000000 || d.base ≠ 0)) ||
    ((d.slots.any (·.refP)) && (!declares (v K.chanFormats c) (if v K.chanRefFormat c = 1 then 2 else 1) ||
      v K.chanMaxLen c < 32)) ||
    (!d.angle && !hasCC (v K.chanFormats c)) ||
    (match ch.sched with
     | some o => !d.angle && !o.angle && (o.cycle ≠ d.cycle || o.matrix ≠ d.matrix || o.level ≠ d.level) &&
         ch.st = .opened && ch.mode.sends
     | none => false)

/-- The evaluation rate of a context linked to object `o` under schedule `d`, in evaluations per 2^64 s (R335). -/
def State.evalRate (s : State) (d : Option Sched) (o : Nat) : Nat :=
  match d with
  | none => 0
  | some d =>
    let mine := d.slots.filter fun x => !x.window && x.object = o
    if d.angle then mine.length * s.par K.lcSpeedMax d.lc * 0x100000000 * 2 ^ 64 / max 1 d.cycle
    else ((mine.map fun x => d.matrix / 2 ^ x.rep).sum) * 1000000000 * 2 ^ 64 / max 1 (d.matrix * d.cycle)

/-- Case 9 of R308: a context above 32,000 evaluations/s, or all above 1,024,000/s. -/
def State.rateConflict (s : State) (v : Nat → Nat → Nat) (sched : Nat → Option Sched) : Bool :=
  let rates := (List.range 128).map fun a =>
    if v K.axChan a = 0xFF then 0 else s.evalRate (sched (v K.axChan a)) (v K.axObj a)
  rates.any (fun r => 32000 * 2 ^ 64 < r) || 1024000 * 2 ^ 64 < rates.sum

end Sys2Proof.Machine
end

