-- ==== Sys2Proof/Machine/SchedCmds.lean ====
section
/-! DEFINITION. Wafers and the commands 0x0400 to 0x0403 (R248 to R252, R275, R279, R280). -/
namespace Sys2Proof.Machine

/-! ### Reading a Wafer (R248 to R250) -/

/-- The slot entry at an offset of a Wafer (Table 8.3). -/
def waferSlot (bs : List Byte) (o : Nat) : Slot :=
  { pos := rd bs o 8, winBefore := rd bs (o + 8) 4, winAfter := rd bs (o + 12) 4, object := rd bs (o + 16) 1,
    kind := rd bs (o + 17) 1, policy := rd bs (o + 18) 1, rep := rd bs (o + 19) 1, baseCycle := rd bs (o + 20) 1,
    absent := false }

/-- Section `k` of a Wafer with `n` sections and its slots, which start at entry `first` (Table 8.2). -/
def waferSection (bs : List Byte) (n k first : Nat) : Sched :=
  let o := 32 + 64 * k
  { kind := rd bs (o + 1) 1, lc := rd bs (o + 2) 1, flags := rd bs (o + 3) 1, matrix := rd bs (o + 6) 1,
    winSpeedMin := rd bs (o + 12) 4, cycle := rd bs (o + 16) 8, base := rd bs (o + 24) 8, lateTol := rd bs (o + 32) 4,
    refLead := rd bs (o + 36) 4, waferId := rd bs 12 4,
    slots := (List.range (rd bs (o + 4) 2)).map fun i => waferSlot bs (32 + 64 * n + 32 * (first + i)) }

/-- A section under check: its number, its channel, the number of its first slot entry, and its schedule. -/
structure Section where
  k : Nat
  chan : Nat
  first : Nat
  d : Sched

/-- The sections of a Wafer, their slots numbered consecutively from 0. -/
def waferSections (bs : List Byte) (n : Nat) : Nat → Nat → List Section
  | 0, _ => []
  | m + 1, first =>
    let k := n - (m + 1)
    let d := waferSection bs n k first
    { k := k, chan := rd bs (32 + 64 * k) 1, first := first, d := d } ::
      waferSections bs n m (first + d.slots.length)

/-! ### Checks (R251) -/

/-- Where a field at fault lies: `sec k f` for field `f` of section `k`, `slot j f` for field `f` of entry `j`. -/
structure Places where
  sec : Nat → Nat → Nat
  slot : Nat → Nat → Nat

/-- The offsets of a Wafer with `n` sections. -/
def Places.wafer (n : Nat) : Places :=
  { sec := fun k f => 32 + 64 * k + f, slot := fun j f => 32 + 64 * n + 32 * j + f }

/-- The offsets within the BASIC request that R280 assigns. -/
def Places.basic : Places :=
  { sec := fun _ f => if f = 0 then 0 else if f = 2 then 1 else if f = 3 then 2 else if f = 4 then 4
      else if f = 16 then 8 else 24
    slot := fun _ f => if f = 0 then 4 else if f = 16 then 3 else if f = 18 then 2 else 24 }

/-- The least of the offsets whose condition holds. -/
def leastBad (l : List (Bool × Nat)) : Option Nat := minBy (fun x => x) ((l.filter (·.1)).map (·.2))

/-- Consecutive pairs of a list with their index. -/
def pairsOf {α : Type} (l : List α) : List ((α × α) × Nat) := (l.zip (l.drop 1)).zipIdx

/-- Step 5: an ANGLE section's cycle, positions and REF windows. -/
def step5 (p : Places) (x : Section) : List (Bool × Nat) :=
  let d := x.d
  if !d.angle then []
  else
    ([(d.cycle < 0x10000 || 2 ^ 63 ≤ d.cycle, p.sec x.k 16)] : List (Bool × Nat)) ++
      (d.slots.zipIdx.map fun y => (decide (d.cycle ≤ y.1.pos), p.slot (x.first + y.2) 0)) ++
      ((pairsOf d.slots).map fun y => (decide (y.1.2.pos ≤ y.1.1.pos), p.slot (x.first + y.2 + 1) 0)) ++
      (d.slots.zipIdx.map fun y => (y.1.refP && y.1.winBefore < d.refLead, p.slot (x.first + y.2) 8))

/-- Two TIME slots lie in one basic cycle, the second `shift` cycles after the first. -/
def sameCycle (a b : Slot) (shift : Nat) : Bool :=
  let m := 2 ^ min a.rep b.rep
  (a.baseCycle + shift) % m = b.baseCycle % m

/-- Step 6: windows that overlap (for a TIME section, those of slots that follow each other in some basic cycle). -/
def step6 (p : Places) (x : Section) : List (Bool × Nat) :=
  let d := x.d
  let hit := fun (a b : Slot) (shift : Nat) => decide (b.pos + shift < a.pos + a.winAfter + b.winBefore)
  if d.angle then
    ((pairsOf d.slots).map fun y => (hit y.1.1 y.1.2 0, p.slot (x.first + y.2) 12)) ++
      (match d.slots.getLast?, d.slots.head? with
       | some z, some a => [(hit z a d.cycle, p.slot (x.first + d.slots.length - 1) 12)]
       | _, _ => [])
  else
    (d.slots.zipIdx.map fun y => d.slots.zipIdx.map fun z =>
      ((y.2 ≠ z.2 && (y.1.pos < z.1.pos || (y.1.pos = z.1.pos && y.2 < z.2)) && sameCycle y.1 z.1 0 && hit y.1 z.1 0) ||
        (sameCycle y.1 z.1 1 && hit y.1 z.1 d.cycle), p.slot (x.first + y.2) 12)).flatten

/-- Step 7: the fields of a section and its slots. -/
def step7 (p : Places) (x : Section) : List (Bool × Nat) :=
  let d := x.d
  let sec : List (Bool × Nat) := if d.angle then [(3 < d.lc, p.sec x.k 2), (d.level ≠ 0, p.sec x.k 3), (d.matrix ≠ 0, p.sec x.k 6)]
    else
      [(d.kind ≠ 2, p.sec x.k 1), (d.lc ≠ 0, p.sec x.k 2), (d.reverseFire || d.level = 0 || d.level = 3, p.sec x.k 3),
       (!([1, 2, 4, 8, 16, 32, 64].contains d.matrix), p.sec x.k 6), (d.winSpeedMin ≠ 0, p.sec x.k 12),
       (d.cycle < 10000 || 1000000000 < d.cycle, p.sec x.k 16), (d.base ≠ 0, p.sec x.k 24), (d.refLead ≠ 0, p.sec x.k 36)]
  sec ++ [(decide (1024 < d.slots.length), p.sec x.k 4)] ++ (d.slots.zipIdx.map fun y =>
    let a := y.1
    let o := p.slot (x.first + y.2)
    let all : List (Bool × Nat) := [(1 < a.kind, o 17), (a.window && a.object ≠ 0, o 16), (127 < a.object, o 16), (a.window && a.policy ≠ 0, o 18)]
    let own : List (Bool × Nat) := if d.angle then [(a.rep ≠ 0, o 19), (a.baseCycle ≠ 0, o 20)]
       else [(a.pos = 0 || d.cycle ≤ a.pos, o 0), (!a.window && a.policy ≠ 4, o 18),
         (6 < a.rep || d.matrix < 2 ^ a.rep, o 19), (2 ^ a.rep ≤ a.baseCycle, o 20)]
    all ++ own).flatten

/-- The BASIC field that generated the value at offset `o` of the Wafer with one section (R280). -/
def basicField (o : Nat) : Nat :=
  if o < 96 then Places.basic.sec 0 (o - 32) else Places.basic.slot ((o - 96) / 32) ((o - 96) % 32)

/-- Steps 5 to 7 over all sections, in this order. -/
def sectionsBad (p : Places) (xs : List Section) : Option Nat :=
  match leastBad (xs.map (step5 p)).flatten with
  | some o => some o
  | none => match leastBad (xs.map (step6 p)).flatten with
    | some o => some o
    | none => leastBad (xs.map (step7 p)).flatten

/-- The slot quota that new schedules would exceed (R252). -/
def State.slotQuota (s : State) (new : List (Nat × Option Sched)) : Bool :=
  16384 < s.slotUse none new ||
    (new.map fun x => s.chanOwner x.1).any fun p => s.par K.partSlotQuota p < s.slotUse (some p) new

/-- Step 8 of R251 on checked sections: rights, retired and busy channels, and the quotas; the status and detail of the
first check that fails. -/
def State.sectionsRefused (s : State) (r : Req) (p : Places) (nospace : Nat) (xs : List Section) : Option (Nat × Nat) :=
  match xs.find? fun x => !s.mayOperate r.part .chan x.chan || (r.form = 1 && !s.expertOn r.part .chan x.chan) with
  | some x => some (stDenied, p.sec x.k 0)
  | none => match xs.find? fun x => s.retired x.chan with
   | some x => some (stRetired, p.sec x.k 0)
   | none => match xs.find? fun x => s.stageBusy r.part (0x10000 + x.chan) with
    | some x => some (stBusy, p.sec x.k 0)
    | none => if s.slotQuota (xs.map fun x => (x.chan, some x.d)) then some (stNoSpace, nospace) else none

/-- The staged copy with the schedules of checked sections. -/
def Stage.withSections (g : Stage) (xs : List Section) : Stage :=
  { g with scheds := (xs.map fun x => (x.chan, some x.d)).foldl (fun m x => putAssoc m x.1 x.2) g.scheds }

/-- Steps 3 and 4 of R251: reserved fields, the order of channels and the numbering of slots. -/
def waferForm (bs : List Byte) (n ns : Nat) : Option (Nat × Nat) :=
  let slot := fun j => 32 + 64 * n + 32 * j
  let three := firstBad [(rd bs 0 2 ≠ 4, 0), (rd bs 2 2 ≠ 1, 2), (n = 0 || 32 < n, 4), (rd bs 5 3 ≠ 0, 5),
    (rd bs 20 8 ≠ 0, 20)]
  let secs := (List.range n).findSome? fun k =>
    let o := 32 + 64 * k
    firstBad [(8 ≤ rd bs (o + 3) 1, o + 3), (rd bs (o + 7) 1 ≠ 0, o + 7), (rd bs (o + 40) 24 ≠ 0, o + 40)]
  let slots := (List.range ns).findSome? fun j =>
    firstBad [(16 ≤ rd bs (slot j + 18) 1 || 2 ≤ rd bs (slot j + 18) 1 % 4, slot j + 18),
      (rd bs (slot j + 21) 11 ≠ 0, slot j + 21)]
  match three, secs, slots with
  | some o, _, _ => some (stRange, o)
  | none, some o, _ => some (stRange, o)
  | none, none, some o => some (stRange, o)
  | none, none, none =>
    let counts := (List.range n).map fun k => rd bs (32 + 64 * k + 4) 2
    let bad := (List.range n).findSome? fun k =>
      let o := 32 + 64 * k
      firstBad [(31 < rd bs o 1 || (0 < k && rd bs o 1 ≤ rd bs (o - 64) 1), o),
        (rd bs (o + 8) 4 ≠ (counts.take k).sum, o + 8)]
    match bad with
    | some o => some (stRange, o)
    | none => if ns ≠ counts.sum then some (stBadLength, 8) else none

/-- The sections of the Wafer in the bulk range (R250). -/
def State.waferOf (s : State) (r : Req) : List Section :=
  let bs := s.bulkIn r
  waferSections bs (rd bs 4 1) (rd bs 4 1) 0

/-- The EXPERT form of SCHED_STAGE, a Wafer: the status and detail of the first check of R251 that fails. -/
def State.waferRefused (s : State) (r : Req) : Option (Nat × Nat) :=
  let bs := s.bulkIn r
  let n := rd bs 4 1
  let ns := rd bs 8 4
  if r.bulkLen < 32 || r.bulkLen ≠ rd bs 16 4 || r.bulkLen ≠ 32 + 64 * n + 32 * ns then some (stBadLength, 16)
  else if s.poisoned (s.bulkBase r.part + r.bulkOff) r.bulkLen ||
      crc32 (bs.take 28 ++ zs 4 ++ bs.drop 32) ≠ rd bs 28 4 then some (stIntegrity, 28)
  else match waferForm bs n ns with
    | some x => some x
    | none => match sectionsBad (Places.wafer n) (s.waferOf r) with
      | some o => some (stRange, o)
      | none => s.sectionsRefused r (Places.wafer n) 8 (s.waferOf r)

/-- The section that R280 generates from a BASIC request. -/
def State.basicSection (s : State) (r : Req) : Section :=
  let fl := r.u 2 1
  let cnt := r.u 4 2
  let cyc := r.u 8 8
  let ph := r.u 16 8
  let wb := r.u 24 4
  let wa := r.u 28 4
  let poss := (List.range cnt).map fun i => ((ph + (i * cyc + cnt / 2) / cnt) % cyc, decide (i = 0))
  let slot := fun (x : Nat × Bool) =>
    { pos := x.1, winBefore := wb, winAfter := wa, object := r.u 3 1, kind := 0,
      policy := flag 0 (bitOf fl 0) + flag 2 (bitOf fl 1) + flag 3 (bitOf fl 2 && x.2), rep := 0, baseCycle := 0,
      absent := false : Slot }
  { k := 0, chan := r.u 0 1, first := 0, d :=
    { kind := 1, lc := r.u 1 1, flags := flag 0 (bitOf fl 3), matrix := 0,
      winSpeedMin := (s.par K.lcSpeedMax (r.u 1 1) * 65536 + 50) / 100, cycle := cyc, base := 0, lateTol := wa / 4,
      refLead := wb, waferId := 0, slots := (poss.mergeSort fun a b => a.1 ≤ b.1).map slot } }

/-- The BASIC form of SCHED_STAGE: the status and detail of the first check that fails (R251, R280). Past the fields
that the generation itself needs, the section is checked as a Wafer that holds it alone: the first field at fault is the
first of that Wafer, and the detail names the field of the request that generated it. -/
def State.basicRefused (s : State) (r : Req) : Option (Nat × Nat) :=
  let x := s.basicSection r
  let w := Places.wafer 1
  match firstBad [(31 < r.u 0 1, 0), (3 < r.u 1 1, 1), (r.u 4 2 = 0 || 1024 < r.u 4 2, 4)], leastBad (step5 w x) with
  | some o, _ => some (stRange, o)
  | none, some o => some (stRange, basicField o)
  | none, none =>
    if r.u 8 8 ≤ r.u 16 8 then some (stRange, 16)
    else match sectionsBad w [x] with
      | some o => some (stRange, basicField o)
      | none => s.sectionsRefused r Places.basic 4 [x]

/-- SCHED_STAGE (R251, R280). -/
def hSchedStage (r : Req) (s : State) : Answer :=
  let xs := if r.form = 1 then s.waferOf r else [s.basicSection r]
  match if r.form = 1 then s.waferRefused r else s.basicRefused r with
  | some (st, o) => .refuse st o
  | none => .done stStaged [] (s.restage r.part fun g => g.withSections xs)

/-- SCHED_CLEAR (R279). -/
def hSchedClear (r : Req) (s : State) : Answer :=
  let c := r.u 0 1
  if 31 < c then .refuse stRange 16
  else if !s.mayOperate r.part .chan c then .refuse stDenied 16
  else if s.retired c then .refuse stRetired 16
  else if s.stageBusy r.part (0x10000 + c) then .refuse stBusy 16
  else .done stStaged [] (s.restage r.part fun g => { g with scheds := putAssoc g.scheds c none })

/-- A slot entry as its 32 bytes (Table 8.3). -/
def Slot.bytes (x : Slot) : List Byte :=
  le 8 x.pos ++ le 4 x.winBefore ++ le 4 x.winAfter ++ le 1 x.object ++ le 1 x.kind ++ le 1 x.policy ++ le 1 x.rep ++
    le 1 x.baseCycle ++ zs 11

/-- A section descriptor as its 64 bytes (Table 8.2). -/
def Sched.bytes (d : Sched) (c first : Nat) : List Byte :=
  le 1 c ++ le 1 d.kind ++ le 1 d.lc ++ le 1 d.flags ++ le 2 d.slots.length ++ le 1 d.matrix ++ zs 1 ++ le 4 first ++
    le 4 d.winSpeedMin ++ le 8 d.cycle ++ le 8 d.base ++ le 4 d.lateTol ++ le 4 d.refLead ++ zs 24

/-- Section descriptors with their slots numbered from `first`. -/
def sectionBytes : List (Nat × Sched) → Nat → List Byte
  | [], _ => []
  | (c, d) :: ds, first => d.bytes c first ++ sectionBytes ds (first + d.slots.length)

/-- The Wafer that holds some channels' schedules (R248). -/
def waferBytes (ds : List (Nat × Sched)) : List Byte :=
  let ns := (ds.map fun x => x.2.slots.length).sum
  let body := sectionBytes ds 0 ++ (ds.map fun x => (x.2.slots.map Slot.bytes).flatten).flatten
  let head := le 2 4 ++ le 2 1 ++ le 1 ds.length ++ zs 3 ++ le 4 ns ++ le 4 (oneId (ds.map fun x => x.2.waferId)) ++
    le 4 (32 + body.length) ++ zs 8
  head ++ le 4 (crc32 (head ++ zs 4 ++ body)) ++ body

/-- SCHED_READ (R279). -/
def hSchedRead (r : Req) (s : State) : Answer :=
  let which := r.u 0 1
  if 1 < which then .refuse stRange 16
  else
    let cs := s.myChans r.part
    bulkReply r (waferBytes (cs.filterMap fun c =>
      ((if which = 0 then (s.chan c).sched else (s.stagedSched c).getD none).map fun d => (c, d)))) s

/-- The SCHED_STATUS response (Table 8.7). -/
def State.schedStatus (s : State) (c : Nat) : List Byte :=
  let ch := s.chan c
  let r := ch.rt
  let d := ch.sched
  le 1 c ++ le 1 ((d.map (·.kind)).getD 0) ++ le 1 ((d.map (·.lc)).getD 0) ++
    le 1 (if d.isSome then r.st.code else 0) ++ le 2 (slotCount d) ++
    le 2 (match s.stagedSched c with
      | some (some y) => y.slots.length
      | some none => 0
      | none => 0xFFFF) ++
    le 4 ((d.map (·.waferId)).getD 0) ++ le 1 r.gen.toNat ++ le 1 (if r.armed.isSome then 1 else 0) ++
    le 2 (match d with
      | some y => if y.angle then 0 else r.cycleCount
      | none => 0) ++
    le 4 r.fired.toNat ++ le 4 r.missed.toNat ++ le 4 r.late.toNat ++ le 4 r.blocked.toNat ++ le 4 r.empty.toNat ++
    le 4 r.refSent.toNat ++ le 4 r.refMissed.toNat ++ le 4 r.revFired.toNat ++ le 4 r.lastBlocker.toNat ++
    le 4 r.errMax.toNat ++ le 4 r.errLast.toNat ++ le 4 r.refFailed.toNat

/-- SCHED_STATUS (R275): CLEAR, for the owner and P0, clears the counts. -/
def hSchedStatus (r : Req) (s : State) : Answer :=
  let c := r.u 0 1
  if 31 < c then .refuse stRange 16
  else
    let clear := bitOf (r.u 1 1) 0
    if clear && !s.mayOperate r.part .chan c then .refuse stDenied 17
    else if s.retired c then .refuse stRetired 16
    else .done stOk (s.schedStatus c) (if clear then s.modRt c fun y =>
      { y with fired := 0, missed := 0, late := 0, blocked := 0, empty := 0, refSent := 0, refMissed := 0, revFired := 0,
               errMax := 0, refFailed := 0 } else s)

/-- What R86 checks of SCHED_STAGE. -/
def cmdSchedStage : CmdDef :=
  { code := 0x0400, len := fun r => if r.form = 1 then 8 else 32,
    resv := fun r => if r.form = 1 then offs 0 8 else [6, 7],
    masks := fun r => if r.form = 1 then [] else [(2, 15)], expert := true, rusk := false }
/-- SCHED_STAGE (R251). -/
def execSchedStage (dt : Nat) (m : Mbox) (s : State) : Host.Outcome State Fault Refusal :=
  mailbox cmdSchedStage hSchedStage dt m s
/-- What R86 checks of SCHED_CLEAR. -/
def cmdSchedClear : CmdDef := .plain 0x0401 8 (offs 1 7)
/-- SCHED_CLEAR (R279). -/
def execSchedClear (dt : Nat) (m : Mbox) (s : State) : Host.Outcome State Fault Refusal :=
  mailbox cmdSchedClear hSchedClear dt m s
/-- What R86 checks of SCHED_READ. -/
def cmdSchedRead : CmdDef := .plain 0x0402 8 (offs 1 7)
/-- SCHED_READ (R279). -/
def execSchedRead (dt : Nat) (m : Mbox) (s : State) : Host.Outcome State Fault Refusal :=
  mailbox cmdSchedRead hSchedRead dt m s
/-- What R86 checks of SCHED_STATUS. -/
def cmdSchedStatus : CmdDef := { CmdDef.plain 0x0403 8 (offs 2 6) with masks := fun _ => [(1, 1)] }
/-- SCHED_STATUS (R275). -/
def execSchedStatus (dt : Nat) (m : Mbox) (s : State) : Host.Outcome State Fault Refusal :=
  mailbox cmdSchedStatus hSchedStatus dt m s

end Sys2Proof.Machine
end

