-- ==== Sys2Proof/Machine/Admission.lean ====
section
/-! DEFINITION. The admission check (R351, Table 11.6), its work and time models (R344, R346, R352 to R354), the
boundary of a commit (R27, R64, R246) and ADMIT_REPORT (R355). -/
namespace Sys2Proof.Machine

/-! ### A configuration under check -/

/-- The configuration of the whole device: parameters, rule lists, schedules and signal sets by channel. -/
structure Conf where
  par : Nat → Nat → Nat
  rules : Nat → RuleList
  sched : Nat → Option Sched
  sigs : Nat → SigSet

/-- The active configuration with a staged copy in place (R351). -/
def State.confWith (s : State) (g : Stage) : Conf :=
  { par := s.viewOf g
    rules := fun c => (g.rules.lookup c).getD (s.chan c).rules
    sched := fun c => (g.scheds.lookup c).getD (s.chan c).sched
    sigs := fun c => (g.sigs.lookup c).getD (s.chan c).sigs }

/-- Parameter `num` of object `o` of channel `c`. -/
def Conf.opar (g : Conf) (num c o : Nat) : Nat := g.par num (c * 128 + o)
/-- The channel configuration of channel `c`. -/
def Conf.cfg (g : Conf) (c : Nat) : ChanCfg := fun num => g.par num c
/-- The defined objects of channel `c`. -/
def Conf.objs (g : Conf) (c : Nat) : List Nat := (List.range 128).filter fun o => g.opar K.objDir c o ≠ 0
/-- Channel `c` is a twin that may come to serve its primary (R203). -/
def Conf.twinOf (g : Conf) (c : Nat) : Bool := c % 2 = 1 && g.par K.chanTwin (c - 1) ≠ 0
/-- The channels whose transmit objects, slots and rules channel `c` may have to serve: its own and, for a twin, its
primary's. -/
def Conf.served (g : Conf) (c : Nat) : List Nat := if g.twinOf c then [c, c - 1] else [c]

/-- A detail word of R351: the check, the kind of index and the index. -/
def admDetail (check kind index : Nat) : Nat := check + 0x100 * kind + 0x10000 * index

/-! ### The boundary (R27, R64, R246) -/

/-- The channels a staged copy affects: those of its tables and of its channel and object keys, and the channels that
an axis context is linked to before or after. -/
def State.affects (s : State) (g : Stage) : List Nat :=
  (List.range 32).filter fun c =>
    g.touches (0x10000 + c) || g.params.any fun kv =>
      match pDesc (kv.1 / 0x100000) with
      | some d => d.res = .axis &&
          (s.par K.axChan (kv.1 % 0x100000) = c || s.viewOf g K.axChan (kv.1 % 0x100000) = c)
      | none => false

/-- The coordinates of the ANGLE schedules, active or committed, of channel `c`; none for a time-driven channel. -/
def State.drives (s : State) (g : Stage) (c : Nat) : List Nat :=
  ([(s.chan c).sched, (s.confWith g).sched c].filterMap fun d => match d with
    | some x => if x.angle then some x.lc else none
    | none => none).eraseDups

/-- The coordinates on which staged SYNC parameters make the commit angle-driven (R64). -/
def State.syncDrives (s : State) (g : Stage) : List Nat :=
  ((List.range 4).filter fun i => g.touches (resKey .sync i)).map fun i => s.viewOf g K.syncLc i

/-- The coordinate of a commit's boundary: `some none` for the next tick, `none` where channels are mixed (R27). -/
def State.boundaryOf (s : State) (g : Stage) : Option (Option Nat) :=
  let cs := s.affects g
  let lcs := (cs.map (s.drives g)).flatten ++ s.syncDrives g
  match lcs.eraseDups with
  | [] => some none
  | [n] => if cs.any fun c => s.drives g c = [] then none else some (some n)
  | _ => none

/-- The channel that the detail word of check 1 names: the lowest that does not agree with the lowest affected one. -/
def State.mixedChan (s : State) (g : Stage) : Option Nat :=
  match s.affects g with
  | c :: cs => cs.find? fun d => s.drives g d ≠ s.drives g c
  | [] => none

/-! ### Checks 2 to 4 -/

/-- The largest payload of a frame kind. -/
def kindMax (kind : Nat) : Nat := if kind = 0 then 8 else if kind = 1 then 64 else 2048

/-- A transmit object needs a frame outside the declaration of its channel (R157, Table 7.9). -/
def Conf.objOutside (g : Conf) (c o : Nat) : Bool :=
  let fmt := g.opar K.objFormat c o
  let k := kindNat (kindOf fmt)
  let n := g.opar K.objSize c o
  2 ≤ g.opar K.objDir c o &&
    (!declares (g.par K.chanFormats c) k || kindMax k < n || (k = 2 && n = 0) ||
      g.par K.chanMaxLen c < (wirePayload k (zs n)).length)

/-- Check 2 for a channel. The device sends XL test frames of one byte on a channel that declares XL (R157, R209), which
have to lie inside the declaration too. -/
def Conf.timingBad (g : Conf) (c : Nat) : Bool :=
  !(g.cfg c).timingOk || (declares (g.par K.chanFormats c) 2 && g.par K.chanMaxLen c = 0) || (g.objs c).any (g.objOutside c)

/-- Check 3 for primary `c` (R203). -/
def Conf.twinBad (g : Conf) (c : Nat) : Bool :=
  let mode := g.par K.chanTwin c
  let t := c + 1
  let tx := fun o => 2 ≤ g.opar K.objDir c o
  let same := [K.chanFormats, K.chanMaxLen, K.chanBrpA, K.chanTseg1A, K.chanTseg2A, K.chanSjwA, K.chanBrpD, K.chanTseg1D,
    K.chanTseg2D, K.chanSjwD].all fun k => g.par k c = g.par k t
  mode ≠ 0 &&
    (g.par K.chanOwner c ≠ g.par K.chanOwner t || ((g.objs t).any fun o => tx o) ||
      (mode = 1 && (!same || (g.objs t).any fun o => 2 ≤ g.opar K.objDir t o)) ||
      (mode = 2 && (g.par K.chanMaxLen t < g.par K.chanMaxLen c ||
        (g.objs c).any fun o => tx o && !declares (g.par K.chanFormats t) (kindNat (kindOf (g.opar K.objFormat c o))))))

/-- A queue that delivery may not name: not an OPEN D2H queue. -/
def State.notD2h (s : State) (q : Nat) : Bool := 63 < q || !(s.queue q).isOpen || s.par K.qDir q ≠ 1

/-- Check 4 for a channel (R223, R241, R412). -/
def State.objectsBad (s : State) (g : Conf) (c : Nat) : Bool :=
  (g.par K.chanMirrorQ c ≠ 0xFF && s.notD2h (g.par K.chanMirrorQ c)) ||
    ((g.objs c).any fun o =>
      (g.opar K.objDeliverQ c o ≠ 0xFF && s.notD2h (g.opar K.objDeliverQ c o)) ||
        (g.opar K.objStartClass c o = 1 && (g.opar K.objDir c o = 3 ||
          (List.range 128).any fun a => g.par K.axChan a = c && g.par K.axDisableObj a = o))) ||
    (g.rules c).rules.any fun r =>
      (bitOf r.action 0 && g.opar K.objDir c r.object ≠ 1) || (bitOf r.action 2 && s.notD2h r.queue) ||
        (bitOf r.action 1 && !(g.sigs c).groups.any fun x => !x.tx && x.key = r.selector)

/-! ### Check 5 -/

/-- The detail of check 5 for a channel: the slot at fault, or the channel. -/
def State.schedBad (s : State) (g : Conf) (c : Nat) : Option Nat :=
  match g.sched c with
  | none => none
  | some d =>
    let refOk := declares (g.par K.chanFormats c) (if g.par K.chanRefFormat c = 1 then 2 else 1) &&
      decide (32 ≤ g.par K.chanMaxLen c)
    match d.slots.findIdx? fun x => (!x.window && g.opar K.objDir c x.object ≠ 3) || (x.refP && !refOk) with
    | some i => some (admDetail 5 5 (c * 1024 + i))
    | none => if s.schedConflict g.par c d then some (admDetail 5 1 c) else none

/-! ### Durations (R166, R346, R352, R353) -/

/-- t_frame of object `o` of channel `x` sent on channel `c`, in sixteenths of a nanosecond. -/
def Conf.frameOf (g : Conf) (c x o : Nat) : Nat :=
  let fmt := g.opar K.objFormat x o
  let k := kindNat (kindOf fmt)
  let n := if k = 0 && bitOf fmt 4 then 0 else (wirePayload k (zs (g.opar K.objSize x o))).length
  (g.cfg c).frameTime k true n (bitOf fmt 2)

/-- t_frame of the ARM on channel `c` (R265). -/
def Conf.armTime (g : Conf) (c : Nat) : Nat :=
  if g.par K.chanRefFormat c = 1 then (g.cfg c).frameTime 2 false 32 true
  else (g.cfg c).frameTime 1 true 32 (decide (g.par K.chanRateD c ≠ 0))

/-- A distance of a schedule lasts at least `t` sixteenths of a nanosecond: at `lc[n].speed_max`, or in ns. -/
def Conf.lasts (g : Conf) (d : Sched) (dist : Int) (t : Nat) : Bool :=
  if d.angle then decide ((t * g.par K.lcSpeedMax d.lc * 0x100000000 : Int) ≤ dist * 16000000000)
  else decide ((t : Int) ≤ 16 * dist)

/-- The distances from slot `i` to the slots that may follow it, the first of the next cycle included. -/
def Sched.nexts (d : Sched) (i : Nat) : List Int :=
  let a := d.slot i
  if d.angle then
    [match d.slots[i + 1]? with
      | some b => (b.pos : Int) - a.pos
      | none => (d.slots.head?.map fun b => ((b.pos + d.cycle : Nat) : Int) - a.pos).getD d.cycle]
  else
    (d.slots.zipIdx.map fun y =>
      (if (a.pos < y.1.pos || (a.pos = y.1.pos && i < y.2)) && sameCycle a y.1 0 then [(y.1.pos : Int) - a.pos] else []) ++
        (if sameCycle a y.1 1 then [((y.1.pos + d.cycle : Nat) : Int) - a.pos] else [])).flatten

/-- The slot before slot `i` of an ANGLE section, and its distance to it. -/
def Sched.before (d : Sched) (i : Nat) : Slot × Int :=
  if i = 0 then
    let z := d.slots.getLast?.getD (d.slot 0)
    (z, ((d.slot 0).pos + d.cycle : Nat) - (z.pos : Int))
  else (d.slot (i - 1), ((d.slot i).pos : Int) - (d.slot (i - 1)).pos)

/-- R352 fails for slot `i` of the schedule of channel `x`, run by channel `c`. -/
def Conf.slotBad (g : Conf) (c x : Nat) (d : Sched) (i : Nat) : Bool :=
  let a := d.slot i
  let gap := (g.cfg c).bitA + 320
  let tf := fun (y : Slot) => if y.window then 0 else g.frameOf c x y.object
  !a.window &&
    (!g.lasts d a.winAfter (tf a) || (d.nexts i).any (fun k => !g.lasts d k (tf a + gap)) ||
      (a.refP && (!g.lasts d d.refLead (g.armTime c + gap) ||
        !g.lasts d ((d.before i).2 - d.refLead) (tf (d.before i).1 + gap))))

/-- Check 9: the first slot that does not fit. -/
def Conf.slotFit (g : Conf) (c : Nat) : Option Nat :=
  (g.served c).findSome? fun x => match g.sched x with
    | some d => ((List.range d.slots.length).find? (g.slotBad c x d)).map fun i => admDetail 9 5 (x * 1024 + i)
    | none => none

/-- The event objects that channel `c` may have to send, with their channels, in the bus order of R238. -/
def Conf.events (g : Conf) (c : Nat) : List (Nat × Nat) :=
  (((g.served c).map fun x => ((g.objs x).filter fun o => g.opar K.objDir x o = 2).map fun o => (x, o)).flatten).mergeSort
    fun a b => busKey (g.opar K.objId a.1 a.2) a.2 ≤ busKey (g.opar K.objId b.1 b.2) b.2

/-- T_prio of each event object with its own t_frame (R346), in sixteenths of a nanosecond. -/
def Conf.prios (g : Conf) (c : Nat) : List (Nat × Nat) :=
  let ts := (g.events c).map fun e => g.frameOf c e.1 e.2
  ts.zipIdx.map fun y => ((ts.take y.2).sum + 16 * g.par K.chanForeignPrio c, y.1)

/-- The windows of a schedule over one whole cycle or matrix: basic cycle, start and length, in order. -/
def Sched.windows (d : Sched) : List (Nat × Int × Nat) :=
  let all := if d.angle then d.slots.map fun x => (0, (x.pos : Int) - x.winBefore, x.winBefore + x.winAfter)
    else ((List.range d.matrix).map fun j => d.slots.filterMap fun x =>
      if x.inCycle j then some (j, ((j * d.cycle + x.pos : Nat) : Int) - x.winBefore, x.winBefore + x.winAfter) else none).flatten
  (all.filter fun w => w.2.2 ≠ 0).mergeSort fun a b => a.2.1 ≤ b.2.1

/-- Length of each window with the gap that follows it and the basic cycle it lies in. -/
def Sched.gaps (d : Sched) : List (Nat × Nat × Int) :=
  let ws := d.windows
  let period : Int := if d.angle then d.cycle else (d.matrix * d.cycle : Nat)
  ws.zipIdx.map fun y =>
    let nxt : Int := match ws[y.2 + 1]? with
      | some w => w.2.1
      | none => (ws.head?.map fun w => w.2.1 + period).getD 0
    (y.1.1, y.1.2.2, nxt - y.1.2.1 - y.1.2.2)

/-- The longest stretch of windows joined by gaps that are too short (R353), over a cyclic list of window lengths and
gaps with a mark on the long ones. -/
def joinedMax (ws : List (Nat × Int × Bool)) : Int :=
  let k := ws.findIdx fun w => w.2.2
  ((ws.drop (k + 1) ++ ws.take (k + 1)).foldl (fun (a : Int × Int) w =>
    let cur := a.2 + w.1
    if w.2.2 then (max a.1 cur, 0) else (a.1, cur + w.2.1)) (0, 0)).1

/-- What R353 finds for channel `c` under one schedule: whether it refuses, W_excl in the section's distance, and
whether windows are joined. -/
def Conf.gapCheck (g : Conf) (c : Nat) (d : Sched) : Bool × Int × Bool :=
  let gs := d.gaps
  let ps := g.prios c
  let long := fun (p : Nat × Nat) (k : Int) => g.lasts d k (p.1 + p.2)
  if gs.isEmpty then (false, 0, false)
  else if ps.isEmpty then (false, 0, false)
  else
    let refuse := (d.angle && d.winSpeedMin = 0) || ps.any fun p =>
      ((gs.map (·.1)).eraseDups).any fun j => !gs.any fun w => w.1 = j && long p w.2.2
    (refuse, (ps.map fun p => joinedMax (gs.map fun w => (w.2.1, w.2.2, long p w.2.2))).foldl max 0,
      ps.any fun p => gs.any fun w => !long p w.2.2)

/-- Check 10 for a channel. -/
def Conf.gapBad (g : Conf) (c : Nat) : Bool :=
  (g.served c).any fun x => match g.sched x with
    | some d => (g.gapCheck c d).1
    | none => false

/-- W_excl in ns (R260, R353). -/
def Conf.wExcl (g : Conf) (c : Nat) : Nat :=
  match g.sched c with
  | some d =>
    let k := (g.gapCheck c d).2.1
    if d.angle then (if d.winSpeedMin = 0 then 0 else (divRound (k * 1000000000) (d.winSpeedMin * 0x10000)).toNat) else k.toNat
  | none => 0

/-- The shortest gap between windows in ns at `lc[n].speed_max`; 0xFFFF_FFFF without windows. -/
def Conf.gMin (g : Conf) (c : Nat) : Nat :=
  match g.sched c with
  | some d =>
    match d.gaps with
    | [] => 0xFFFFFFFF
    | w :: ws =>
      let k := ws.foldl (fun a x => min a x.2.2) w.2.2
      let ns := if d.angle then k * 1000000000 / (max 1 (g.par K.lcSpeedMax d.lc) * 0x100000000 : Nat) else k
      sat 0xFFFFFFFF ns.toNat
  | none => 0xFFFFFFFF

/-! ### Data-core work (R344) -/

/-- A set of frames that the conditions of rules describe (R224): identifier, kinds, length and the XL fields. -/
structure Pattern where
  idMask : Nat
  idValue : Nat
  kinds : Nat
  lenMin : Nat
  lenMax : Nat
  sdtMask : Nat
  sdtValue : Nat
  vcidMask : Nat
  vcidValue : Nat
  afMask : Nat
  afValue : Nat

/-- Every frame. -/
def Pattern.all : Pattern :=
  { idMask := 0, idValue := 0, kinds := 15, lenMin := 0, lenMax := 2048, sdtMask := 0, sdtValue := 0, vcidMask := 0,
    vcidValue := 0, afMask := 0, afValue := 0 }

/-- The frames of a pattern that a rule matches, if there is one. -/
def Pattern.meet (p : Pattern) (r : Rule) : Option Pattern :=
  let e := r.ext.getD { lenMin := 0, lenMax := 2048, sdtValue := 0, sdtMask := 0, vcidValue := 0, vcidMask := 0,
                        afValue := 0, afMask := 0 }
  let clash := fun (m v n w : Nat) => (v ^^^ w) &&& m &&& n ≠ 0
  if clash p.idMask p.idValue r.idMask r.idValue || clash p.sdtMask p.sdtValue e.sdtMask e.sdtValue ||
      clash p.vcidMask p.vcidValue e.vcidMask e.vcidValue || clash p.afMask p.afValue e.afMask e.afValue ||
      p.kinds &&& r.kinds = 0 || min p.lenMax e.lenMax < max p.lenMin e.lenMin then none
  else some
    { idMask := p.idMask ||| r.idMask, idValue := p.idValue ||| r.idValue, kinds := p.kinds &&& r.kinds,
      lenMin := max p.lenMin e.lenMin, lenMax := min p.lenMax e.lenMax, sdtMask := p.sdtMask ||| e.sdtMask,
      sdtValue := p.sdtValue ||| e.sdtValue, vcidMask := p.vcidMask ||| e.vcidMask,
      vcidValue := p.vcidValue ||| e.vcidValue, afMask := p.afMask ||| e.afMask, afValue := p.afValue ||| e.afValue }

/-- The cost on core `k` of an item for queue `q` written on behalf of a channel that core `core` serves. -/
def Conf.itemCost (g : Conf) (c core q k : Nat) : Nat :=
  let w := (64 + g.par K.chanMaxLen c + 31) / 32
  let qc := g.par K.qCore q
  if 63 < q then 0
  else if qc = core then (if k = core then 20 + 2 * w else 0)
  else if k = core then 10
  else if k = qc then 15 + 2 * w
  else 0

/-- The cost on core `k` of a rule's actions; the rule belongs to channel `x`, the ring to channel `c`. -/
def Conf.actionCost (g : Conf) (c x core k : Nat) (r : Rule) : Nat :=
  (if bitOf r.action 0 then
    (if k = core then 10 + 2 * ((min (g.par K.chanMaxLen c) (g.opar K.objSize x r.object) + 31) / 32) else 0) +
      g.itemCost c core (g.opar K.objDeliverQ x r.object) k else 0) +
  (if bitOf r.action 1 && k = core then 5 else 0) +
  (if bitOf r.action 2 then g.itemCost c core r.queue k else 0)

/-- The costliest run of matching rules from a list on, for frames of a pattern; `more` says that a rule matched. -/
def costliest (cost : Rule → Nat) (own : Bool) : Bool → Pattern → List Rule → Nat
  | _, _, [] => 0
  | more, p, r :: rs =>
    max (costliest cost own more p rs)
      (match p.meet r with
       | some q => (if more && own then 20 else 0) + cost r +
           (if bitOf r.flags 0 && r.action ≠ 0 then costliest cost own true q rs else 0)
       | none => 0)

/-- The cost on core `k` of the most expensive entry of channel `c`'s ring, served by `core`. -/
def Conf.entryCost (g : Conf) (c core k : Nat) : Nat :=
  let own := decide (k = core)
  (if own then 40 * (g.served c).length else 0) + g.itemCost c core (g.par K.chanMirrorQ c) k +
    ((g.served c).map fun x => costliest (g.actionCost c x core k) own false Pattern.all (g.rules x).rules).sum

/-- Channel `c` counts as served (R344); `force` names a channel that is counted in any case. -/
def State.counts (s : State) (g : Conf) (force : Option Nat) (c : Nat) : Bool :=
  let ch := s.chan c
  force = some c ||
    (!(ch.st = .retired && ch.err.byTwin) &&
      (ch.st = .opened || ch.st = .sleep || !(g.objs c).isEmpty || !(g.rules c).rules.isEmpty || (g.sched c).isSome ||
        !(g.sigs c).groups.isEmpty || g.par K.chanMirrorQ c ≠ 0xFF))

/-- W_core of core `k` in ns (R344). -/
def State.coreWork (s : State) (g : Conf) (force : Option Nat) (k : Nat) : Nat :=
  let cs := (List.range 32).filter (s.counts g force)
  let chans := cs.map fun c =>
    let core := (s.chan c).core
    let b := g.par K.chanFiltBatch c
    b * g.entryCost c core k +
      (if core = k then 5 + 50 * ((g.served c).filter fun x => (g.sched x).isSome).length else 0)
  let queues := (List.range 64).map fun q =>
    if !(s.queue q).isOpen || g.par K.qDir q ≠ 0 then 0
    else
      let far := cs.filter fun c => g.par K.chanOwner c = g.par K.qOwner q && (s.chan c).core ≠ s.qServer q
      if s.qServer q = k then 5 + g.par K.qBatch q * (157 + if far.isEmpty then 0 else 10)
      else if far.any fun c => (s.chan c).core = k then g.par K.qBatch q * 147
      else 0
  100 + chans.sum + queues.sum

/-! ### Gateway work (R354) -/

/-- Cycles of a group's work (R301). -/
def Group.cycles (x : Group) : Nat := 32 + 4 * x.count

/-- The gateway cycles that channel `c` can request in one tick. -/
def Conf.gwCycles (g : Conf) (c : Nat) : Nat :=
  let gs := (g.sigs c).groups
  let rx := gs.filter fun x => !x.tx
  let per := rx.map fun x => ((rx.filter fun y => y.key = x.key).map Group.cycles).sum
  let objs := match g.sched c with
    | some d => ((d.slots.filter fun (x : Slot) => !x.window).map fun (x : Slot) => x.object).eraseDups
    | none => []
  g.par K.chanFiltBatch c * per.foldl max 0 + ((gs.filter fun x => x.tx && objs.contains (x.key % 128)).map Group.cycles).sum

/-! ### The check (R351) -/

/-- The channels in ascending order. -/
def allChans : List Nat := List.range 32

/-- The first check of Table 11.6 that fails, as its detail word; 0 where all pass. -/
def State.admission (s : State) (stage : Stage) (force : Option Nat) : Nat :=
  let g := s.confWith stage
  let tick := s.tickNs
  let at_ := fun (check : Nat) (f : Nat → Bool) => (allChans.find? f).map fun c => admDetail check 1 c
  let checks : List (Unit → Option Nat) :=
    [fun _ => if (s.boundaryOf stage).isNone then some (match s.mixedChan stage with
        | some c => admDetail 1 1 c
        | none => 1) else none,
     fun _ => at_ 2 g.timingBad,
     fun _ => (allChans.find? fun c => c % 2 = 0 && g.twinBad c).map fun c => admDetail 3 1 c,
     fun _ => at_ 4 (s.objectsBad g),
     fun _ => allChans.findSome? (s.schedBad g),
     fun _ => at_ 6 fun c => s.sigConflict g.par c (g.sigs c) (g.rules c),
     fun _ => ((List.range 128).find? (s.axConflict g.par g.sigs)).map fun a => admDetail 7 3 a,
     fun _ => if 1000 * g.par K.schedArmLead 0 < 3 * tick + 4000 then some (admDetail 8 0 0) else none,
     fun _ => allChans.findSome? g.slotFit,
     fun _ => at_ 10 g.gapBad,
     fun _ =>
       let rate := fun a => if g.par K.axChan a = 0xFF then 0 else s.evalRate (g.sched (g.par K.axChan a)) (g.par K.axObj a)
       match (List.range 128).find? fun a => 32000 * 2 ^ 64 < rate a with
       | some a => some (admDetail 11 3 a)
       | none => if s.rateConflict g.par g.sched then some (admDetail 11 0 0) else none,
     fun _ => ((List.range 4).find? fun k => tick < s.coreWork g force k + 200).map fun k => admDetail 12 2 k,
     fun _ => match allChans.find? fun c => 3 * tick < 5 * g.gwCycles c with
       | some c => some (admDetail 13 1 c)
       | none => if 6 * tick < 5 * (allChans.map g.gwCycles).sum then some (admDetail 13 0 0) else none]
  (checks.findSome? fun f => f ()).getD 0

/-- The check that CHAN_OPEN and FAULT_REQUALIFY run for a channel the active configuration does not count (R180,
R209); 0 where it passes or is not needed. -/
def State.admitOpen (s : State) (c : Nat) : Nat :=
  if s.counts (s.confWith Stage.empty) none c then 0 else s.admission Stage.empty (some c)

/-! ### ADMIT_REPORT (R355) -/

/-- The report on a configuration (Tables 11.7 and 11.8). -/
def State.admitReport (s : State) (stage : Stage) : List Byte :=
  let g := s.confWith stage
  let detail := s.admission stage none
  let tick := s.tickNs
  let evals := ((List.range 128).map fun a =>
    if g.par K.axChan a = 0xFF then 0 else s.evalRate (g.sched (g.par K.axChan a)) (g.par K.axObj a)).sum
  let head := le 4 tick ++ le 2 Config.coreFloor ++ le 1 (detail % 256) ++ zs 1 ++ le 4 detail ++
    le 4 (sat 0xFFFFFFFF (allChans.map g.gwCycles).sum) ++ le 4 (tick * 6 / 5) ++
    le 4 (sat 0xFFFFFFFF (divRound evals (2 ^ 64)).toNat) ++
    ((List.range 4).map fun k => le 4 (sat 0xFFFFFFFF (s.coreWork g none k))).flatten ++ le 4 (tick - 200) ++ zs 4
  let rec_ := fun c =>
    let ps := g.prios c
    let kind := (g.sched c).map (·.kind)
    let joined := match g.sched c with
      | some d => (g.gapCheck c d).2.2
      | none => false
    le 1 c ++ le 1 (s.chan c).core ++ le 1 (flag 0 (kind = some 1) + flag 1 (kind = some 2) + flag 2 joined) ++ zs 1 ++
      le 4 (ns16 (g.cfg c).frameMax) ++ le 4 (sat 0xFFFFFFFF (ns16 ((ps.map (·.1)).foldl max 0))) ++
      le 4 (sat 0xFFFFFFFF (g.wExcl c)) ++ le 4 (g.gMin c) ++
      le 4 (g.entryCost c (s.chan c).core (s.chan c).core) ++ le 4 (ns16 ((ps.map (·.2)).foldl max 0)) ++ le 4 (g.gwCycles c)
  head ++ (allChans.map rec_).flatten

/-- ADMIT_REPORT (R355, R357). -/
def hAdmitReport (r : Req) (s : State) : Answer :=
  let which := r.u 0 1
  if 1 < which then .refuse stRange 16
  else if which = 1 && !(s.stage r.part).any then .refuse stState 16
  else if r.bulkLen < 1072 then .refuse stBadLength 12
  else
    let bs := s.admitReport (if which = 1 then s.stage r.part else Stage.empty)
    .done stOk (le 4 1072 ++ [bs[6]?.getD 0] ++ zs 3) (s.storeWrite (s.bulkBase r.part + r.bulkOff) bs)

/-- What R86 checks of ADMIT_REPORT. -/
def cmdAdmitReport : CmdDef := .plain 0x0024 8 (offs 1 7)
/-- ADMIT_REPORT (R355). -/
def execAdmitReport (dt : Nat) (m : Mbox) (s : State) : Host.Outcome State Fault Refusal :=
  mailbox cmdAdmitReport hAdmitReport dt m s

end Sys2Proof.Machine
end

