-- ==== Sys2Proof/Machine/AgeBase.lean ====
section
/-! DEFINITION. The ageing history (R435) and the records of the planner's decisions (Tables 14.3 to 14.5). -/
namespace Sys2Proof.Machine

/-- A history record with the stamps of now. -/
def State.hist (s : State) (kind subject flags a b c d : Nat) : Hist :=
  { kind := kind, subject := subject, flags := flags, hours := s.keep.poh, time := s.clk.time, a := a, b := b, c := c,
    d := d, seq := 0 }

/-- Writes a record into the daily ring of 32,768 records (R435). -/
def State.histDaily (s : State) (x : Hist) : State :=
  { s with keep := { s.keep with
      daily := (s.keep.daily ++ [{ x with seq := s.keep.dailySeq }]).drop (s.keep.daily.length + 1 - 32768)
      dailySeq := s.keep.dailySeq + 1 } }

/-- Writes a record into the long ring of 12,288 records (R435). -/
def State.histLong (s : State) (x : Hist) : State :=
  { s with keep := { s.keep with
      long := (s.keep.long ++ [{ x with seq := s.keep.longSeq }]).drop (s.keep.long.length + 1 - 12288)
      longSeq := s.keep.longSeq + 1 } }

/-- A decision that is proposed only, or that was superseded, goes to the history alone (R430, Table 14.2). -/
def State.noteDecision (s : State) (subject flags : Nat) (old new : Int) (index reason : Nat) : State :=
  s.histDaily (s.hist 5 subject flags (tc 32 old) (tc 32 new) index reason)

/-- A decision that is applied (R435, Table 14.5): counted, recorded, and logged with an event-log kind. -/
def State.decision (s : State) (subject flags : Nat) (old new : Int) (index reason : Nat) (kind lx lc lv : Nat) : State :=
  let t := s.noteDecision subject flags old new index reason
  { t with age := { t.age with decisions := t.age.decisions + 1 } }.log kind 0 lx lc 0 lv

/-- CORE takes a new frequency (R426): 1 plan, 2 fast lower, 3 restore. -/
def State.setCore (s : State) (mhz reason flags : Nat) : State :=
  let t := { s with age := { s.age with mhz := mhz }, keep := { s.keep with coreRec := mhz } }
  t.decision 1 flags s.age.mhz mhz 0 reason 0x28 0 reason mhz

end Sys2Proof.Machine
end

