-- ==== Sys2Proof/Machine/ChanBase.lean ====
section
/-! DEFINITION. Channel states, error counters, LONE, attempts and their ends, and retirement (R154 to R208). -/
namespace Sys2Proof.Machine

/-- Changes the error state of channel `c`. -/
def State.modErr (s : State) (c : Nat) (f : ChErr → ChErr) : State := s.modChan c fun ch => { ch with err := f ch.err }
/-- Changes the diagnostic counters of channel `c`. -/
def State.modDiag (s : State) (c : Nat) (f : Diag → Diag) : State := s.modChan c fun ch => { ch with diag := f ch.diag }
/-- Changes the counters of CHAN_STATUS of channel `c`. -/
def State.modStat (s : State) (c : Nat) (f : ChStat → ChStat) : State := s.modChan c fun ch => { ch with stat := f ch.stat }

/-- An event to the owner of channel `c`. -/
def State.chanEvent (s : State) (c ty : Nat) (payload : List Byte) : State := s.event (s.chanOwner c) ty c payload

/-- The number of a mode in CHAN_OPEN (Table 5.11). -/
def ChMode.code (m : ChMode) : Nat :=
  match m with
  | .normal => 0 | .restricted => 1 | .monitor => 2 | .loopInt => 3 | .loopExt => 4

/-- The mode of a number. -/
def modeOf (v : Nat) : ChMode :=
  match v with
  | 1 => .restricted | 2 => .monitor | 3 => .loopInt | 4 => .loopExt | _ => .normal

/-- The mode keeps error counters (Table 5.8). -/
def ChMode.counts (m : ChMode) : Bool :=
  match m with
  | .normal | .loopInt | .loopExt => true
  | .restricted | .monitor => false

/-- The code of an error state (Table 6.1). -/
def ErrSt.code (x : ErrSt) : Nat :=
  match x with
  | .active => 0 | .passive => 1 | .busOff => 2 | .busOffHeld => 3

/-- Bus-off, with or without the recovery sequence. -/
def ErrSt.off (x : ErrSt) : Bool := x = .busOff || x = .busOffHeld

/-- The mode byte of CHAN_MODE_CHANGED: the mode while OPEN, 5 in SLEEP, 0xFF otherwise. -/
def Chan.modeByte (ch : Chan) : Nat := if ch.st = .opened then ch.mode.code else if ch.st = .sleep then 5 else 0xFF

/-! ### Counters and error states (R184 to R188) -/

/-- An ERR_STATE event (Table 6.6). -/
def State.errEvent (s : State) (c : Nat) (old : ErrSt) : State :=
  let e := (s.chan c).err
  let w := s.par K.chanWarnLevel c
  s.chanEvent c 0x0105 (le 1 old.code ++ le 1 e.st.code ++ le 2 e.tec ++ le 2 e.recv ++
    le 1 (if w ≤ e.tec || w ≤ e.recv then 1 else 0))

/-- A change of the error state alone, with its event and the state of the schedules it serves. -/
def State.errState (s : State) (c : Nat) (st : ErrSt) : State :=
  let old := (s.chan c).err.st
  if old = st then s
  else
    let t := (s.modErr c fun e => { e with st := st }).errEvent c old
    (t.schedUpdate c).schedUpdate (c - 1)

/-- A permanent cause is detected on channel `c` (R195, R199, R200): the engine makes no new attempt, and the frame
that may be in progress runs to its end; on a RETIRED channel the cause is only recorded. -/
def State.addCause (s : State) (c cause : Nat) : State :=
  let ch := s.chan c
  if ch.st = .retired then s.raiseU c cause 2 c false (s.chanOwner c)
  else if ch.err.causes.contains cause then s
  else (s.displace c false).modErr c fun e =>
    { e with causes := e.causes ++ [cause]
             causeTick := if cause ≠ 0x20 && e.causes.all (· = 0x20) then s.dev.tick else e.causeTick }

/-- The window of `boff_window` in ns. -/
def State.boffWindow (s : State) (c : Nat) : Nat := 1000000 * s.par K.chanBoffWindow c

/-- Entry to bus-off (R186 to R188): counted with its time; within the budget a transient upset, else a permanent
cause; without a delay the recovery sequence starts at once. -/
def State.enterBusOff (s : State) (c : Nat) : State :=
  let e := (s.chan c).err
  let times := s.now :: e.offTimes.filter fun t => s.now ≤ t + s.boffWindow c
  let st := if s.par K.chanBoffRecovery c = 0 && s.par K.chanBoffDelay c = 0 then ErrSt.busOff else .busOffHeld
  let t := (s.modErr c fun x => { x with offTimes := times }).modDiag c fun d => { d with busOffs := d.busOffs + 1 }
  let t := t.errState c st
  if s.par K.chanBoffLimit c < times.length then t.addCause c 0x10
  else t.raiseU c 2 0 c false (s.chanOwner c)

/-- The counters of channel `c` take new values (R184, R185): peaks, the warning, and the state they lead to. -/
def State.setCounts (s : State) (c tec recv : Nat) : State :=
  let ch := s.chan c
  let e := ch.err
  let w := s.par K.chanWarnLevel c
  let tec := sat 0xFFFF tec
  let recv := sat 0xFFFF recv
  let t := (s.modErr c fun x => { x with tec := tec, recv := recv }).modDiag c fun d =>
    { d with tecPeak := max d.tecPeak tec, recPeak := max d.recPeak recv }
  if e.st.off then t
  else if 255 < tec then t.enterBusOff c
  else
    let st := if 128 ≤ tec || 128 ≤ recv then ErrSt.passive else .active
    let cross := (e.tec < w && w ≤ tec) || (e.recv < w && w ≤ recv) || ((w ≤ e.tec || w ≤ e.recv) && tec < w && recv < w)
    if st ≠ e.st then
      let u := t.errState c st
      if st = .passive then
        (u.modDiag c fun d => { d with passives := d.passives + 1 }).raiseU c 1 0 c false (s.chanOwner c)
      else u
    else if cross then t.errEvent c e.st
    else t

/-- The counters of channel `c` change by functions, where its mode keeps them and it is not bus-off. -/
def State.bumpCounts (s : State) (c : Nat) (f g : Nat → Nat) : State :=
  let ch := s.chan c
  if ch.mode.counts && !ch.err.st.off then s.setCounts c (f ch.err.tec) (g ch.err.recv) else s

/-- The receive error counter after a correct reception (ISO 11898-1, PRESUMED, log entry 7). -/
def recDown (r : Nat) : Nat := if r = 0 then 0 else if r ≤ 127 then r - 1 else 119 + Config.recReturn r % 9

/-! ### LONE (R190 to R192) -/

/-- The LONE event (Table 6.6). -/
def State.loneEvent (s : State) (c entered : Nat) : State :=
  let ch := s.chan c
  s.chanEvent c 0x0106 (le 1 entered ++ zs 3 ++ le 4 ch.err.probes.toNat ++ le 4 ch.diag.loneNoack.toNat)

/-- LONE ends without a report: the channel leaves its mode or is retired. -/
def State.loneDrop (s : State) (c : Nat) : State :=
  if (s.chan c).err.lone then (s.modErr c fun e => { e with lone := false }).condOff c 3 0 else s

/-- The channel hears another node (R190, R192). -/
def State.heard (s : State) (c : Nat) : State :=
  let was := (s.chan c).err.lone
  let t := s.modErr c fun e => { e with heardAt := s.now, ackErr := false }
  if was then (((t.loneDrop c).settle s c).loneEvent c 0).refill c else t

/-! ### Attempts (R161, R164, R175, R176, R193) -/

/-- The channel whose schedule's reference messages engine `e` sends. -/
def State.schedHome (s : State) (e : Nat) : Nat :=
  if (s.chan e).err.serving && (s.chan (e - 1)).sched.isSome then e - 1 else e

/-- The lowest declared format. -/
def lowestKind (formats : Nat) : FrameKind := if hasCC formats then .cc else if hasFD formats then .fd else .xl

/-- The frame that engine `e` sends where it has nothing to send: a probe in LONE (R191). -/
def State.probeFrame (s : State) (e : Nat) : Frame :=
  plainFrame (s.par K.chanTestId e) (lowestKind (s.par K.chanFormats e)) []

/-- The frame with start `sof` that left the transmit buffer of engine `e` while it was on the bus. -/
def State.gone (s : State) (e : Nat) (w : TxWhat) (sof : W64) : Option Displaced :=
  if (s.chan e).txNow.isSome then none
  else (s.chan e).displaced.find? fun d => d.what = w && 0 < (d.at_ - sof).toInt && s.now ≤ d.last

/-- The channel that defines the object of an attempt. -/
def State.attemptHome (s : State) (e o : Nat) (w : TxWhat) (sof : W64) : Nat :=
  ((s.gone e w sof).map (·.home)).getD (s.homeOf e o)

/-- The frame that an attempt of engine `e` which started at `sof` carries (R28, R160, R175). -/
def State.attemptFrame (s : State) (e : Nat) (w : TxWhat) (sof : W64) : Frame :=
  let ch := s.chan e
  match ch.txNow, s.gone e w sof, w with
  | some _, _, _ => ch.nowFrame.getD (s.probeFrame e)
  | none, some d, _ => ((d.past.find? fun tp => 0 < (tp.1 - sof).toInt).map (·.2)).getD d.frame
  | none, none, .object o =>
    let c := s.homeOf e o
    ch.bufKept.getD (s.formFrame e c o (((s.chan c).obj o).payloadAt sof))
  | none, none, _ => s.probeFrame e

/-- The formats a channel declares, each of which its self-test sends (Table 6.4). -/
def State.testKinds (s : State) (c : Nat) : List FrameKind :=
  [FrameKind.cc, .fd, .xl].filter fun k => declares (s.par K.chanFormats c) (kindNat k)

/-- The test frames that step 4 of channel `c`'s self-test needs (Table 6.4). -/
def State.testCount (s : State) (c : Nat) : Nat := (s.testKinds c).length * s.par K.chanTestFrames c

/-- A loop delay lies outside its range (R169): `u` in units of 1.5625 ns. -/
def State.loopOut (s : State) (c u : Nat) : Bool :=
  let g := s.engCfg c
  25 * u < 16 * g K.chanTdcMin || 16 * g K.chanTdcMax < 25 * u

/-- Test frame `k` of channel `c`'s self-test: `max_len` payload bytes of 0x55 and 0xAA in turn (Table 6.4). -/
def State.testFrame (s : State) (c k : Nat) : Frame :=
  let kind := ((s.testKinds c)[k / s.par K.chanTestFrames c]?).getD .cc
  let n := min (s.par K.chanMaxLen c) (if kind = .cc then 8 else if kind = .fd then 64 else 2048)
  { plainFrame (s.par K.chanTestId c) kind ((List.range n).map fun i => if i % 2 = 0 then 0x55 else 0xAA) with
    brs := kind = .fd && s.par K.chanRateD c ≠ 0 }

/-- A test frame of step 4 with start `sof` can be under way (Table 6.4, R261). -/
def State.testing (s : State) (e : Nat) (w : TxWhat) (sof : W64) : Bool :=
  let ch := s.chan e
  match ch.test with
  | some r =>
    let f := s.testFrame e r.sent
    s.dev.mode = .ready && ch.st = .retired && ch.phase = .testing && w = .test && r.sent < s.testCount e &&
      s.mayStart (s.schedHome e) sof ((s.cfg e).frameTime (kindNat f.kind) true f.payload.length f.brs)
  | none => false

/-- An attempt of engine `e` with a frame whose start lies at `sof` can be under way: a frame in progress, or the event
frame in the transmit buffer of a channel that may send it, or that was there when it started (R164, R174, R191, R261). -/
def State.underWay (s : State) (e : Nat) (w : TxWhat) (sof : W64) : Bool :=
  let ch := s.chan e
  let before := match ch.timingDue with
    | some b => decide ((sof - b).toInt < 0)
    | none => true
  s.dev.mode = .ready &&
    (ch.txNow = some w || (s.gone e w sof).isSome ||
      (ch.txNow.isNone && ch.txBuf = some w && s.mayAttempt e && before && !ch.bufSched && !ch.err.lone &&
        match w with
        | .object o => s.mayStart (s.schedHome e) sof (s.objDuration (s.homeOf e o) o)
        | .arm | .ref | .test => false))

/-- The attempt is over, and with it every frame that may have been on the bus before it. -/
def State.endAttempt (s : State) (e : Nat) (w : TxWhat) : State :=
  s.modChan e fun ch =>
    let mine := ch.txBuf = some w && !ch.bufSched
    { ch with txNow := none, nowSched := false, nowFrame := none, displaced := [],
              txBuf := if mine then none else ch.txBuf, bufKept := if mine then none else ch.bufKept }

/-- A one-shot failure is reported (R176, Table 5.15). -/
def State.oneshotFail (s : State) (c o cause : Nat) (sof : W64) : State :=
  ((s.modObj c o fun x => { x with oneshotFailed := true }).modStat (s.engineOf c) fun x =>
    { x with oneshotFail := x.oneshotFail + 1 }).chanEvent c 0x0103
    (le 1 o ++ le 1 cause ++ zs 2 ++ le 4 (s.opar K.objId c o) ++ le 8 sof.toNat)

/-- An attempt without acknowledgement in LONE is counted and not reported (R191). -/
def State.countNoack (s : State) (e : Nat) : State :=
  s.modDiag e fun d => { d with loneNoack := d.loneNoack + 1 }

/-- What an attempt that ends finds out about its request: its object's request has ended before, or the object has restarted
(R239). -/
def State.attemptOver (s : State) (e : Nat) (w : TxWhat) (sof : W64) : Bool :=
  match s.gone e w sof with
  | some d => d.ended
  | none => (s.chan e).txNow.isNone && (s.chan e).bufKept.isSome

/-- An attempt of engine `e` failed with a cause of Table 5.15 (R175, R176, R186, R191, R263). -/
def State.attemptFail (s : State) (e : Nat) (w : TxWhat) (cause : Nat) (sof : W64) : State :=
  let ch := s.chan e
  let lone := ch.err.lone
  let t := s.endAttempt e w
  match w with
  | .object o =>
    let c := s.attemptHome e o w sof
    let x := (s.chan c).obj o
    let report := fun (u : State) => if lone && cause = 3 then u.countNoack e else u.oneshotFail c o cause sof
    if s.attemptOver e w sof then t.refill e
    else
      let t := t.modObj c o fun y => { y with hold := 0, tried := true, arbLost := y.arbLost || (!y.tried && cause = 1) }
      if ch.nowSched then
        let once := lone || match (s.chan c).rt.flying with
          | some a => a.once || a.slot.oneshot
          | none => true
        (if once then report (t.flightFail c false) else t.flightFail c true).refill e
      else if !x.pending then t.refill e
      else if lone && ch.txNow.isSome then report t
      else if x.once then ((report t).endRequest c o).refill e
      else t.refill e
  | .arm | .ref =>
    let c := s.schedHome e
    (t.modRt c fun r => { r with refFailed := r.refFailed + 1 }).refill e
  | .test => (if lone && cause = 3 then t.countNoack e else t).refill e

/-- The codes of the COLLIDE event's field (Table 6.6). -/
def collideField (kind : ErrKind) (f : Field) : Nat :=
  if kind = .flag then 3
  else match f with
    | .data => 1
    | .crc => 2
    | .control | .arbitration | .other => 0

/-- An error of an attempt of object `o` of channel `c` with frame `fr` counts towards a collision (R193): in FAST an error
flag in the data phase of an XL frame, which begins in its control field. -/
def State.collides (s : State) (e c o : Nat) (fr : Frame) (kind : ErrKind) (f : Field) : Bool :=
  let inside := f = .control || f = .data || f = .crc
  let now := s.formFrame e c o []
  inside && fr.id = now.id && fr.kind = now.kind && fr.rtr = now.rtr &&
    (kind = .bit || kind = .stuff || (s.engCfg e K.chanFast = 1 && fr.kind = .xl && kind = .flag))

/-- Takes an attempt of object `o` of channel `c` that ended in an error into its collision count (R193, R194). -/
def State.collideCount (s : State) (e c o : Nat) (fr : Frame) (kind : ErrKind) (f : Field) : State :=
  let x := (s.chan c).obj o
  if !s.collides e c o fr kind f then s.modObj c o fun y => { y with collCount := 0 }
  else
    let t := s.modObj c o fun y => { y with collCount := y.collCount + 1 }
    if x.collCount + 1 ≠ 2 then t
    else
      let once := decide (s.par K.chanCollideOneshot c = 1)
      let t := t.modObj c o fun y => { y with collide := true, collOneshot := y.collOneshot || once }
      let t := t.modDiag e fun d => { d with collides := d.collides + 1 }
      (t.raiseU e 4 1 o false (s.chanOwner c)).chanEvent c 0x0107
        (le 1 o ++ le 1 (collideField kind f) ++ le 1 (if once then 1 else 0) ++ zs 1 ++ le 4 (s.opar K.objId c o))

/-! ### Pins and requests -/

/-- The pin levels of R155. -/
def State.pinsIdle (s : State) (c : Nat) : State :=
  s.modChan c fun ch => { ch with ctxd := true, fast := none, cstb := true }

/-- Discards the pending requests of channel `c`'s objects (R177, R202). -/
def State.dropRequests (s : State) (c : Nat) (count : Bool) : State :=
  ((s.chan c).objs.map (·.1)).foldl (fun t o => t.discardRequest c o count) s

/-- The release of CSTB[c] that waits for its token, or runs, is given up (R415). -/
def State.dropRelease (s : State) (c : Nat) : State :=
  (s.withdraw c none).modChan c fun ch => { ch with phase := .none, test := none }

/-- The channel leaves service: no frame waits, no change waits; a frame that may be on the bus ends. -/
def State.stopEngine (s : State) (c : Nat) : State :=
  ((s.displace c false).loneDrop c).modChan c fun ch =>
    { ch with txBuf := none, bufSched := false, bufKept := none, wantMode := none, wantSleep := false, timingDue := none,
              timingOld := [], spMoveDue := false, passDue := none }

/-- A standby release is requested (R172, R412). -/
def State.wantRelease (s : State) (c : Nat) (m : ChMode) (origin : Nat) : State :=
  let t := s.modChan c fun ch => { ch with wantOpen := m, openOrigin := origin }
  if (s.chan c).phase ≠ .none then t
  else (t.modChan c fun ch => { ch with phase := .waiting }).enqueue c none

/-- A channel is OPEN: its counts and counters start anew after CHAN_OPEN and a re-qualification, and the mode is
reported (R180, R182, R185, R210, R430); a twin that serves its primary under LISTEN changes to NORMAL (R204, R208). -/
def State.openDone (s : State) (c : Nat) (m : ChMode) (origin : Nat) : State :=
  let old := (s.chan c).modeByte
  let was := (s.chan c).err.st
  let fresh := decide (origin = 1 || origin = 4)
  let t := s.modChan c fun ch =>
    { ch with
      st := .opened, mode := m, phase := .none, ctxd := true, fast := none, cstb := false, openAt := s.now, txBuf := none,
      bufSched := false, bufKept := none, txNow := none, nowSched := false, nowFrame := none, displaced := [],
      wantMode := if ch.err.serving && s.par K.chanTwin (c - 1) = 1 && !m.sends then some (.normal, 3) else none
      wantSleep := false, timingDue := none, timingOld := [], test := none, passDue := none
      stat := if fresh then ChStat.reset else ch.stat
      ring := if fresh then { ch.ring with seq := 0 } else ch.ring
      age := if fresh then { ch.age with histA := [], histD := [] } else ch.age
      err := { ch.err with
        tec := if fresh then 0 else ch.err.tec, recv := if fresh then 0 else ch.err.recv
        st := if fresh then .active else ch.err.st
        heardAt := s.now, ackErr := false, lone := false, winAt := s.now, winCount := 0, winBad := 0 } }
  let t := t.settle s c
  let t := t.chanEvent c 0x0101 (le 1 old ++ le 1 m.code ++ le 1 origin)
  let t := if fresh && was ≠ .active then t.errEvent c was else t
  let t := if fresh then t.schedOpened c else t
  ((t.schedUpdate c).schedUpdate (c - 1)).refill c

/-- The opening of a channel completes (R180): CHAN_OPEN returns OK. -/
def State.opened (s : State) (c : Nat) : State :=
  let ch := s.chan c
  let t := s.openDone c ch.wantOpen ch.openOrigin
  match s.longs.find? fun l => l.code = 0x100 && l.res = c with
  | some l => t.finish l stOk 0 []
  | none => t

/-! ### Retirement (R200, R202, R207) -/

/-- Channel `c` is the primary of a pair with a twin configured. -/
def State.pairMode (s : State) (c : Nat) : Nat := if c % 2 = 0 then s.par K.chanTwin c else 0

/-- The other channel of a pair. -/
def partner (c : Nat) : Nat := if c % 2 = 0 then c + 1 else c - 1

/-- Channel `c` becomes RETIRED for `cause`; the record is kept (R202). -/
def State.retireMark (s : State) (c cause : Nat) (hand : Bool) : State :=
  let t := ((s.pinsIdle c).stopEngine c).dropRelease c
  let t := t.modChan c fun x =>
    { x with
      st := .retired, txNow := none, nowSched := false, nowFrame := none, displaced := []
      err := { x.err with causes := [], retireCause := cause, bothRetire := false, serving := false,
                          handTick := hand, restored := false }
      diag := { x.diag with retirements := sat 0xFFFF (x.diag.retirements + 1) }
      age := { x.age with spA := 0, sjwCut := 0, ssp := 0, moveA := none, moveD := none } }
  { t with keep := { t.keep with retired := (t.keep.retired.filter fun (x : Nat × Nat) => x.1 ≠ c) ++ [(c, cause)] } }

/-- What follows the retirement of channel `c`, whose state was `old`, for its requests, objects and schedules. -/
def State.retireEnd (s old : State) (c code : Nat) : State :=
  let t := if code = 4 then (s.modErr (c - 1) fun e => { e with byTwin := false }).dropRequests (c - 1) true else s
  let t := if code = 1 then t else t.dropRequests c true
  let t := t.settle old c
  (t.schedUpdate c).schedUpdate (c - 1)

/-- Channel `c` is retired: its pins are recessive, its state and the keep store say so, its owner hears of it, its
permanent causes are raised, and its requests pass on or are withdrawn (R199 to R202, R207). -/
def State.retireNow (s : State) (c : Nat) : State :=
  let ch := s.chan c
  let owner := s.chanOwner c
  let cause := ch.err.causes.foldl min 0x20
  let pair := s.par K.chanTwin (c - c % 2) ≠ 0
  let twin := s.chan (partner c)
  let both := pair && (ch.err.bothRetire || (twin.st ≠ .retired && twin.err.causes.any (· ≠ 0x20) && cause ≠ 0x20 &&
    twin.err.causeTick = ch.err.causeTick))
  let code :=
    if both then 3
    else if c % 2 = 1 then (if ch.err.serving then 4 else 0)
    else if s.pairMode c = 0 then 0
    else if twin.st = .opened then 1
    else 2
  let t := s.retireMark c cause (decide (code = 1))
  let t := if both && twin.st ≠ .retired then t.modErr (partner c) fun e => { e with bothRetire := true } else t
  let t := t.event owner 0x0108 c (le 1 cause ++ le 1 code ++ zs 2 ++ le 8 s.clk.time.toNat)
  let t := (ch.err.causes.filter (· ≠ 0x20)).foldl (fun u k => u.raiseU c k 2 c false owner) t
  let t := t.retireEnd s c code
  (s.longs.filter fun l => l.res = c && (l.code = 0x100 || l.code = 0x106)).foldl (fun u l =>
    if l.code = 0x100 then u.finish l stRetired 0 [] else u.finish l stOk 0 []) t

/-! ### Handover (R204, R208) -/

/-- The transmit objects of channel `c`. -/
def State.txObjs (s : State) (c : Nat) : List Nat := (List.range 128).filter (s.objTx c)

/-- Service of primary `c` passes to its twin, or is not taken (R204 steps 2 to 5, R205); with `force` it passes to a twin
that is not OPEN, too (R208). -/
def State.handover (s : State) (c : Nat) (force : Bool) : State :=
  let owner := s.chanOwner c
  let t := s.modErr c fun e => { e with handTick := false }
  let tell := fun (u : State) (dir objs reqs slots missed : Nat) => u.event owner 0x0109 c
    (le 1 dir ++ le 1 c ++ le 1 (c + 1) ++ zs 1 ++ le 2 objs ++ le 2 reqs ++ le 2 slots ++ le 2 missed ++
      le 8 s.clk.time.toNat)
  if (s.chan (c + 1)).st ≠ .opened && !force then tell (t.dropRequests c true) 2 0 0 0 0
  else
    let ch := s.chan c
    let t := t.modChan c fun x =>
      { x with err := { x.err with byTwin := true, restored := false }
               rt := { x.rt with armed := x.rt.armed.map fun a =>
                 { a with passed := x.sched.any fun d => ahead a.back a.coord (s.schedPos d) ≤ 0 } } }
    let t := t.modChan (c + 1) fun x =>
      { x with err := { x.err with serving := true },
               wantMode := if s.pairMode c = 1 then some (.normal, 3) else x.wantMode }
    let t := t.settleObjs s c
    let t := (t.schedUpdate c).schedExpire c
    let kept := (t.chan c).rt.armed.isSome
    tell (t.refill (c + 1)) 0 (s.txObjs c).length ((s.txObjs c).filter fun o => (ch.obj o).pending).length
      (if kept then 1 else 0) (if ch.rt.armed.isSome && !kept then 1 else 0)

/-- Service returns from the twin to primary `c` (R210 step 4). -/
def State.handBack (s : State) (c : Nat) : State :=
  if !(s.chan c).err.byTwin then s
  else
    let ch := s.chan c
    let owner := s.chanOwner c
    let mine := s.bufferOwn (c + 1) c
    let t := (if mine then s.displace (c + 1) false else s).modErr c fun e => { e with byTwin := false }
    let t := t.modChan (c + 1) fun x =>
      { x with err := { x.err with serving := false }
               txBuf := if mine then none else x.txBuf
               bufSched := x.bufSched && !mine
               bufKept := if mine then none else x.bufKept
               wantMode := if s.pairMode c = 1 then some (.monitor, 3) else x.wantMode }
    let t := t.settleObjs s c
    let t := (t.schedUpdate c).refill (c + 1) |>.refill c
    t.event owner 0x0109 c (le 1 1 ++ le 1 (c + 1) ++ le 1 c ++ zs 1 ++ le 2 (s.txObjs c).length ++
      le 2 ((s.txObjs c).filter fun o => (ch.obj o).pending).length ++ le 2 (if ch.rt.armed.isSome then 1 else 0) ++
      le 2 0 ++ le 8 s.clk.time.toNat)

end Sys2Proof.Machine
end

