-- ==== Sys2Proof/Machine/Channels.lean ====
section
/-! DEFINITION. The commands 0x0100 to 0x0108 (R174, R177, R180 to R182, R187, R194, R200, R211). -/
namespace Sys2Proof.Machine

/-- Applies `f` to a channel that the issuer may operate and that is not RETIRED. -/
def onChan (r : Req) (s : State) (f : Nat → Answer) : Answer :=
  let c := r.u 0 1
  if 31 < c then .refuse stRange 16
  else if !s.mayOperate r.part .chan c then .refuse stDenied 16
  else if s.retired c then .refuse stRetired 16
  else f c

/-- An active Wafer or axis context uses channel `c`, its own or, while it serves it, its primary's (R174, R179); for SLEEP
only a Wafer that has `slots` on it counts. -/
def State.chanUsed (s : State) (c : Nat) (slots : Bool) : Bool :=
  let uses := fun x => ((s.chan x).sched.any fun d => !slots || !d.slots.isEmpty) ||
    (List.range 128).any fun a => s.par K.axChan a = x && (s.axis a).st ≠ .inactive
  uses c || ((s.chan c).err.serving && uses (c - 1))

/-! ### CHAN_OPEN and CHAN_CLOSE (R177, R180) -/

/-- CHAN_OPEN (R180): a long-running command that queues the standby release. -/
def hChanOpen (r : Req) (s : State) : Answer :=
  onChan r s fun c =>
    if 4 < r.u 1 1 then .refuse stRange 17
    else if s.chanInUse c then .refuse stBusy 16
    else if (s.chan c).st ≠ .closed then .refuse stState 16
    else if !(s.cfg c).timingOk then .refuse stConflict 16
    else
      let d := s.admitOpen c
      if d ≠ 0 then .refuse stConflict d
      else .later (r.long c (r.u 1 1) false) (s.wantRelease c (modeOf (r.u 1 1)) 1)

/-- Channel `c` is closed: pending requests are withdrawn in silence, those of a home channel it serves too, and its pins
are idle (R155, R177). -/
def State.closeChan (s : State) (c : Nat) : State :=
  let t := ((s.dropRequests c false).stopEngine c).dropRelease c
  let t := if (s.chan c).err.serving then t.dropRequests (c - 1) false else t
  let t := ((t.pinsIdle c).modChan c fun x => { x with st := .closed }).settle s c
  (t.schedUpdate c).schedUpdate (c - 1)

/-- CHAN_CLOSE (R177, R179). -/
def hChanClose (r : Req) (s : State) : Answer :=
  onChan r s fun c =>
    if s.chanInUse c then .refuse stBusy 16
    else if (s.chan c).st = .closed || s.chanUsed c false then .refuse stState 16
    else
      .done stOk [] (s.closeChan c)

/-- What R86 checks of CHAN_OPEN. -/
def cmdChanOpen : CmdDef := .plain 0x0100 8 (offs 2 6)
/-- CHAN_OPEN (R180). -/
def execChanOpen (dt : Nat) (m : Mbox) (s : State) : Host.Outcome State Fault Refusal :=
  mailbox cmdChanOpen hChanOpen dt m s
/-- What R86 checks of CHAN_CLOSE. -/
def cmdChanClose : CmdDef := .plain 0x0101 8 (offs 1 7)
/-- CHAN_CLOSE (R177). -/
def execChanClose (dt : Nat) (m : Mbox) (s : State) : Host.Outcome State Fault Refusal :=
  mailbox cmdChanClose hChanClose dt m s

/-! ### CHAN_CONFIG (R181) -/

/-- The keys that a CHAN_CONFIG request writes, with their values and the data bytes they lie at. -/
def chanConfigKeys (r : Req) : List (Nat × Nat × Nat) :=
  let fl := r.u 3 1
  let b := fun (x : Bool) => if x then 1 else 0
  if r.form = 0 then
    [(K.chanFormats, r.u 1 1, 1), (K.chanXcvr, r.u 2 1, 2), (K.chanFast, b (bitOf fl 0), 3), (K.chanRateA, r.u 4 1, 4),
     (K.chanRateD, r.u 5 1, 5), (K.chanMaxLen, r.u 6 2, 6), (K.chanXlErrSig, b (bitOf fl 0), 3), (K.chanPex, 0, 3),
     (K.chanTdc, 1, 3), (K.chanTdcOffset, 0, 3), (K.chanTdcMin, 50, 3), (K.chanTdcMax, 400, 3), (K.chanModeSettle, 50, 3)]
  else
    [(K.chanFormats, r.u 1 1, 1), (K.chanXcvr, r.u 2 1, 2), (K.chanFast, b (bitOf fl 0), 3),
     (K.chanXlErrSig, b (!bitOf fl 1), 3), (K.chanPex, b (!bitOf fl 2), 3), (K.chanTdc, b (bitOf fl 3), 3),
     (K.chanBrpA, r.u 4 1, 4), (K.chanTseg2A, r.u 5 1, 5), (K.chanTseg1A, r.u 6 2, 6), (K.chanSjwA, r.u 8 1, 8),
     (K.chanBrpD, r.u 9 1, 9), (K.chanTseg1D, r.u 10 1, 10), (K.chanTseg2D, r.u 11 1, 11), (K.chanSjwD, r.u 12 1, 12),
     (K.chanTdcOffset, r.u 14 2, 14), (K.chanTdcMin, r.u 16 2, 16), (K.chanTdcMax, r.u 18 2, 18), (K.chanMaxLen, r.u 20 2, 20),
     (K.chanModeSettle, r.u 22 1, 22)]

/-- CHAN_CONFIG (R162, R181). -/
def hChanConfig (r : Req) (s : State) : Answer :=
  onChan r s fun c =>
    let kv := chanConfigKeys r
    if s.chanInUse c then .refuse stBusy 16
    else match kv.find? fun k => !valueOk k.1 k.2.1 with
    | some k => .refuse stRange (16 + k.2.2)
    | none =>
      if r.form = 1 && !s.expertOn r.part .chan c then .refuse stDenied 6
      else if s.stageBusy r.part (0x10000 + c) then .refuse stBusy 16
      else
        let g := kv.foldl (fun (g : Stage) k => g.write k.1 c k.2.1) (s.stage r.part)
        let cfg : ChanCfg := fun num => s.viewOf g num c
        if !cfg.timingOk then .refuse stConflict 16
        else .done stStaged [] (s.restage r.part fun _ => g)

/-- What R86 checks of CHAN_CONFIG. -/
def cmdChanConfig : CmdDef :=
  { code := 0x0102, len := fun r => if r.form = 1 then 24 else 8, resv := fun r => if r.form = 1 then [13, 23] else [],
    masks := fun r => [(3, if r.form = 1 then 15 else 1)], expert := true, rusk := false }
/-- CHAN_CONFIG (R181). -/
def execChanConfig (dt : Nat) (m : Mbox) (s : State) : Host.Outcome State Fault Refusal :=
  mailbox cmdChanConfig hChanConfig dt m s

/-! ### CHAN_MODE (R172, R174) -/

/-- CHAN_MODE: a mode of an OPEN channel changes at the next bus idle; in SLEEP a standby release is queued. -/
def hChanMode (r : Req) (s : State) : Answer :=
  onChan r s fun c =>
    let m := r.u 1 1
    if 5 < m then .refuse stRange 17
    else if s.chanInUse c then .refuse stBusy 16
    else match (s.chan c).st with
      | .closed | .retired => .refuse stState 16
      | .sleep => .done stOk [] (if m = 5 then (s.dropRelease c).pinsIdle c else s.wantRelease c (modeOf m) 0)
      | .opened =>
        if m = 5 && s.chanUsed c true then .refuse stState 16
        else .done stOk [] (s.modChan c fun ch =>
          { ch with wantMode := if m = 5 then none else some (modeOf m, 0), wantSleep := decide (m = 5) })

/-- What R86 checks of CHAN_MODE. -/
def cmdChanMode : CmdDef := .plain 0x0103 8 (offs 2 6)
/-- CHAN_MODE (R174). -/
def execChanMode (dt : Nat) (m : Mbox) (s : State) : Host.Outcome State Fault Refusal :=
  mailbox cmdChanMode hChanMode dt m s

/-! ### CHAN_STATUS (R182) -/

/-- The code of a channel state (Table 5.14). -/
def ChState.code (x : ChState) : Nat :=
  match x with
  | .closed => 0 | .opened => 1 | .sleep => 2 | .retired => 3

/-- The CHAN_STATUS response (Table 5.14). -/
def State.chanStatus (s : State) (c : Nat) : List Byte :=
  let ch := s.chan c
  let g := s.engCfg c
  let t := ch.stat
  le 1 c ++ le 1 ch.st.code ++ le 1 (if ch.st = .opened then ch.mode.code else 0xFF) ++ le 1 (s.chanOwner c) ++
    le 1 ch.core ++ le 1 ch.err.st.code ++ le 2 ch.err.tec ++ le 2 ch.err.recv ++ le 1 (g K.chanFormats) ++
    le 1 (flag 0 (s.cmode c) + flag 1 ch.cstb + flag 2 (s.cmode c)) ++ le 4 (ns16 g.bitA) ++
    le 4 (if g K.chanBrpD = 0 then 0 else ns16 g.bitD) ++ le 2 (g.spA ch.age.spA) ++ le 2 (g.spD ch.age.ssp) ++
    le 4 (ns16 g.frameMax) ++ le 2 t.loopLast ++ le 2 t.loopMin ++ le 2 t.loopMax ++ le 2 t.tdcOut ++
    le 4 t.framesTx.toNat ++ le 4 t.framesRx.toNat ++ le 4 t.overLen.toNat ++ le 4 t.oneshotFail.toNat ++
    le 4 t.pex.toNat ++ zs 8

/-- CHAN_STATUS: any partition may read any channel, RETIRED ones too (R154, R182). -/
def hChanStatus (r : Req) (s : State) : Answer :=
  let c := r.u 0 1
  if 31 < c then .refuse stRange 16 else .done stOk (s.chanStatus c) s

/-- What R86 checks of CHAN_STATUS. -/
def cmdChanStatus : CmdDef := .plain 0x0104 8 (offs 1 7)
/-- CHAN_STATUS (R182). -/
def execChanStatus (dt : Nat) (m : Mbox) (s : State) : Host.Outcome State Fault Refusal :=
  mailbox cmdChanStatus hChanStatus dt m s

/-! ### CHAN_RECOVER, CHAN_RETIRE, CHAN_DIAG, CHAN_COLLIDE_CLEAR (R187, R194, R200, R211) -/

/-- CHAN_RECOVER (R187). -/
def hChanRecover (r : Req) (s : State) : Answer :=
  onChan r s fun c =>
    if s.chanInUse c then .refuse stBusy 16
    else if (s.chan c).err.st ≠ .busOffHeld || (s.chan c).st ≠ .opened then .refuse stState 16
    else .done stOk [] (s.errState c .busOff)

/-- CHAN_RETIRE (R200): completes once the channel is RETIRED. -/
def hChanRetire (r : Req) (s : State) : Answer :=
  onChan r s fun c =>
    if s.chanInUse c then .refuse stBusy 16
    else if (s.chan c).st = .closed then .refuse stState 16
    else .later (r.long c 0 true) (s.addCause c 0x20)

/-- The diagnostic record of a channel (Table 6.5). -/
def State.diagRecord (s : State) (c : Nat) : List Byte :=
  let ch := s.chan c
  let d := ch.diag
  let hit := (ch.objs.filter fun kv => kv.2.collide).length
  le 1 c ++ le 1 ch.st.code ++ le 1 ch.err.st.code ++
    le 1 (flag 0 ch.err.lone + flag 1 ch.err.byTwin + flag 2 ch.err.serving + flag 3 (hit ≠ 0)) ++
    le 1 (if ch.st = .retired then ch.err.retireCause else 0) ++ le 1 hit ++ le 2 d.tecPeak ++ le 2 d.recPeak ++
    le 2 (sat 0xFFFF (ch.err.offTimes.filter fun t => s.now ≤ t + s.boffWindow c).length) ++ le 4 d.bitErr.toNat ++
    le 4 d.stuffErr.toNat ++ le 4 d.formErr.toNat ++ le 4 d.crcErr.toNat ++ le 4 d.ackErrs.toNat ++ le 4 d.flagsRx.toNat ++
    le 4 d.passives.toNat ++ le 4 d.busOffs.toNat ++ le 4 d.recoveries.toNat ++ le 4 d.loneEntries.toNat ++
    le 4 d.loneNoack.toNat ++ le 4 d.collides.toNat ++ le 2 d.retirements ++ le 2 d.requalified

/-- CHAN_DIAG (R211). -/
def hChanDiag (r : Req) (s : State) : Answer :=
  let cs := s.myChans r.part
  if r.bulkLen < 64 * cs.length then .refuse stBadLength 12
  else
    let t := s.storeWrite (s.bulkBase r.part + r.bulkOff) (cs.map s.diagRecord).flatten
    .done stOk (le 1 cs.length ++ zs 7)
      (if bitOf (r.u 0 1) 0 then cs.foldl (fun u c => u.modDiag c fun _ => Diag.reset) t else t)

/-- CHAN_COLLIDE_CLEAR for one object (R194). -/
def State.collideClear (s : State) (c o : Nat) : State :=
  s.modObj c o fun y => { y with collide := false, collCount := 0, collOneshot := false }

/-- CHAN_COLLIDE_CLEAR (R194). -/
def hCollideClear (r : Req) (s : State) : Answer :=
  onChan r s fun c =>
    let o := r.u 1 1
    if s.chanInUse c then .refuse stBusy 16
    else if o = 0xFF then .done stOk [] ((s.txObjs c).foldl (fun t k => t.collideClear c k) s)
    else if 127 < o || !s.objTx c o then .refuse stRange 17
    else .done stOk [] (s.collideClear c o)

/-- What R86 checks of CHAN_RECOVER. -/
def cmdChanRecover : CmdDef := .plain 0x0105 8 (offs 1 7)
/-- CHAN_RECOVER (R187). -/
def execChanRecover (dt : Nat) (m : Mbox) (s : State) : Host.Outcome State Fault Refusal :=
  mailbox cmdChanRecover hChanRecover dt m s
/-- What R86 checks of CHAN_RETIRE. -/
def cmdChanRetire : CmdDef := .plain 0x0106 8 (offs 1 7)
/-- CHAN_RETIRE (R200). -/
def execChanRetire (dt : Nat) (m : Mbox) (s : State) : Host.Outcome State Fault Refusal :=
  mailbox cmdChanRetire hChanRetire dt m s
/-- What R86 checks of CHAN_DIAG. -/
def cmdChanDiag : CmdDef := { CmdDef.plain 0x0107 8 (offs 1 7) with masks := fun _ => [(0, 1)] }
/-- CHAN_DIAG (R211). -/
def execChanDiag (dt : Nat) (m : Mbox) (s : State) : Host.Outcome State Fault Refusal :=
  mailbox cmdChanDiag hChanDiag dt m s
/-- What R86 checks of CHAN_COLLIDE_CLEAR. -/
def cmdChanCollideClear : CmdDef := .plain 0x0108 8 (offs 2 6)
/-- CHAN_COLLIDE_CLEAR (R194). -/
def execChanCollideClear (dt : Nat) (m : Mbox) (s : State) : Host.Outcome State Fault Refusal :=
  mailbox cmdChanCollideClear hCollideClear dt m s

end Sys2Proof.Machine
end

