-- ==== Sys2Proof/Machine/Queues.lean ====
section
/-! DEFINITION. Host queues (R129 to R144): allocation, doorbells, flush, notification, and the commands 0x0700 to
0x0703. -/
namespace Sys2Proof.Machine

/-! ### Allocation (R126, R127) -/

/-- Bytes of the queue area: the pool below the lowest bulk region. -/
def State.queueArea (s : State) : Nat := s.bulkBase 7 - Config.pool

/-- A block of the queue area that no OPEN queue overlaps. -/
def State.blockFree (s : State) (base size : Nat) : Bool :=
  base + size ≤ Config.pool + s.queueArea &&
    !s.qs.toList.any fun q => q.isOpen && q.base < base + size && base < q.base + q.bytes

/-- The lowest free aligned block of a size. -/
def State.allocBlock (s : State) (size : Nat) : Option Nat :=
  ((List.range (s.queueArea / max 1 size)).map fun k => Config.pool + k * size).find? fun b => s.blockFree b size

/-- The block sizes of R127, largest first. -/
def blockSizes : List Nat := (List.range 11).map fun k => 0x400000 / 2 ^ k

/-- The largest free aligned block. -/
def State.largestBlock (s : State) : Nat := ((blockSizes.find? fun z => (s.allocBlock z).isSome)).getD 0

/-- Bytes of queue rings allocated to partition `p`. -/
def State.queueUse (s : State) (p : Nat) : Nat :=
  ((List.range 64).map fun q => if (s.queue q).isOpen && s.par K.qOwner q = p then (s.queue q).bytes else 0).sum

/-! ### Flush (R144) -/

/-- Data items between two counts of a ring, by their headers: at most `fuel` items. -/
def State.countItems (s : State) (x : Queue) (a b : W32) : Nat → Nat
  | 0 => 0
  | fuel + 1 =>
    if a = b then 0
    else
      let h := s.storeRead (x.base + a.toNat % x.bytes) 4
      let n := rd h 2 2
      let ext := itemBytes n
      if 2080 < n || (b - a).toNat < ext then 0
      else (if rd h 0 2 = 1 then 0 else 1) + s.countItems x (a + BitVec.ofNat 32 ext) b fuel

/-- Flushes queue `q` (R144): on D2H the rd word becomes wr; its unread or undispatched items are discarded, flush_gen rises, the notification is
ARMED with its Q_NOTIFY bit clear, and Q_FLUSHED carries the number and the origin. -/
def State.flush (s : State) (q origin : Nat) (reset : Bool) : State :=
  let x := s.queue q
  if !x.isOpen then s
  else
    let d2h := s.par K.qDir q = 1
    let gone := if d2h then x.ends.length else s.countItems x x.rd x.wr (x.bytes / 32)
    let t := s.modQueue q fun y =>
      { y with rd := if reset then 0 else y.wr, wr := if reset then 0 else y.wr,
               hostWord := if reset then 0 else if d2h then y.wr else y.hostWord, ends := [],
               flushGen := y.flushGen + 1, fired := false, timer := none, high := 0 }
    let p := s.par K.qOwner q
    let t := t.modPart p fun y => { y with qNotify := y.qNotify &&& ~~~(BitVec.ofNat 64 (2 ^ q)) }
    let t := if reset then t.storeWrite x.base (zs 32) else t
    let t := (t.refreshPage q 0x40).refreshPage q 0x84
    let t := if reset then t.refreshPage q 0 else t
    t.event p 0x0703 q (le 4 gone ++ le 2 (x.flushGen + 1).toNat ++ le 1 origin)

/-! ### Doorbells (R135, R137) -/

/-- A doorbell bit for an H2D queue (R135): the host's wr is latched if it is valid, and the notification is
ARMED; else, or where its lane is poisoned (log entry 138), it is ignored and counted. -/
def State.ringH2d (s : State) (p q : Nat) : State :=
  let x := s.queue q
  let occ := (x.hostWord - x.rd).toNat
  if s.poisoned (pageAddr q 0) 4 || x.hostWord.toNat % 32 ≠ 0 || occ < (x.wr - x.rd).toNat || x.bytes - 32 < occ then s.countIgnored p
  else s.modQueue q fun y =>
    { y with wr := y.hostWord, fired := false, timer := none, high := max y.high occ }

/-- A doorbell bit for a D2H queue (R137, R141): the host's rd is latched if it is valid, which frees ring space,
re-arms the notification and stops or restarts its timer. -/
def State.ringD2h (s : State) (p q : Nat) : State :=
  let x := s.queue q
  if s.poisoned (pageAddr q 0x40) 4 || x.hostWord.toNat % 32 ≠ 0 || (x.wr - x.rd).toNat < (x.hostWord - x.rd).toNat then s.countIgnored p
  else
    let left := x.ends.filter fun e => (x.wr - e).toNat < (x.wr - x.hostWord).toNat
    let t := s.modQueue q fun y =>
      { y with rd := y.hostWord, ends := left, fired := false, dropTold := false,
               timer := if left.isEmpty then none else some s.now }
    if !left.isEmpty && s.par K.qNotifyCount q ≤ left.length then t.fire q else t

/-- A doorbell bit (R137): ignored and counted before READY, during a partition reset, and for a queue that is
CLOSED or that the writing partition does not own. -/
def State.ring (s : State) (p q : Nat) (d2h : Bool) : State :=
  if s.dev.mode ≠ .ready || (s.part p).resetting.isSome || !(s.queue q).isOpen || s.par K.qOwner q ≠ p then
    s.countIgnored p
  else if d2h then s.ringD2h p q
  else s.ringH2d p q

/-! ### Commands 0x07xx -/

/-- Applies `f` to a queue that partition `r.part` may operate (R152, R469). -/
def onQueue (r : Req) (s : State) (f : Nat → Answer) : Answer :=
  let q := r.u 0 1
  if 63 < q then .refuse stRange 16
  else if !s.mayOperate r.part .queue q then .refuse stDenied 16
  else f q

/-- Q_OPEN (R129): allocates the ring under the owner's quota, sets wr and rd to 0 and writes an IDLE header. -/
def hQOpen (r : Req) (s : State) : Answer :=
  onQueue r s fun q =>
    let size := s.par K.qSize q
    let p := s.par K.qOwner q
    if (s.queue q).isOpen then .refuse stState 16
    else if s.par K.partQQuota p < s.queueUse p + size then .refuse stNoSpace 16
    else match s.allocBlock size with
      | none => .refuse stNoSpace 16
      | some b =>
        .done stOk [] ((s.modQueue q fun y =>
          { y with isOpen := true, base := b, bytes := size, hostWord := 0, wr := 0, rd := 0, items := 0, lost := 0,
                   fired := false, timer := none, high := 0, dropTold := false, ends := [] }).storeWrite b (zs 32)
          |>.refreshPage q 0 |>.refreshPage q 0x40 |>.refreshPage q 0x80)

/-- Configuration of one staged copy names queue `q` (R129). -/
def Stage.namesQueue (g : Stage) (q : Nat) : Bool :=
  (g.params.any fun kv => (kv.1 / 0x100000 = K.objDeliverQ || kv.1 / 0x100000 = K.chanMirrorQ) && kv.2 = q) ||
    (g.rules.any fun cl => cl.2.rules.any fun x => x.action / 4 % 2 = 1 && x.queue = q) ||
    (g.sigs.any fun cl => cl.2.groups.any fun x => x.deliverQ = q)

/-- Active or staged configuration names queue `q` (R129). -/
def State.queueNamed (s : State) (q : Nat) : Bool :=
  ((List.range 4).any fun n => s.par K.lcTelQueue n = q) ||
    ((List.range 16).any fun i => s.par K.latEnable i = 1 && s.par K.latQueue i = q) ||
    (s.params.any fun kv => (kv.1 / 0x100000 = K.objDeliverQ || kv.1 / 0x100000 = K.chanMirrorQ) && kv.2 = q) ||
    (s.chans.toList.any fun c => (c.rules.rules.any fun x => x.action / 4 % 2 = 1 && x.queue = q) ||
      c.sigs.groups.any fun x => x.deliverQ = q) ||
    (s.stages.toList.any (·.namesQueue q)) || s.commits.any fun c => c.stage.namesQueue q

/-- Q_CLOSE (R129): discards the content and frees the ring unless configuration names the queue. -/
def hQClose (r : Req) (s : State) : Answer :=
  onQueue r s fun q =>
    if !(s.queue q).isOpen then .refuse stState 16
    else if s.queueNamed q then .refuse stConflict 16
    else .done stOk [] ((s.modQueue q fun y => { y with isOpen := false, ends := [], timer := none }).refreshPage q 0x84)

/-- Q_FLUSH (R144). -/
def hQFlush (r : Req) (s : State) : Answer :=
  onQueue r s fun q =>
    if !(s.queue q).isOpen then .refuse stState 16
    else .done stOk [] (s.flush q 0 false)

/-- The Q_STATUS response (Table 4.12). -/
def State.queueStatus (s : State) (q : Nat) : List Byte :=
  let x := s.queue q
  le 1 q ++ le 1 (s.par K.qOwner q) ++ le 1 (s.par K.qDir q) ++ le 1 (flag 0 x.isOpen) ++
    le 4 (if x.isOpen then x.bytes else s.par K.qSize q) ++ le 4 x.wr.toNat ++ le 4 x.rd.toNat ++
    le 4 x.items.toNat ++ le 4 x.dropped.toNat ++ le 4 x.bad.toNat ++ le 2 x.flushGen.toNat ++
    le 1 (s.qServer q) ++ le 1 (s.par K.qBatch q) ++ le 2 (s.par K.qNotifyCount q) ++ le 1 (flag 0 x.fired) ++
    zs 1 ++ le 4 (s.par K.qReadTimeout q) ++ le 4 x.high ++ zs 4

/-- Q_STATUS (R153). -/
def hQStatus (r : Req) (s : State) : Answer := onQueue r s fun q => .done stOk (s.queueStatus q) s

/-- What R86 checks of Q_OPEN. -/
def cmdQOpen : CmdDef := .plain 0x0700 8 (offs 1 7)
/-- Q_OPEN (R129). -/
def execQOpen (dt : Nat) (m : Mbox) (s : State) : Host.Outcome State Fault Refusal :=
  mailbox cmdQOpen hQOpen dt m s
/-- What R86 checks of Q_CLOSE. -/
def cmdQClose : CmdDef := .plain 0x0701 8 (offs 1 7)
/-- Q_CLOSE (R129). -/
def execQClose (dt : Nat) (m : Mbox) (s : State) : Host.Outcome State Fault Refusal :=
  mailbox cmdQClose hQClose dt m s
/-- What R86 checks of Q_FLUSH. -/
def cmdQFlush : CmdDef := .plain 0x0702 8 (offs 1 7)
/-- Q_FLUSH (R144). -/
def execQFlush (dt : Nat) (m : Mbox) (s : State) : Host.Outcome State Fault Refusal :=
  mailbox cmdQFlush hQFlush dt m s
/-- What R86 checks of Q_STATUS. -/
def cmdQStatus : CmdDef := .plain 0x0703 8 (offs 1 7)
/-- Q_STATUS (R153). -/
def execQStatus (dt : Nat) (m : Mbox) (s : State) : Host.Outcome State Fault Refusal :=
  mailbox cmdQStatus hQStatus dt m s

/-! ### Doorbell registers and the read timer -/

/-- A host access of a register: performed where the access reaches its partition (R74). -/
def hostReg (w : Via) (off : Nat) (s : State) (f : State → State) : Host.Outcome State Fault Refusal :=
  if s.reaches w then .next (f s) else .next (s.refusePort w 0 off)

/-- DB_QUEUE for an H2D queue (R135): a doorbell bit latches the host's wr. -/
def execDbQueueH2d (dt : Nat) (w : Via) (q : Fin 64) (s0 : State) : Host.Outcome State Fault Refusal :=
  hostReg w (if q.val < 32 then 0x18 else 0x1C) (s0.elapse dt) fun s =>
    s.ring w.part q (s.par K.qDir q = 1)

/-- DB_QUEUE for a D2H queue (R137): a doorbell bit latches the host's rd. -/
def execDbQueueD2h (dt : Nat) (w : Via) (q : Fin 64) (s0 : State) : Host.Outcome State Fault Refusal :=
  hostReg w (if q.val < 32 then 0x18 else 0x1C) (s0.elapse dt) fun s =>
    s.ring w.part q (s.par K.qDir q ≠ 0)

/-- READ_TIMEOUT_EXPIRED (R141): the D2H read timer has run for `q[n].read_timeout`, and the notification fires. -/
def execReadTimeoutExpired (dt : Nat) (q : Fin 64) (s0 : State) : Host.Outcome State Fault Refusal :=
  let s := s0.elapse dt
  match (s.queue q).timer with
  | some t0 => if s.passed t0 (1000 * s.par K.qReadTimeout q) then .next (s.fire q) else .next s
  | none => .next s

end Sys2Proof.Machine
end

