-- ==== Sys2Proof/Machine/Store.lean ====
section
/-! DEFINITION. Error correction of the central store, scrubbing and spare rows (R119 to R123), what a poisoned lane of
active configuration takes away (Table 4.1), and STORE_STATUS (R152). -/
namespace Sys2Proof.Machine

/-- The row, numbered bank times 1,024 plus row, that holds a 64-bit lane. -/
def rowOfLane (lane : Nat) : Nat := Config.rowOfWord (lane / 4) % 16384

/-- The bank of a row. -/
def bankOfRow (row : Nat) : Nat := row / 1024

/-- Free spare rows of a bank: 20 less those in use. -/
def State.spareFree (s : State) (bank : Nat) : Nat := 20 - Tab.get 0 s.store.spare bank

/-- Swaps a row for a free spare row of its bank (R122): its history starts anew and the keep store records it. A bank
that reaches `age.spare_reserve` free rows raises 0x153 (R433). -/
def State.swapRow (s : State) (row : Nat) : State :=
  let bank := bankOfRow row
  let t := { s with
    store := { s.store with
      spare := Tab.mod s.store.spare bank (· + 1)
      rowUe := SMap.erase s.store.rowUe row
      rowCe := s.store.rowCe.filter (·.1 ≠ row)
      laneNow := s.store.laneNow.filter fun l => rowOfLane l ≠ row
      lanePrev := s.store.lanePrev.filter fun l => rowOfLane l ≠ row }
    keep := { s.keep with swaps := s.keep.swaps ++ [(bank, row)] } }
  if t.spareFree bank = s.par K.ageSpareReserve 0 then t.raise 0x153 0 2 bank false 0 else t

/-- A corrected error (R119): repaired, counted in its bank and reported on 0x020. -/
def State.correctedError (s : State) (lane : Nat) : State :=
  let row := rowOfLane lane
  ({ s with store := { s.store with
      ce := Tab.mod s.store.ce (bankOfRow row) (· + 1)
      rowCe := s.store.rowCe ++ [(row, s.now)]
      laneNow := if s.store.laneNow.contains lane then s.store.laneNow else s.store.laneNow ++ [lane] } }).raise
    0x20 0 0 (8 * lane) false 0

/-! ### Active configuration (Table 4.1) -/

/-- A list with its entry at `i` changed. -/
def modNth {α : Type} (f : α → α) (i : Nat) (xs : List α) : List α :=
  xs.zipIdx.map fun y => if y.2 = i then f y.1 else y.1

/-- A section that cannot be read: its channel has no schedule until a commit gives it one. -/
def State.loseSection (s : State) (c : Nat) : State :=
  (s.disarm c).modChan c fun ch =>
    { ch with sched := none, rt := { ch.rt with st := .idle, armed := none, flying := none, spent := [], last := none,
                                                boundary := none, old := none, passed := [], seen := none } }

/-- Takes a signal descriptor or a group, by its id, or a scaling entry out of an active set; a descriptor whose scaling entry
is gone goes with it. -/
def SigSet.lose (x : SigSet) (kind i : Nat) : SigSet :=
  if kind = 4 then { x with sigs := x.sigs.filter fun d => d.1 ≠ i }
  else if kind = 5 then { x with groups := x.groups.filter fun g => g.id ≠ i }
  else
    let n := ((x.scales[i]?).map (·.1)).getD 0
    { x with scales := x.scales.eraseIdx i, sigs := x.sigs.filter fun d => d.2.scale = 0 || d.2.scale ≠ n }

/-- An entry of active configuration in a poisoned lane is absent until a commit replaces it (Table 4.1): a slot or a
section raises 0x066, an entry of a signal map 0x071. A lane of the copy that holds a table's staged content takes nothing
away. -/
def State.loseEntry (s : State) (lane : Nat) : State :=
  let e := confLane lane s.dev.nextCommit
  let kind := e.2.1
  let i := e.2.2.2
  let c := if kind = 4 || kind = 5 then (s.sigChan (decide (kind = 5)) i).getD 32 else e.2.2.1 % 32
  if !confRegion lane || (match s.tableOf e with
    | some k => decide (s.activeCopy k ≠ e.1)
    | none => true) then s
  else
    if kind = 1 then
      s.modChan c fun ch =>
        { ch with rules := { ch.rules with rules := modNth (fun r => { r with absent := true }) i ch.rules.rules } }
    else if kind = 2 then
      (s.modChan c fun ch =>
        { ch with sched := ch.sched.map fun d =>
            { d with slots := modNth (fun x => { x with absent := true }) i d.slots } }).raiseU 0x66 0 0 c false
        (s.chanOwner c)
    else if kind = 3 then (s.loseSection c).raiseU 0x66 0 0 c false (s.chanOwner c)
    else if 4 ≤ kind && kind ≤ 6 then
      (s.modChan c fun ch => { ch with sigs := ch.sigs.lose kind i }).raiseU 0x71 0 0 c false (s.chanOwner c)
    else if kind = 7 then
      let a := e.2.2.1 % 128
      (s.setPar K.axChan a 0xFF).axSwitch s a
    else s

/-- An uncorrectable error (R120, R122): the lane is poisoned. The first on its row raises 0x021; one on a row that
had one within `store.ue_repeat_time` is permanent, raises 0x022 and swaps the row, or raises 0x023 where the bank
has no free spare row. A read of a lane that is poisoned already raises nothing. -/
def State.uncorrectableError (s : State) (lane : Nat) : State :=
  if s.store.poison.contains lane then s
  else
    let row := rowOfLane lane
    let bank := bankOfRow row
    let before := SMap.get 0 s.store.rowUe row
    let t := s.loseEntry lane
    let t := { t with store := { t.store with
      poison := t.store.poison ++ [lane]
      ue := Tab.mod t.store.ue bank (· + 1)
      rowUe := SMap.put t.store.rowUe row (s.now + 1) } }
    if before ≠ 0 && s.now + 1 - before ≤ 1000000000 * s.par K.storeUeRepeatTime 0 then
      let u := t.raise 0x22 0 2 (8 * lane) false 0
      if s.spareFree bank = 0 then u.raiseU 0x23 0 2 bank false 0
      else
        let v := u.swapRow row
        { v with store := { v.store with swapTick := s.dev.tick } }
    else t.raise 0x21 0 0 (8 * lane) false 0

/-- An entry that a crossing FIFO delivers with a parity error is treated as a poisoned lane (R145): the lane it was meant for
holds POISON until it is next written. -/
def State.parityError (s : State) (detail : Nat) : State :=
  match Config.crossedLane detail with
  | some l =>
    let lane := l % 0x400000
    if s.store.poison.contains lane then s
    else
      let t := s.loseEntry lane
      { t with store := { t.store with poison := t.store.poison ++ [lane] } }
  | none => s

/-- What the scrubber or an access finds in one lane. -/
def State.laneError (s : State) (e : LaneError) : State :=
  if e.uncorrectable then s.uncorrectableError e.lane else s.correctedError e.lane

/-- SCRUB (R121): the scrubber repairs corrected errors in place, once the self-test has left the store in use; a pass ends
when `store.scrub_period` has run since it began, and its end keeps the lanes corrected in it for R433. -/
def execScrub (dt : Nat) (errors : List LaneError) (passEnd : Bool) (s0 : State) :
    Host.Outcome State Fault Refusal :=
  let s := s0.elapse dt
  if !s.live then .next s
  else
    let t := errors.foldl State.laneError s
    .next (if passEnd && s.passed s.store.scrubAt (1000000000 * s.par K.storeScrubPeriod 0) then
        { t with store := { t.store with lanePrev := t.store.laneNow, laneNow := [], scrubAt := s.now } }
      else t)

/-- The values of STORE_STATUS in the order R152 lists them. -/
def State.storeStatusValues (s : State) : List Nat :=
  let used := ((List.range 64).map fun q => if (s.queue q).isOpen then (s.queue q).bytes else 0).sum
  [s.queueArea, s.queueArea - used, s.largestBlock] ++
    ((List.range 8).map fun p => [s.bulkSize p, s.queueUse p]).flatten ++
    ((List.range 16).map fun b =>
      [(Tab.get 0 s.store.ce b).toNat, (Tab.get 0 s.store.ue b).toNat,
       (s.store.poison.filter fun l => bankOfRow (rowOfLane l) = b).length, s.spareFree b]).flatten

/-- STORE_STATUS (R152). -/
def hStoreStatus (_r : Req) (s : State) : Answer :=
  .done stOk ((Config.storeStatusBytes s.storeStatusValues).take 496) s

/-- What R86 checks of STORE_STATUS. -/
def cmdStoreStatus : CmdDef := .plain 0x0704 0 []
/-- STORE_STATUS (R152). -/
def execStoreStatus (dt : Nat) (m : Mbox) (s : State) : Host.Outcome State Fault Refusal :=
  mailbox cmdStoreStatus hStoreStatus dt m s

end Sys2Proof.Machine
end

