-- ==== Sys2Proof/Machine/Epoch.lean ====
section
/-! DEFINITION. The epoch switch (R26 to R30, R102 to R105, R164, R208, R239, R273, R288, R316, R448) and the commands
0x0020 to 0x0023. -/
namespace Sys2Proof.Machine

/-! ### Applied timing (R164) -/

/-- Bit-timing, format and transceiver parameters (R164). -/
def timingKeys : List Nat := (List.range 0x15).map fun k => K.chanFormats + k

/-- A planner move that a commit supersedes is recorded (R430). -/
def State.supersede (s : State) (c subject : Nat) (old : Int) (move : Option (Int × Bool)) : State :=
  match move with
  | some (v, lim) => s.noteDecision subject (4 + if lim then 2 else 0) old v c 1
  | none => s

/-- New timing waits for the next bus idle, until which the engine of an OPEN channel keeps the old values (R164); the
planner's offsets and histograms start anew (R165). -/
def State.switchTiming (s old : State) (c : Nat) : State :=
  if timingKeys.all fun k => s.par k c = old.par k c then s
  else
    let a := (s.chan c).age
    let t := ((s.supersede c 2 a.spA a.moveA).supersede c 3 a.ssp a.moveD).modChan c fun ch =>
      { ch with spMoveDue := false
                age := { ch.age with spA := 0, sjwCut := 0, ssp := 0, moveA := none, moveD := none, histA := [], histD := [] } }
    if (s.chan c).st ≠ .opened then t
    else
      t.modChan c fun ch =>
        { ch with timingDue := some (ch.timingDue.getD s.clk.time)
                  timingOld := if ch.timingDue.isSome then ch.timingOld else timingKeys.map fun k => (k, old.par k c) }

/-! ### The switch (R28) -/

/-- The instances of a staged parameter that lie in a number range. -/
def Stage.insts (g : Stage) (lo hi : Nat) : List Nat :=
  ((g.params.filter fun kv => lo ≤ kv.1 / 0x100000 && kv.1 / 0x100000 ≤ hi).map fun kv => kv.1 % 0x100000).eraseDups

/-- The tables and parameters of a staged copy become active (R28): `b` is the coordinate of the boundary. The two copies
exchange their roles, and what lies in a poisoned lane of the copy that is active now is absent (R125, Table 4.1). -/
def State.switchStage (s : State) (g : Stage) (b : Option W64) : State :=
  let t := g.params.foldl (fun (u : State) kv => u.setPar (kv.1 / 0x100000) (kv.1 % 0x100000) kv.2) s
  let t := g.rules.foldl (fun (u : State) x => u.modChan x.1 fun ch => { ch with rules := x.2 }) t
  let t := if g.sigs.isEmpty then t else t.switchSigs g.sigs
  let t := g.scheds.foldl (fun (u : State) x => u.switchSched x.1 x.2 b) t
  let t := (g.insts K.objDir K.objXlAf).foldl (fun u i => u.switchObj s (i / 128) (i % 128)) t
  let t := ((g.insts K.objDir K.objXlAf).map (· / 128)).eraseDups.foldl (fun u c => u.settleObjs s c) t
  let t := (g.insts K.axChan K.axIoFrac).foldl (fun u a => u.axSwitch s a) t
  let t := (g.insts K.chanFormats K.chanModeSettle).foldl (fun u c => u.switchTiming s c) t
  let t := (g.insts K.syncMode K.syncLead).foldl (fun u i =>
    if u.par K.syncMode i = 0 then u else u.modSync i fun y => { y with driven := true }) t
  let t := (List.range 32).foldl (fun u c => (u.schedUpdate c).refill c) t
  let t := t.swapRoles g.tables
  (t.store.poison.filter fun l =>
    match t.tableOf (confLane l t.dev.nextCommit) with
    | some k => g.tables.contains k
    | none => false).foldl State.loseEntry t

/-- The coordinate of a commit's boundary at the switch (R104); 0 for a tick boundary. -/
def State.commitCoord (s : State) (k : Commit) : W64 := if k.lc = 0xFF then 0 else s.lcVal k.lc

/-- The largest of the four core loads (R344) if core `k` served channel `c`. -/
def State.loadWith (s : State) (c k : Nat) : Nat :=
  let t := s.modChan c fun ch => { ch with core := k }
  ((List.range 4).map (t.coreWork (t.confWith Stage.empty) none)).foldl max 0

/-- At an epoch boundary that affects it, channel `c` moves to the core that makes the largest load least, and stays where
no core makes it less (R17; DESIGN CHOICE, log entry 58). -/
def State.rebalance (s : State) (c : Nat) : State :=
  let best := (List.range 4).foldl (fun (b : Nat × Nat) k =>
    let w := s.loadWith c k
    if w < b.2 then (k, w) else b) ((s.chan c).core, s.loadWith c (s.chan c).core)
  if best.1 = (s.chan c).core then s else s.modChan c fun ch => { ch with core := best.1 }

/-- A pending commit switches (R28, R104): its copies become active, its record is DONE and its partition hears of it;
service of a primary that has been RETIRED since before the last reset passes to its twin (R208). -/
def State.switchCommit (s : State) (k : Commit) : State :=
  let t := { s with commits := s.commits.filter fun (x : Commit) => x.id ≠ k.id }
  let t := t.switchStage k.stage (k.hit.map (·.1))
  let coord := s.commitCoord k
  let t := t.modPart k.part fun p =>
    { p with commits := p.commits.map fun (r : CommitRec) =>
        if r.id = k.id && r.state = 0 then { r with state := 1, gen := s.clk.gen, time := s.clk.time, coord := coord } else r }
  let t := t.event k.part 0x0001 0 (le 4 k.id.toNat ++ le 1 k.lc ++ zs 3 ++ le 8 coord.toNat)
  let t := k.chans.foldl State.rebalance t
  (List.range 16).foldl (fun u j =>
    let c := 2 * j
    if (u.chan c).st = .retired && (u.chan c).err.restored && u.par K.chanTwin c ≠ 0 &&
        (k.chans.contains c || k.chans.contains (c + 1)) && (u.chan (c + 1)).st ≠ .retired then u.handover c true else u) t

/-! ### The boundary (R27, R30, R273) -/

/-- Every occurrence of channel `c` before the boundary has fired or been missed (R273). -/
def State.occsDealt (s : State) (c : Nat) (b : W64) : Bool :=
  let ch := s.chan c
  match ch.sched with
  | none => true
  | some d =>
    let back := s.schedBack d
    if !d.angle || (back && !d.reverseFire) || ch.rt.st = .idle || ch.rt.st = .awaiting then true
    else ch.rt.armed.isNone &&
      match ch.nextOcc d back (ch.rt.spent.length + 1) (ch.rt.last.getD (onward back (s.schedPos d) (-1))) with
      | some (_, x) => decide (0 ≤ ahead back x b)
      | none => true

/-- Looks for the boundary of a pending commit (R273): it is found once its crossing is predicted within
`sched.arm_lead`, and stays found once it has been crossed; a line that stands still or turns away does not reach it
(R30). -/
def State.seek (s : State) (k : Commit) : Commit :=
  if k.lc = 0xFF then k
  else
    let v := s.lcVal k.lc
    let l := s.lc k.lc
    let test := fun (b : W64) (back : Bool) =>
      decide (ahead back b v ≤ 0) ||
        (s.lcSpd k.lc ≠ 0 && match rootOf (b - v).toInt (s.lcSpd k.lc) (s.lcAccel k.lc) with
          | some t => decide (t ≤ s.armLead)
          | none => false)
    let hit := match k.hit with
      | some x => if test x.1 x.2 then some x else none
      | none => match s.boundPlace k.lc k.boundary k.seen l.rev with
        | some b => if test b l.rev then some (b, l.rev) else none
        | none => none
    { k with hit := hit, seen := v }

/-- The commit may switch at this tick boundary (R27, R273). -/
def State.switchDue (s : State) (k : Commit) : Bool :=
  k.lc = 0xFF || match k.hit with
    | some x => k.chans.all fun c => s.occsDealt c x.1
    | none => false

/-- Brings what is known of every pending boundary up to date. -/
def State.seekAll (s : State) : State := { s with commits := s.commits.map s.seek }

/-- Switches one pending commit if it is due. -/
def State.switchIf (s : State) (id : W32) : State :=
  match s.commits.find? fun k => k.id = id with
  | some k => if s.switchDue k then s.switchCommit k else s
  | none => s

/-- EPOCH_SWITCH (R27, R28): a pending commit that has reached its boundary switches, between two ticks: at a tick boundary
whose tick has not begun. -/
def execEpochSwitch (dt : Nat) (id : W32) (s0 : State) : Host.Outcome State Fault Refusal :=
  let s := (s0.elapse dt).seekAll
  if s.dev.mode = .ready && s.tickDue then .next (s.switchIf id) else .next s

/-- The switches that fall on a tick boundary, in the order of acceptance (R29, R343). -/
def State.switchAll (s : State) : State :=
  let t := s.seekAll
  (t.commits.map (·.id)).foldl (fun u id => u.switchIf id) t

/-! ### Commands 0x0020 to 0x0023 (R103 to R105, R465) -/

/-- Two staged copies affect a common channel, table, axis context or other resource (R29). -/
def State.overlap (s : State) (cs : List Nat) (g h : Stage) : Bool :=
  shares cs (s.affects g) || g.params.any fun kv => h.touches (keyRes kv.1)

/-- The EPOCH_COMMIT response (Table 3.27). -/
def commitReply (id : W32) (kind lc : Nat) (boundary : W64) : List Byte :=
  le 4 id.toNat ++ le 1 kind ++ le 1 lc ++ zs 2 ++ le 8 boundary.toNat

/-- EPOCH_COMMIT (R26, R27, R29, R103); a dry run makes the admission check only. -/
def hEpochCommit (r : Req) (s : State) : Answer :=
  let g := s.stage r.part
  let cs := s.affects g
  let d := s.admission g none
  if !g.any then .done stOk (commitReply 0 0 0xFF 0) s
  else if bitOf (r.u 0 1) 0 then
    if d ≠ 0 then .refuse stConflict d else .done stOk (commitReply 0 0 0xFF 0) s
  else if s.commits.any fun k => s.overlap k.chans g k.stage then .refuse stBusy 0
  else
    if d ≠ 0 then .refuse stConflict d
    else
      let lc := match s.boundaryOf g with
        | some (some n) => n
        | _ => 0xFF
      let b : W64 := if lc = 0xFF then 0 else BitVec.ofNat 64 (s.par K.lcEpochAt lc)
      let id := BitVec.ofNat 32 s.dev.nextCommit
      let k : Commit := { id := id, part := r.part, stage := g, lc := lc, boundary := b, chans := cs,
                          seen := if lc = 0xFF then 0 else s.lcVal lc, hit := none }
      let rec_ : CommitRec := { id := id, state := 0, lc := lc, gen := 0, time := 0, coord := b }
      let t := { s with commits := s.commits ++ [k]
                        dev := { s.dev with nextCommit := if s.dev.nextCommit = 0xFFFFFFFF then 1 else s.dev.nextCommit + 1 } }
      let t := (t.modStage r.part fun _ => Stage.empty).modPart r.part fun p =>
        { p with commits := (p.commits ++ [rec_]).drop ((p.commits.length + 1) - 16) }
      .done stStaged (commitReply id (if lc = 0xFF then 2 else 1) lc b) t

/-- EPOCH_STATUS (R465, Table 3.28). -/
def hEpochStatus (r : Req) (s : State) : Answer :=
  let cs := (s.part r.part).commits
  .done stOk (le 1 cs.length ++ zs 7 ++ (cs.map fun (x : CommitRec) =>
    le 4 x.id.toNat ++ le 1 x.state ++ le 1 x.lc ++ le 1 x.gen.toNat ++ zs 1 ++ le 8 x.time.toNat ++
      le 8 x.coord.toNat).flatten) s

/-- What a cancelled commit held joins what its partition has staged since, which stands (R105). -/
def Stage.giveBack (g k : Stage) : Stage :=
  { params := k.params.foldl (fun m kv => if (SMap.find? m kv.1).isSome then m else SMap.put m kv.1 kv.2) g.params
    rules := k.rules.foldl (fun m x => if (SMap.find? m x.1).isSome then m else SMap.put m x.1 x.2) g.rules
    scheds := k.scheds.foldl (fun m x => if (SMap.find? m x.1).isSome then m else SMap.put m x.1 x.2) g.scheds
    sigs := k.sigs.foldl (fun m x => if (SMap.find? m x.1).isSome then m else SMap.put m x.1 x.2) g.sigs }

/-- EPOCH_CANCEL (R105). -/
def hEpochCancel (r : Req) (s : State) : Answer :=
  let id := BitVec.ofNat 32 (r.u 0 4)
  let held := fun (p : Nat) => (s.part p).commits.any fun x => x.id = id
  match s.commits.find? fun k => k.id = id with
  | some k =>
    if k.part ≠ r.part then .refuse stDenied 16
    else
      let t := { s with commits := s.commits.filter fun (x : Commit) => x.id ≠ id }
      let t := t.modStage r.part fun g => g.giveBack k.stage
      .done stOk [] (t.modPart r.part fun p =>
        { p with commits := p.commits.map fun (x : CommitRec) => if x.id = id && x.state = 0 then { x with state := 2 } else x })
  | none =>
    if held r.part then .refuse stState 16
    else if (List.range 8).any held then .refuse stDenied 16
    else .refuse stRange 16

/-- STAGE_DISCARD (R102). -/
def hStageDiscard (r : Req) (s : State) : Answer := .done stOk [] (s.modStage r.part fun _ => Stage.empty)

/-- What R86 checks of EPOCH_COMMIT. -/
def cmdEpochCommit : CmdDef := { CmdDef.plain 0x0020 8 (offs 1 7) with masks := fun _ => [(0, 1)] }
/-- EPOCH_COMMIT (R103). -/
def execEpochCommit (dt : Nat) (m : Mbox) (s : State) : Host.Outcome State Fault Refusal :=
  mailbox cmdEpochCommit hEpochCommit dt m s
/-- What R86 checks of EPOCH_STATUS. -/
def cmdEpochStatus : CmdDef := .plain 0x0021 0 []
/-- EPOCH_STATUS (R465). -/
def execEpochStatus (dt : Nat) (m : Mbox) (s : State) : Host.Outcome State Fault Refusal :=
  mailbox cmdEpochStatus hEpochStatus dt m s
/-- What R86 checks of EPOCH_CANCEL. -/
def cmdEpochCancel : CmdDef := .plain 0x0022 8 (offs 4 4)
/-- EPOCH_CANCEL (R105). -/
def execEpochCancel (dt : Nat) (m : Mbox) (s : State) : Host.Outcome State Fault Refusal :=
  mailbox cmdEpochCancel hEpochCancel dt m s
/-- What R86 checks of STAGE_DISCARD. -/
def cmdStageDiscard : CmdDef := .plain 0x0023 0 []
/-- STAGE_DISCARD (R102). -/
def execStageDiscard (dt : Nat) (m : Mbox) (s : State) : Host.Outcome State Fault Refusal :=
  mailbox cmdStageDiscard hStageDiscard dt m s

end Sys2Proof.Machine
end

