-- ==== Sys2Proof/Machine/Coords.lean ====
section
/-! DEFINITION. The line-coordinate unit (R34 to R68): coordinates and their sources, TIME discipline, latch inputs,
SYNC outputs, and the commands 0x0300 to 0x0306. -/
namespace Sys2Proof.Machine

/-! ### Keeping a coordinate -/

/-- Coordinate `n` is kept by its source. -/
def Lc.started (l : Lc) : Bool :=
  match l.st with
  | .acquire | .track | .holdover => true
  | .noSource | .lost => false

/-- Moves the record of coordinate `n` to the present instant without changing its value: its blend goes on from here
(R44). -/
def State.lcFix (s : State) (n : Nat) : State :=
  let e := s.lcEst n
  s.modLc n fun l =>
    { l with val := e.value s.now, t0 := s.now, speed := BitVec.ofInt 64 (e.speedAt s.now),
             blend := l.blend - e.blended s.now, blendAt := s.now, blendEnd := max l.blendEnd s.now }

/-- Adds a record to the estimator history and keeps the last 1.024 ms (R50). -/
def State.lcRecord (s : State) (n : Nat) : State :=
  let e := s.lcEst n
  s.modLc n fun l =>
    { l with hist := (l.hist.filter fun h => s.now ≤ h.at_ + 1024000) ++ [{ time := s.clk.time, at_ := s.now, est := e }] }

/-- The schedules on coordinate `n` follow its state (R257). -/
def State.lcScheds (s : State) (n : Nat) : State :=
  (List.range 32).foldl (fun t c =>
    match (t.chan c).sched with
    | some d => if d.angle && d.lc = n then t.schedUpdate c else t
    | none => t) s

/-- The direction flag (R53): the extreme follows the coordinate in its direction, and the flag changes once the
coordinate lies `lc[n].dir_hyst` back from it. -/
def State.lcTurn (s : State) (n : Nat) : State :=
  let l := s.lc n
  let v := s.lcVal n
  let gain := if l.rev then (l.extreme - v).toInt else (v - l.extreme).toInt
  if 0 ≤ gain then s.modLc n fun x => { x with extreme := v }
  else if s.par K.lcDirHyst n ≤ gain.natAbs then
    (s.modLc n fun x => { x with rev := !x.rev, extreme := v }).schedTurn n
  else s

/-- The plausibility limit on the estimated speed (R65): above `lc[n].speed_max` source 0x054 + n is raised. -/
def State.lcSpeed (s : State) (n : Nat) : State :=
  let on := s.fc.conds.contains (0x54 + n, 0, 0)
  if s.par K.lcSpeedMax n * 0x100000000 < (s.lcSpd n).natAbs then
    if on then s else (s.condOn (0x54 + n) 0 0).raiseU (0x54 + n) 0 1 n true (s.par K.lcOwner n)
  else if on then s.condOff (0x54 + n) 0 0
  else s

/-- The position `x` as far as output `i` compares it: LIST positions of a rotary coordinate by their fraction. -/
def State.syncDiff (s : State) (i : Nat) (x v : W64) : Int :=
  let n := s.par K.syncLc i
  if s.par K.syncMode i = 1 && s.par K.lcKind n = 0 then sgn 32 ((x - v).toNat % 0x100000000) else (x - v).toInt

/-- Positions of output `i` that the coordinate has left by more than the hysteresis, on the side from which it came,
may fire again (R62). -/
def State.syncRearm (s : State) (i : Nat) : State :=
  let n := s.par K.syncLc i
  let v := s.lcVal n
  let h : Int := s.par K.lcDirHyst n
  s.modSync i fun y => { y with spent := y.spent.filter fun e =>
    let d := s.syncDiff i e.1 v
    if e.2 then -h ≤ d else d ≤ h }

/-- What follows every movement of coordinate `n` from value `old` (R50, R52, R53, R62, R65). -/
def State.lcMoved (s : State) (n : Nat) (old : W64) : State :=
  let t := ((s.logWrap n old (s.lcVal n)).lcTurn n).lcSpeed n
  ((List.range 4).foldl (fun u i => if u.par K.syncLc i = n then u.syncRearm i else u) t).lcRecord n

/-- Puts coordinate `n` at a value (R39, R43, R54): no wrap is logged, the direction flag stays, and schedules on it
begin anew from there. -/
def State.lcPut (s : State) (n : Nat) (v : W64) : State :=
  let d := v - s.lcVal n
  let t := s.modLc n fun l =>
    { l with val := v, t0 := s.now, speed := BitVec.ofInt 64 (s.lcSpd n), rem := 0, blend := 0, blendTot := 0,
             extreme := v, off := l.off + d, qerrAt := l.qerrAt.map (· + d) }
  (t.schedTurn n).lcRecord n

/-- A blend of `d` over `lc[n].tel_blend` begins now (R44). -/
def State.lcBegin (s : State) (n : Nat) (d : Int) : State :=
  let span := 1000 * s.par K.lcTelBlend n
  s.modLc n fun l => { l with blend := d, blendTot := d, blendSpan := span, blendAt := s.now, blendEnd := s.now + span }

/-- Removes the difference to `target` linearly over `lc[n].tel_blend` (R44); what an earlier blend has left to remove is
a part of that difference. -/
def State.lcBlend (s : State) (n : Nat) (target : W64) : State :=
  (s.lcFix n).lcBegin n (target - s.lcVal n).toInt

/-! ### States (R46, R47) -/

/-- Enters TRACK. -/
def State.lcTrack (s : State) (n : Nat) : State :=
  ((s.modLc n fun l => { l with st := .track }).lcRecord n).lcScheds n

/-- Enters HOLDOVER: extrapolated at the last speed. -/
def State.lcHold (s : State) (n : Nat) : State :=
  let t := s.lcFix n
  ((t.modLc n fun l => { l with st := .holdover, accel := 0, holdAt := s.now }).lcRecord n).lcScheds n

/-- A coordinate stops where it is, with speed and acceleration 0. -/
def State.lcFreeze (s : State) (n : Nat) (st : LcState) : State :=
  let v := s.lcVal n
  let t := s.modLc n fun l =>
    { l with st := st, val := v, t0 := s.now, speed := 0, accel := 0, rem := 0, blend := 0, blendTot := 0 }
  ((t.condOff (0x54 + n) 0 0).lcRecord n).lcScheds n

/-- Enters LOST and raises the source-lost fault (R47). -/
def State.lcLose (s : State) (n : Nat) : State :=
  ((s.lcFreeze n .lost).condOn (0x50 + n) 0 0).raiseU (0x50 + n) 0 1 n true (s.par K.lcOwner n)

/-- Enters ACQUIRE (R47, R40): as at LC_START, and as a BLOCK reaction re-enters it. -/
def State.lcAcquire (s : State) (n : Nat) : State :=
  let v := s.lcVal n
  let t := s.modLc n fun l =>
    { l with st := .acquire, val := v, t0 := s.now, speed := 0, accel := 0, rem := 0, blend := 0, blendTot := 0, run := 0,
             pulses := 0, ssiBad := 0, ssiLast := none, ssiTop := 0, off := 0, telGood := 0, qerrAt := [], aligned := false,
             edgeAt := s.now, extreme := v }
  ((t.condOff (0x50 + n) 0 0).lcRecord n).lcScheds n

/-- An active Wafer, with the axis contexts evaluated under it, or a pending commit uses coordinate `n` (R43, R54,
R67). -/
def State.lcUsed (s : State) (n : Nat) : Bool :=
  (List.range 32).any (fun c => match (s.chan c).sched with
    | some d => d.angle && d.lc = n
    | none => false) ||
  s.commits.any fun k => k.lc = n || (k.stage.scheds.any fun x => match x.2 with
    | some d => d.angle && d.lc = n
    | none => false)

/-- The index requirement of Table 2.1. -/
def State.lcAligned (s : State) (n : Nat) : Bool := s.par K.lcZMode n ≠ 2 || (s.lc n).aligned

/-- Adds one to the error count of coordinate `n` (Table 2.10). -/
def State.lcErr (s : State) (n : Nat) : State := s.modLc n fun l => { l with err := sat 0xFFFF (l.err + 1) }

/-! ### Incremental encoders (R37 to R39, R48) -/

/-- No edge has arrived for `lc[n].standstill_time` (R48). -/
def State.incStill (s : State) (n : Nat) : Bool := s.passed (s.lc n).edgeAt (1000 * s.par K.lcStandstillTime n)

/-- An INC or SSI coordinate in ACQUIRE enters TRACK once Table 2.1 is met: 8 consecutive valid counts or a standstill
time without an edge, or 4 consecutive valid words; with ALIGN the first index pulse too. -/
def State.lcReady (s : State) (n : Nat) : State :=
  let l := s.lc n
  let met : Bool :=
    match s.par K.lcSource n with
    | 1 => decide (8 ≤ l.run) || s.incStill n
    | 2 => decide (4 ≤ l.run)
    | _ => false
  if l.st = .acquire && met && s.lcAligned n then s.lcTrack n else s

/-- A valid count (R37): the coordinate gains `cnt_den` units for every `cnt_num` counts, and the remainder is kept. -/
def State.incCount (s : State) (n : Nat) (e : EncEdge) : State :=
  let num := max 1 (s.par K.lcCntNum n)
  let up := decide (e.up ≠ decide (s.par K.lcDirInvert n = 1))
  let total : Int := (s.lc n).rem + (if up then 1 else -1) * (s.par K.lcCntDen n * 0x100000000 : Nat)
  s.modLc n fun l =>
    { l with val := l.val + BitVec.ofInt 64 (total / num), t0 := s.now, rem := total % num, speed := e.speed,
             accel := e.accel, run := l.run + 1, edgeAt := s.now }

/-- A quadrature error (R38, R46): its edge is not counted; more than `lc[n].qerr_limit` within one turn lose the
coordinate. -/
def State.incError (s : State) (n : Nat) : State :=
  let v := s.lcVal n
  let near := ((s.lc n).qerrAt.filter fun x => (v - x).toInt.natAbs < 0x100000000) ++ [v]
  let t := (s.lcErr n).modLc n fun l => { l with run := 0, qerrAt := near }
  if (s.lc n).st = .track && s.par K.lcQerrLimit n < near.length then t.lcLose n else t

/-- An edge is a quadrature error (R38): A and B changed in one sample, or the edge comes less than 40 ns after the one
before it. -/
def State.incBad (s : State) (n : Nat) (e : EncEdge) : Bool :=
  e.both || (decide ((s.lc n).inAt ≠ 0) && decide (s.now < (s.lc n).inAt - 1 + 40))

/-- ENC_COUNT (R37, R38): a quadrature edge of an INC coordinate that has been started. -/
def execEncCount (dt : Nat) (n : Fin 4) (e : EncEdge) (s0 : State) : Host.Outcome State Fault Refusal :=
  let s := s0.elapse dt
  if s.par K.lcSource n ≠ 1 || !(s.lc n).started then .next s
  else
    let t := s.modLc n fun l => { l with inAt := s.now + 1 }
    if s.incBad n e then .next (t.incError n) else .next (((t.incCount n e).lcMoved n (s.lcVal n)).lcReady n)

/-- STANDSTILL_TIMEOUT (R48): without an edge for `lc[n].standstill_time` speed and acceleration become 0, and a
coordinate in ACQUIRE enters TRACK. The estimate returns to the last edge: what it was extrapolated beyond that edge
is dropped (log entry 86). -/
def execStandstillTimeout (dt : Nat) (n : Fin 4) (s0 : State) : Host.Outcome State Fault Refusal :=
  let s := s0.elapse dt
  let l := s.lc n
  if s.par K.lcSource n ≠ 1 || !l.started || !s.incStill n then .next s
  else .next (((s.modLc n fun x => { x with speed := 0, accel := 0 }).lcMoved n (s.lcVal n)).lcReady n)

/-- The difference between the index position and a coordinate's fraction. -/
def State.indexDiff (s : State) (n : Nat) : Int :=
  sgn 32 ((s.par K.lcZPos n + 0x100000000 - (s.lcVal n).toNat % 0x100000000) % 0x100000000)

/-- One count of `lc[n].z_tol` as a fraction in 2^-32 turn (R39): d_c of an INC coordinate, d_s of an SSI coordinate, which
has no counts of its own (log entry 87). -/
def State.zCount (s : State) (n : Nat) : Nat × Nat :=
  if s.par K.lcSource n = 2 then (2 ^ (32 - s.par K.lcSsiTurnBits n), 1)
  else (s.par K.lcCntDen n * 0x100000000, s.par K.lcCntNum n)

/-- Index handling under `lc[n].z_mode` (R39). -/
def State.indexMode (s : State) (n : Nat) : State :=
  let d := s.indexDiff n
  if s.par K.lcZMode n = 0 then s
  else if s.par K.lcZMode n = 2 && !(s.lc n).aligned then
    let v := BitVec.ofNat 64 ((s.lcVal n).toNat / 0x100000000 * 0x100000000 + s.par K.lcZPos n)
    (s.lcPut n v).modLc n fun l => { l with aligned := true }
  else if s.par K.lcZTol n * (s.zCount n).1 < d.natAbs * (s.zCount n).2 then
    s.raiseU (0x54 + n) 0 1 n false (s.par K.lcOwner n)
  else s

/-! ### The once-per-revolution pulse (R45) -/

/-- The estimated revolution time of coordinate `n` in ns; none at standstill. -/
def State.turnTime (s : State) (n : Nat) : Option Nat :=
  let w := (s.lcSpd n).natAbs
  if w = 0 then none else some (1000000000 * 0x100000000 / w)

/-- The value nearest to the estimate whose fraction is `lc[n].z_pos`. -/
def State.pulseMark (s : State) (n : Nat) : W64 := s.lcVal n + BitVec.ofInt 64 (s.indexDiff n)

/-- A pulse lies further than `lc[n].pulse_tol` per cent from the estimated revolution time after the last one. -/
def State.pulseOff (s : State) (n : Nat) : Bool :=
  match s.turnTime n with
  | some t => s.par K.lcPulseTol n * t < 100 * ((s.now : Int) - (s.lc n).pulseAt - t).natAbs
  | none => true

/-- A pulse of a PULSE_SPEED coordinate: counted, judged against the estimated revolution time, and, where it is no
source error, the mark to which the coordinate is blended. A set that waits for the edge takes effect in place of that
correction (log entry 90). -/
def State.pulseEdge (s : State) (n : Nat) (set : Option W64) : State :=
  let u := match set with
    | some v => s.lcPut n v
    | none => s
  let counted := fun (t : State) => t.modLc n fun l => { l with pulses := l.pulses + 1, pulseAt := s.now }
  let marked := counted (if set.isSome then u else s.lcBlend n (s.pulseMark n))
  match (s.lc n).st with
  | .acquire => if 2 ≤ (marked.lc n).pulses && 1 ≤ (marked.lc n).telGood then marked.lcTrack n else marked
  | .track => if s.pulseOff n then (counted u).lcHold n else marked
  | .holdover => if s.pulseOff n then counted u else marked.lcTrack n
  | .noSource | .lost => u

/-- The set that waits for the next index edge (R54). -/
def Lc.setIndex (l : Lc) : Option W64 :=
  match l.set with
  | some (1, _, v) => some v
  | _ => none

/-- INDEX_PULSE (R39, R45, R54): a rising edge of ENC_Z[n]. A pending LC_SET replaces the handling under R39. -/
def execIndexPulse (dt : Nat) (n : Fin 4) (s0 : State) : Host.Outcome State Fault Refusal :=
  let s := s0.elapse dt
  let src := s.par K.lcSource n
  if src = 0 || src = 4 then .next s
  else if src = 3 then
    let set := (s.lc n).setIndex
    let t := s.pulseEdge n set
    .next (match set with
      | some _ => (t.modLc n fun l => { l with set := none }).lcSpeed n
      | none => t.lcMoved n (s.lcVal n))
  else match (s.lc n).setIndex with
    | some v =>
      .next (((s.lcPut n v).modLc n fun l =>
        { l with set := none, aligned := if s.par K.lcZMode n = 2 then true else l.aligned }).lcReady n)
    | none => if !(s.lc n).started then .next s else .next ((s.indexMode n).lcReady n)

/-- PULSE_MISSING (R45): the pulse has not come within the tolerance of the estimated revolution time. -/
def execPulseMissing (dt : Nat) (n : Fin 4) (s0 : State) : Host.Outcome State Fault Refusal :=
  let s := s0.elapse dt
  let l := s.lc n
  match s.turnTime n with
  | some t =>
    if s.par K.lcSource n = 3 && l.st = .track && l.pulseAt + t ≤ s.now && s.pulseOff n then
      .next ((s.lcHold n).modLc n fun x => { x with pulseAt := x.pulseAt + t })
    else .next s
  | none => .next s

/-! ### SSI absolute encoders (R40, R41) -/

/-- Binary from Gray code of at most 48 bits. -/
def grayStep : Nat → Nat → Nat → Nat
  | 0, _, acc => acc
  | n + 1, g, acc => grayStep n (g / 2) (acc ^^^ g)

/-- The position number of an SSI word. -/
def State.ssiCode (s : State) (n : Nat) (bits : Nat) : Nat :=
  let raw := bits % 2 ^ s.par K.lcSsiBits n
  if s.par K.lcSsiCode n = 1 then grayStep 48 raw 0 else raw

/-- The coordinate that an SSI position gives, with the bits above the encoder's count that follow from the last valid
one (R40). -/
def State.ssiPos (s : State) (n : Nat) (code : Nat) : W64 × Nat :=
  let l := s.lc n
  let b := s.par K.lcSsiBits n
  let tb := s.par K.lcSsiTurnBits n
  let m := b - tb
  let count := if m = 0 then code else code / 2 ^ tb
  let width := if m = 0 then tb else m
  let top := match l.ssiLast with
    | none => l.ssiTop
    | some old =>
      let c0 := if m = 0 then old else old / 2 ^ tb
      if 32 ≤ m then l.ssiTop
      else if c0 < count && 2 ^ (width - 1) < count - c0 then l.ssiTop + 2 ^ 64 - 1
      else if count < c0 && 2 ^ (width - 1) < c0 - count then l.ssiTop + 1
      else l.ssiTop
  let frac := code % 2 ^ tb * 2 ^ (32 - tb)
  let whole := top * 2 ^ m + code / 2 ^ tb
  (BitVec.ofNat 64 (whole * 0x100000000 + frac), top % 2 ^ 64)

/-- The parity bit of an SSI word agrees with its data bits (R41): together they hold an even or an odd number of ones. -/
def State.ssiParityOk (s : State) (n : Nat) (r : SsiRead) : Bool :=
  let ones := ((List.range (s.par K.lcSsiBits n)).filter fun i => bitOf r.bits.toNat i).length + r.parity.toNat
  match s.par K.lcSsiParity n with
  | 0 => true
  | 1 => decide (ones % 2 = 0)
  | _ => decide (ones % 2 = 1)

/-- A word implies a speed above `lc[n].speed_max` since the last valid one (R41). -/
def State.ssiFast (s : State) (n code : Nat) : Bool :=
  let l := s.lc n
  match l.ssiLast with
  | some c =>
    let move := ((s.ssiPos n code).1 - (s.ssiPos n c).1).toInt.natAbs
    decide (s.par K.lcSpeedMax n * 0x100000000 * (s.now - l.edgeAt) < 1000000000 * move)
  | none => false

/-- An invalid word (R41): counted; `lc[n].ssi_err_limit` of them in a row lead from TRACK to HOLDOVER. -/
def State.ssiInvalid (s : State) (n : Nat) (fast : Bool) : State :=
  let t := (s.lcErr n).modLc n fun x => { x with ssiBad := x.ssiBad + 1, run := 0 }
  let t := if fast then t.raiseU (0x54 + n) 0 1 n false (s.par K.lcOwner n) else t
  if (s.lc n).st = .track && s.par K.lcSsiErrLimit n ≤ (t.lc n).ssiBad then t.lcHold n else t

/-- A valid word with position number `code` (R40): its position was valid `lc[n].ssi_latch_delay` ago. In ACQUIRE the
coordinate is that position; in TRACK it follows, less what a blend has still to remove; from HOLDOVER it is blended to
where the position has moved meanwhile, and TRACK begins. -/
def State.ssiTake (s : State) (n code : Nat) (r : SsiRead) : State :=
  let l := s.lc n
  let pt := s.ssiPos n code
  let v := pt.1 + l.off
  let late := s.par K.lcSsiLatchDelay n
  let u := s.modLc n fun x =>
    { x with ssiBad := 0, ssiLast := some code, ssiTop := pt.2, run := x.run + 1, edgeAt := s.now }
  match l.st with
  | .holdover =>
    let t := (u.lcBlend n (v + BitVec.ofInt 64 (dispOf r.speed r.accel late))).modLc n fun x =>
      { x with speed := BitVec.ofInt 64 (r.speed.toInt + r.accel.toInt * late / 1000000000), accel := r.accel }
    (t.lcTrack n).lcMoved n (s.lcVal n)
  | .track =>
    let f := u.lcFix n
    let keep := (f.lc n).blend
    let t := f.modLc n fun x =>
      { x with val := v - BitVec.ofInt 64 keep, t0 := s.now - late, speed := r.speed, accel := r.accel }
    (if keep ≠ 0 && (t.lc n).blendEnd ≤ s.now then t.lcBegin n keep else t).lcMoved n (s.lcVal n)
  | .acquire | .noSource | .lost =>
    let t := u.modLc n fun x =>
      { x with val := v, t0 := s.now - late, speed := r.speed, accel := r.accel, blend := 0, blendTot := 0 }
    if l.ssiLast.isNone then (t.modLc n fun x => { x with extreme := v }).lcRecord n else t.lcMoved n (s.lcVal n)

/-- SSI_WORD (R40, R41): a position word whose first falling clock edge is now. -/
def execSsiWord (dt : Nat) (n : Fin 4) (r : SsiRead) (s0 : State) : Host.Outcome State Fault Refusal :=
  let s := s0.elapse dt
  let code := s.ssiCode n r.bits.toNat
  if s.par K.lcSource n ≠ 2 || !(s.lc n).started then .next s
  else if !s.ssiParityOk n r || !r.startHigh || s.ssiFast n code then .next (s.ssiInvalid n (s.ssiFast n code))
  else .next ((s.ssiTake n code r).lcReady n)

/-! ### Telegrams (R42 to R46) -/

/-- An ANGLE_TEL payload is accepted or discarded and counted (R42 to R44). `q` is the queue that carried it. A telegram
without a coordinate of its own is counted at the first coordinate that names the queue, and one that passes the checks
of a coordinate that takes none is dropped without a count (log entry 88). -/
def State.telegram (s : State) (q : Nat) (bs : List Byte) : State :=
  let n := rd bs 32 1
  let fl := rd bs 33 1
  let sq := rd bs 34 2
  let tRef : W64 := BitVec.ofNat 64 (rd bs 8 8)
  let coord : W64 := BitVec.ofNat 64 (rd bs 0 8)
  let speed : W64 := BitVec.ofNat 64 (rd bs 16 8)
  let accel : W64 := BitVec.ofNat 64 (rd bs 24 8)
  let only := bitOf fl 0
  let who := if n < 4 then n else ((List.range 4).find? fun k => s.par K.lcTelQueue k = q).getD 0
  let l := s.lc n
  let src := s.par K.lcSource n
  let newer := match l.telSeq with
    | some o => let d := (sq + 0x10000 - o) % 0x10000; decide (0 < d && d < 0x8000)
    | none => true
  let late := (s.clk.time - tRef).toInt
  let free := bitOf fl 1 && !s.lcUsed n
  let est := s.lcVal n + BitVec.ofInt 64 (dispOf (BitVec.ofInt 64 (s.lcSpd n)) l.accel (-late))
  let jump := !only && !free && l.st = .track && s.par K.lcTelJumpTol n < (coord - est).toInt.natAbs
  if bs.length ≠ 40 || 4 ≤ fl || rd bs 36 4 ≠ 0 || 3 < n || s.par K.lcTelQueue n ≠ q || !newer ||
      (1000 * s.par K.lcTelTimeout n : Nat) < late || late < -1000000 || (src = 3 && !only) then s.lcErr who
  else if jump then (s.lcErr n).raiseU (0x54 + n) 0 1 n false (s.par K.lcOwner n)
  else if (src ≠ 3 && src ≠ 4) || !l.started then s
  else
    let target := coord + BitVec.ofInt 64 (dispOf speed accel late)
    let t := if only then s.lcFix n
      else match l.st with
        | .acquire => s.lcPut n target
        | _ => if free then s.lcPut n target else s.lcBlend n target
    let t := t.modLc n fun x =>
      { x with telSeq := some sq, telRef := tRef, telAt := s.now, telGood := x.telGood + 1,
               speed := BitVec.ofInt 64 (speed.toInt + accel.toInt * late / 1000000000), accel := accel }
    let t := match l.st with
      | .acquire =>
        if (src = 4 && 2 ≤ (t.lc n).telGood) || (src = 3 && 2 ≤ (t.lc n).pulses) then t.lcTrack n else t
      | .holdover => t.lcTrack n
      | _ => t
    if !only && free && l.st ≠ .acquire then (t.lcSpeed n).lcRecord n else t.lcMoved n (s.lcVal n)

/-- TELEGRAM_TIMEOUT (R46): no telegram has been accepted for `lc[n].tel_timeout`. -/
def execTelegramTimeout (dt : Nat) (n : Fin 4) (s0 : State) : Host.Outcome State Fault Refusal :=
  let s := s0.elapse dt
  let l := s.lc n
  if 3 ≤ s.par K.lcSource n && l.st = .track && s.passed l.telAt (1000 * s.par K.lcTelTimeout n) then .next (s.lcHold n)
  else .next s

/-- HOLDOVER_EXPIRED (R46, R47): HOLDOVER has lasted for `lc[n].holdover`. -/
def execHoldoverExpired (dt : Nat) (n : Fin 4) (s0 : State) : Host.Outcome State Fault Refusal :=
  let s := s0.elapse dt
  let l := s.lc n
  if l.st = .holdover && s.passed l.holdAt (1000 * s.par K.lcHoldover n) then .next (s.lcLose n) else .next s

/-- ESTIMATOR_RECORD (R50): once every 1 µs. -/
def execEstimatorRecord (dt : Nat) (n : Fin 4) (s0 : State) : Host.Outcome State Fault Refusal :=
  let s := s0.elapse dt
  .next (s.lcMoved n (s.lcVal n))

/-- ESTIMATED_DIRECTION_CHANGE (R53): a coordinate that is not counted has moved back from its extreme. -/
def execEstimatedDirectionChange (dt : Nat) (n : Fin 4) (s0 : State) : Host.Outcome State Fault Refusal :=
  let s := s0.elapse dt
  if 2 ≤ s.par K.lcSource n && (s.lc n).started then .next (s.lcTurn n) else .next s

/-! ### TIME (R55 to R57) -/

/-- The step of TIME (R57, R271, R310): targets already handed to channel engines, stored telegram instants, the grid of
TIME schedules and the instants of axis evaluations move with it. -/
def State.stepTime (s : State) : State :=
  match s.clk.step with
  | none => s
  | some d =>
    let o := BitVec.ofInt 64 d
    let mv := fun (a : Armed) =>
      { a with target := a.target.map (· + o), arm := a.arm.map fun m => { m with target := m.target.map (· + o) } }
    let t := { s with clk := { s.clk with time := s.clk.time + o, gen := s.clk.gen + 1, step := none } }
    let t := { t with
      chans := t.chans.map fun (ch : Chan) =>
        let time := match ch.sched with
          | some x => !x.angle
          | none => false
        { ch with rt := { ch.rt with
            armed := ch.rt.armed.map fun a => let b := mv a; if time then { b with coord := b.coord + o } else b
            flying := ch.rt.flying.map fun a => let b := mv a; if time then { b with coord := b.coord + o } else b
            last := if time then ch.rt.last.map (· + o) else ch.rt.last
            seen := if time then ch.rt.seen.map (· + o) else ch.rt.seen
            spent := if time then ch.rt.spent.map (· + o) else ch.rt.spent
            dues := ch.rt.dues.map (· + o)
            cycleAt := if time then ch.rt.cycleAt + o else ch.rt.cycleAt } }
      lcs := t.lcs.map fun (l : Lc) => { l with telRef := l.telRef + o }
      axes := t.axes.map fun (x : Axis) =>
        { x with
          tPrev := x.tPrev + o
          evals := x.evals.map fun e => { e with time := e.time + o }
          due := x.due.map fun d => if d.time then { d with at_ := d.at_ + o } else d } }
    (List.range 4).foldl (fun u n => u.lcRecord n) t

/-- TIME_STEP (R56, R57): at the tick boundary. -/
def execTimeStep (dt : Nat) (s0 : State) : Host.Outcome State Fault Refusal := .next (s0.elapse dt).stepTime

/-- TIME_SLEW_DONE (R56): the whole offset has been slewed. -/
def execTimeSlewDone (dt : Nat) (s0 : State) : Host.Outcome State Fault Refusal :=
  let s := s0.elapse dt
  .next (if s.clk.slewing && s.clk.slewLeft = 0 then { s with clk := { s.clk with slewing := false } } else s)

/-! ### Latch inputs (R58 to R61) -/

/-- Coordinate `win_lc` lies in the capture window (R59, R51). -/
def State.inCapture (s : State) (i : Nat) : Bool :=
  let n := s.par K.latWinLc i
  if 3 < n then true
  else
    let v := (s.lcVal n).toNat
    let a := s.par K.latWinFrom i
    let b := s.par K.latWinTo i
    if s.par K.lcKind n = 0 then
      let f := a % 0x100000000
      (v + 0x100000000 - f) % 0x100000000 < (b + 0x100000000 - f) % 0x100000000
    else 0 ≤ sgn 64 ((v + 2 ^ 64 - a) % 2 ^ 64) && 0 < sgn 64 ((b + 2 ^ 64 - v) % 2 ^ 64)

/-- An LC_SET waits for an edge of latch `i` (R54). -/
def Lc.setAt (l : Lc) (i : Nat) : Option W64 :=
  match l.set with
  | some (2, k, v) => if k = i then some v else none
  | _ => none

/-- Applies the sets that wait for an edge of latch `i`. -/
def State.latchSets (s : State) (i : Nat) : State :=
  (List.range 4).foldl (fun t n =>
    match (s.lc n).setAt i with
    | some v => (t.lcPut n v).modLc n fun l => { l with set := none }
    | none => t) s

/-- LATCH_EDGE (R54, R58 to R60): an edge of an enabled input, inside its window, is captured. -/
def execLatchEdge (dt : Nat) (i : Fin 16) (falling : Bool) (s0 : State) : Host.Outcome State Fault Refusal :=
  let s := s0.elapse dt
  let e := s.par K.latEdge i
  if s.dev.mode ≠ .ready || s.par K.latEnable i ≠ 1 || (e = 0 && falling) || (e = 1 && !falling) then .next s
  else if !s.inCapture i then .next (s.modLat i fun l => { l with outside := l.outside + 1 })
  else
    let l := s.lat i
    if 4 ≤ l.fifo.length then .next (s.latchLost i)
    else
      let preset := (List.range 4).any fun n => ((s.lc n).setAt i).isSome
      let r : LatchRec :=
        { time := s.clk.time, lcs := s.lcAll, flags := flag 0 falling + flag 1 (l.lostDue ≠ 0) + flag 2 preset,
          lcState := s.lcStates, gen := s.clk.gen, seq := (l.seq + 1).toNat, lost := l.lostDue }
      .next ((s.modLat i fun x =>
        { x with fifo := x.fifo ++ [r], captured := x.captured + 1, lostDue := 0, seq := x.seq + 1 }).latchSets i)

/-- The payload of a LATCH item (Table 2.6). -/
def latchPayload (i : Nat) (r : LatchRec) : List Byte :=
  le 8 r.time.toNat ++ (r.lcs.map fun v => le 8 v.toNat).flatten ++ le 1 i ++ le 1 r.flags ++
    [r.lcState, r.gen] ++ le 2 r.seq ++ le 2 r.lost

/-- The data core of an input's coordinate moves its records to the input's queue (R60). -/
def State.latchDrain (s : State) (i : Nat) : State :=
  let l := s.lat i
  let n := s.par K.latWinLc i
  let core := if 3 < n then 0 else n
  l.fifo.foldl (fun t r =>
    t.emit core { q := s.par K.latQueue i, ty := 0x0302, index := i, payload := latchPayload i r, aux := 0 })
    (s.modLat i fun x => { x with fifo := [] })

/-! ### SYNC outputs (R62, R63) -/

/-- `x` is a position of output `i` (R62). -/
def State.syncPos (s : State) (i : Nat) (x : W64) : Bool :=
  let p := s.par K.syncPositions i
  if s.par K.syncMode i = 1 then
    (List.range (s.par K.syncCount i)).any fun k =>
      let y := BitVec.ofNat 64 (p / 2 ^ (64 * k))
      decide (s.syncDiff i y x = 0)
  else if s.par K.syncMode i = 2 then
    decide ((x - BitVec.ofNat 64 (s.par K.syncOffset i)).toInt % (s.par K.syncPitch i : Int) = 0)
  else false

/-- SYNC_PULSE (R62, R63): the coordinate, advanced by the lead, has reached a position that may fire. -/
def execSyncPulse (dt : Nat) (i : Fin 4) (position : W64) (backward : Bool) (wiringOk : Bool) (s0 : State) :
    Host.Outcome State Fault Refusal :=
  let s1 := s0.elapse dt
  let s := s1.syncRearm i
  let n := s.par K.syncLc i
  let l := s.lc n
  let y := s.sync i
  let adv := s.lcVal n + BitVec.ofInt 64 (dispOf (BitVec.ofInt 64 (s.lcSpd n)) 0 (s.par K.syncLead i))
  let past := s.syncDiff i adv position
  if s.dev.mode ≠ .ready || !s.syncPos i position || (backward && s.par K.syncDir i = 0) ||
      (if backward then 0 < past else past < 0) || (y.spent.any fun e => decide (s.syncDiff i e.1 position = 0)) then .next s
  else match l.st with
    | .track | .holdover =>
      let t := s.modSync i fun x =>
        if x.active then { x with merged := x.merged + 1 }
        else { x with active := true, until_ := s.now + s.par K.syncWidth i, pulses := x.pulses + 1,
                      spent := x.spent ++ [(position, backward)] }
      .next (if wiringOk then t else t.raiseU 0x5A 0 2 i false (s.par K.syncOwner i))
    | .noSource | .acquire | .lost => .next (s.modSync i fun x => { x with skipped := x.skipped + 1 })

/-- SYNC_PULSE_END (R63): the width has passed. -/
def execSyncPulseEnd (dt : Nat) (i : Fin 4) (s0 : State) : Host.Outcome State Fault Refusal :=
  let s := s0.elapse dt
  .next (if (s.sync i).active && (s.sync i).until_ ≤ s.now then s.modSync i fun x => { x with active := false } else s)

/-! ### Commands (R67, R68) -/

/-- A sum of fractions as one fraction. -/
def ratAdd (a b : Nat × Nat) : Nat × Nat := (a.1 * b.2 + b.1 * a.2, a.2 * b.2)

/-- The least of two fractions. -/
def ratMin (a b : Nat × Nat) : Nat × Nat := if a.1 * b.2 ≤ b.1 * a.2 then a else b

/-- The error bound of Table 2.4 in 2^-32 turn, as fractions to be added; none where it is unbounded. -/
def State.epsTerms (s : State) (n : Nat) : Option (List (Nat × Nat)) :=
  let w := (s.lcSpd n).natAbs
  let j := s.par K.lcJerkMax n
  let num := max 1 (s.par K.lcCntNum n)
  let den := s.par K.lcCntDen n
  match s.par K.lcSource n with
  | 1 =>
    let dc := (den * 2 ^ 32, num)
    let jerk := if w = 0 then dc else (j * den ^ 3 * 2 ^ 128, 6 * num ^ 3 * w ^ 3)
    some [dc, (w, 10 ^ 8), ratMin dc jerk]
  | 2 =>
    let us := s.par K.lcSsiPeriod n
    some [(2 ^ (32 - s.par K.lcSsiTurnBits n), 1), (w, 2 * 10 ^ 7), (j * us ^ 3 * 2 ^ 32, 6 * 10 ^ 18)]
  | 3 =>
    if 10 * w < 2 ^ 32 then none
    else some [(w, 2 * 10 ^ 7), (s.par K.lcTelSpeedTol n * 2 ^ 32, w), (s.par K.lcTelAccTol n * 2 ^ 64, 2 * w ^ 2)]
  | 4 =>
    let us := s.par K.lcTelTimeout n
    some [(s.par K.lcTelPosTol n, 1), (s.par K.lcTelSpeedTol n * us, 10 ^ 6), (s.par K.lcTelAccTol n * us ^ 2, 2 * 10 ^ 12)]
  | _ => none

/-- The bound that LC_READ reports (R49, R68). -/
def State.lcEps (s : State) (n : Nat) : Nat :=
  if (s.lc n).st ≠ .track then 0xFFFFFFFF
  else match s.epsTerms n with
    | some ts =>
      let x := ts.foldl ratAdd (0, 1)
      sat 0xFFFFFFFF ((2 * x.1 + x.2) / (2 * x.2))
    | none => 0xFFFFFFFF

/-- The state code of LC_READ (Table 2.10). -/
def LcState.num (x : LcState) : Nat :=
  match x with
  | .noSource => 0 | .acquire => 1 | .track => 2 | .holdover => 3 | .lost => 4

/-- The LC_READ response (Table 2.10). -/
def State.lcReport (s : State) : List Byte :=
  le 8 s.clk.time.toNat ++ le 1 s.clk.gen.toNat ++
    le 1 (flag 0 s.clk.slewing + flag 1 (s.par K.timeStepEnable 0 = 1)) ++ zs 6 ++
    ((List.range 4).map fun n =>
      let l := s.lc n
      le 8 (s.lcVal n).toNat ++ le 8 (tc 64 (s.lcSpd n)) ++ le 8 l.accel.toNat ++ le 1 l.st.num ++
        le 1 (flag 0 l.rev + flag 1 (s.par K.lcKind n = 1) + flag 2 l.aligned) ++ le 2 l.err ++
        le 4 (s.lcEps n)).flatten

/-- LC_READ (R68). -/
def hLcRead (_r : Req) (s : State) : Answer := .done stOk s.lcReport s

/-- Applies `f` to a coordinate that the issuer may operate. -/
def onLc (r : Req) (s : State) (f : Nat → Answer) : Answer :=
  let n := r.u 0 1
  if 3 < n then .refuse stRange 16
  else if !s.mayOperate r.part .lc n then .refuse stDenied 16
  else f n

/-- LC_START (R40, R47, R53). -/
def hLcStart (r : Req) (s : State) : Answer :=
  onLc r s fun n =>
    let src := s.par K.lcSource n
    if (s.lc n).started || src = 0 then .refuse stState 16
    else if src = 2 && (s.par K.lcSsiBits n < s.par K.lcSsiTurnBits n || s.par K.lcSsiTurnBits n + 32 < s.par K.lcSsiBits n) then
      .refuse stRange 16
    else if src = 1 && s.par K.lcDirHyst n * s.par K.lcCntNum n < 2 * s.par K.lcCntDen n * 0x100000000 then
      .refuse stRange 16
    else .done stOk [] (s.lcAcquire n)

/-- LC_STOP (R67). -/
def hLcStop (r : Req) (s : State) : Answer :=
  onLc r s fun n =>
    if s.lcUsed n then .refuse stState 16
    else .done stOk [] ((s.lcFreeze n .noSource).condOff (0x50 + n) 0 0)

/-- LC_SET (R54). -/
def hLcSet (r : Req) (s : State) : Answer :=
  onLc r s fun n =>
    let when_ := r.u 1 1
    let v : W64 := BitVec.ofNat 64 (r.u 8 8)
    if 2 < when_ then .refuse stRange 17
    else if when_ = 2 && 15 < r.u 2 1 then .refuse stRange 18
    else if s.lcUsed n then .refuse stState 16
    else if when_ = 0 then .done stOk [] ((s.lcPut n v).modLc n fun l => { l with set := none })
    else .done stOk [] (s.modLc n fun l => { l with set := some (when_, r.u 2 1, v) })

/-- TIME_DISCIPLINE (R34, R56): an offset above the threshold steps TIME where that is permitted, else it is slewed; it
replaces what an earlier one has left to do. -/
def hTimeDiscipline (r : Req) (s : State) : Answer :=
  if 1 < r.u 0 1 then .refuse stRange 16
  else if s.par K.timeOwner 0 ≠ r.part then .refuse stDenied 0
  else
    let o : Int := if r.u 0 1 = 0 then sgn 64 (r.u 24 8)
      else (BitVec.ofNat 64 (r.u 16 8) - BitVec.ofNat 64 (r.u 8 8) : W64).toInt
    let slew := s.par K.timeStepEnable 0 = 0 || o.natAbs ≤ s.par K.timeStepThreshold 0
    if slew then
      let t := { s with clk := { s.clk with slewing := decide (o ≠ 0), slewLeft := o, slewAcc := 0, step := none } }
      let t := if s.par K.timeStepEnable 0 = 0 && 1000000000 < o.natAbs then t.raiseU 0x58 0 1 0 false (s.par K.timeOwner 0)
        else t
      .done stOk ((Config.disciplineBytes 0 (divRound (1000 * o.natAbs) (s.par K.timeSlewMax 0)).toNat).take 496) t
    else
      .done stOk ((Config.disciplineBytes 1 0).take 496)
        { s with clk := { s.clk with slewing := false, slewLeft := 0, slewAcc := 0, step := some o } }

/-- LAT_STATUS (R67). -/
def hLatStatus (r : Req) (s : State) : Answer :=
  let i := r.u 0 1
  if 15 < i then .refuse stRange 16
  else if !s.mayOperate r.part .latch i then .refuse stDenied 16
  else
    let l := s.lat i
    .done stOk (le 4 l.captured.toNat ++ le 4 l.outside.toNat ++ le 4 l.lost.toNat ++ le 2 l.seq.toNat ++ zs 2) s

/-- SYNC_STATUS (R67). -/
def hSyncStatus (r : Req) (s : State) : Answer :=
  let i := r.u 0 1
  if 3 < i then .refuse stRange 16
  else if !s.mayOperate r.part .sync i then .refuse stDenied 16
  else
    let y := s.sync i
    .done stOk (le 4 y.pulses.toNat ++ le 4 y.merged.toNat ++ le 4 y.skipped.toNat ++ zs 4) s

/-- What R86 checks of LC_READ. -/
def cmdLcRead : CmdDef := .plain 0x0300 0 []
/-- LC_READ (R68). -/
def execLcRead (dt : Nat) (m : Mbox) (s : State) : Host.Outcome State Fault Refusal :=
  mailbox cmdLcRead hLcRead dt m s
/-- What R86 checks of LC_START. -/
def cmdLcStart : CmdDef := .plain 0x0301 8 (offs 1 7)
/-- LC_START (R47). -/
def execLcStart (dt : Nat) (m : Mbox) (s : State) : Host.Outcome State Fault Refusal :=
  mailbox cmdLcStart hLcStart dt m s
/-- What R86 checks of LC_STOP. -/
def cmdLcStop : CmdDef := .plain 0x0302 8 (offs 1 7)
/-- LC_STOP (R67). -/
def execLcStop (dt : Nat) (m : Mbox) (s : State) : Host.Outcome State Fault Refusal :=
  mailbox cmdLcStop hLcStop dt m s
/-- What R86 checks of LC_SET. -/
def cmdLcSet : CmdDef := .plain 0x0303 16 (offs 3 5)
/-- LC_SET (R54). -/
def execLcSet (dt : Nat) (m : Mbox) (s : State) : Host.Outcome State Fault Refusal :=
  mailbox cmdLcSet hLcSet dt m s
/-- What R86 checks of TIME_DISCIPLINE. -/
def cmdTimeDiscipline : CmdDef := .plain 0x0304 32 (offs 1 7)
/-- TIME_DISCIPLINE (R56). -/
def execTimeDiscipline (dt : Nat) (m : Mbox) (s : State) : Host.Outcome State Fault Refusal :=
  mailbox cmdTimeDiscipline hTimeDiscipline dt m s
/-- What R86 checks of LAT_STATUS. -/
def cmdLatStatus : CmdDef := .plain 0x0305 8 (offs 1 7)
/-- LAT_STATUS (R67). -/
def execLatStatus (dt : Nat) (m : Mbox) (s : State) : Host.Outcome State Fault Refusal :=
  mailbox cmdLatStatus hLatStatus dt m s
/-- What R86 checks of SYNC_STATUS. -/
def cmdSyncStatus : CmdDef := .plain 0x0306 8 (offs 1 7)
/-- SYNC_STATUS (R67). -/
def execSyncStatus (dt : Nat) (m : Mbox) (s : State) : Host.Outcome State Fault Refusal :=
  mailbox cmdSyncStatus hSyncStatus dt m s

end Sys2Proof.Machine
end

