-- ==== Sys2Proof/Machine/Partition.lean ====
section
/-! DEFINITION. Partitions: the heartbeat and its fallbacks (R109 to R111) and the partition reset (R112, R113). -/
namespace Sys2Proof.Machine

/-! ### Fallbacks (R110, R111, R113) -/

/-- The channels that partition `p` owns. -/
def State.chansOf (s : State) (p : Nat) : List Nat := (List.range 32).filter fun c => s.chanOwner c = p
/-- The axis contexts that partition `p` owns. -/
def State.axesOwned (s : State) (p : Nat) : List Nat := (List.range 128).filter fun a => s.par K.axOwner a = p

/-- STOP on the transmit objects of channel `c` (Table 3.24): pending requests are withdrawn and counted, every transmit
object is silent until a new payload, and an occurrence armed for one sends no frame. -/
def State.stopObjects (s : State) (c : Nat) : State :=
  ((s.txObjs c).foldl (fun t o => t.modObj c o fun x => { x with silent := true }) (s.dropRequests c true)).schedHush c

/-- The data plane puts a fallback in force on everything that partition `p` owns (Table 3.24). -/
def State.applyFallback (s : State) (p : Nat) (f : Fallback) : State :=
  let t := s.modPart p fun x => { x with fallback := some f, hbValid := false }
  let t := match f with
    | .stop => (s.chansOf p).foldl State.stopObjects t
    | .hold => t
  (s.axesOwned p).foldl (fun u a => u.axFallback a f) t

/-- The data plane ends the fallback of partition `p` (R111): objects resume with the first new payload, contexts with the
next AX_CMD. -/
def State.fallbackOver (s : State) (p : Nat) : State :=
  if (s.part p).fallback.isNone then s
  else (s.modPart p fun x => { x with fallback := none, hbValid := true }).axFallbackOver p

/-- HANDOVER (R110, R111): the channels and axis contexts of `p` pass to `q` under R97; contexts move as under HOLD, and
the new owner's items apply at once. -/
def State.handOverAll (s : State) (p q : Nat) : State :=
  let t := (s.axesOwned p).foldl (fun u a =>
    (u.axFallback a .hold).modAxis a fun x => { x with hbReact := if x.hbReact = 1 then 0 else x.hbReact }) s
  let t := (s.chansOf p).foldl (fun u c => u.changeOwner .chan c q) t
  (s.axesOwned p).foldl (fun u a => u.changeOwner .axis a q) t

/-! ### The control-to-data update ring (R21, R24) -/

/-- The control core posts an update for the data plane, which applies it at the start of its next tick. -/
def State.postUpdate (s : State) (u : Update) : State :=
  { s with upd := { s.upd with ring := s.upd.ring ++ [u], posted := s.upd.posted + 1 } }

/-- The end of partition `p`'s fallback, where one is in force or waits in the update ring (R24, R111). -/
def State.endFallback (s : State) (p : Nat) : State :=
  let waits := s.upd.ring.any fun u => match u with
    | .fallback q _ _ => q = p
    | .par _ _ _ | .handOver _ _ | .resume _ => false
  if (s.part p).fallback.isNone && !waits then s else s.postUpdate (.resume p)

/-- A handover of what `p` owns to `q` takes place, and both hear of it (R110, steps 2 and 3). -/
def State.handedOver (s : State) (p q : Nat) : State :=
  ((s.handOverAll p q).event p 0x0003 p (le 1 2 ++ le 1 q)).event q 0x0005 p
    (le 2 (s.chansOf p).length ++ le 2 (s.axesOwned p).length)

/-- A STOP or HOLD that an expired heartbeat of `p` brings takes place, and `p` hears of it (R110, steps 2 and 3). -/
def State.fellBack (s : State) (p : Nat) (f : Fallback) : State :=
  (s.applyFallback p f).event p 0x0003 p (le 1 (if f = .hold then 1 else 0) ++ le 1 0xFF)

/-! ### Heartbeat (R109, R110) -/

/-- The heartbeat leaves EXPIRED, if it was there: source 0x048 + p is no longer current (Table 12.2). -/
def State.hbLeave (s : State) (p : Nat) : State := s.condOff (0x48 + p) 0 0

/-- The heartbeat becomes ARMED, or OFF with a timeout of 0, and holds no valid value (R109). -/
def State.hbArm (s : State) (p : Nat) : State :=
  let st : HbState := if s.par K.partHbTimeout p = 0 then .off else .armed
  let t := (s.modPart p fun x => { x with hb := st, hbVal := none }).hbLeave p
  if (s.part p).resetting.isSome then t else t.endFallback p

/-- HB_LATE (R109): no valid write for half of the timeout. -/
def execHbLate (dt : Nat) (p : Fin 8) (s0 : State) : Host.Outcome State Fault Refusal :=
  let s := s0.elapse dt
  let x := s.part p
  if x.hb = .ok && x.resetting.isNone && s.passed x.hbAt (500000 * s.par K.partHbTimeout p) then
    .next (((s.modPart p fun y => { y with hb := .late }).irqCause p 3).event p 0x0002 p [])
  else .next s

/-- HB_EXPIRED (R110, R111): no valid write for the timeout. The host-to-device queues of `p` are flushed, source 0x048 + p
is raised, and the fallback goes to the data plane, which applies it in its next tick (R24); a target that is EXPIRED, `p`
itself too, or not mapped makes a HANDOVER a STOP. -/
def execHbExpired (dt : Nat) (p : Fin 8) (s0 : State) : Host.Outcome State Fault Refusal :=
  let s := s0.elapse dt
  let x := s.part p
  if (x.hb ≠ .ok && x.hb ≠ .late) || x.resetting.isSome || !s.passed x.hbAt (1000000 * s.par K.partHbTimeout p) then .next s
  else
    let q := s.par K.partHbTarget p
    let t := (s.modPart p fun y => { y with hb := .expired }).irqCause p 4
    let exceeds := s.par K.partHbFallback p = 2 && t.served q && (t.part q).hb ≠ .expired
    let t := (List.range 64).foldl (fun u k =>
      if s.par K.qOwner k = p && s.par K.qDir k ≠ 1 then u.flush k 1 false else u) t
    let t := (t.condOn (0x48 + p) 0 0).raiseU (0x48 + p) 0 1 p true 0
    .next (t.postUpdate (if exceeds then .handOver p q
      else .fallback p (if s.par K.partHbFallback p = 1 then .hold else .stop) true))

/-! ### Partition reset (R112, R113) -/

/-- A partition reset of `p` starts: STATE.PART reads RESETTING, commands not yet started are discarded, the response of
one that runs is discarded, and its resources behave as under a fallback. -/
def State.startReset (s : State) (p origin : Nat) : State :=
  if (s.part p).resetting.isSome then s
  else
    let f : Fallback := if s.par K.partHbTimeout p ≠ 0 && s.par K.partHbFallback p = 0 then .stop else .hold
    let t := s.modPart p fun x => { x with resetting := some origin, accepted := [] }
    let t := { t with longs := t.longs.map fun (l : Long) => if l.part = p then { l with discard := true } else l }
    t.postUpdate (.fallback p f false)

/-- A PART_RESET of `p` runs, and its 10 ms have passed (R89, R115). -/
def State.resetLate (s : State) (p : Nat) : Bool :=
  s.longs.any fun l => l.code = 2 && l.res = p && s.passed l.t0 10000000

/-- Answers the PART_RESET of `p`, if one runs. -/
def State.answerReset (s : State) (p st : Nat) : State :=
  (s.longs.filter fun l => l.code = 2 && l.res = p).foldl (fun u l => u.finish l st 0 []) s

/-- The steps of R112, once the reset of `p` completes. A PART_RESET whose 10 ms have passed answers TIMEOUT instead, and
the partition goes on as it was but for the commands the reset has discarded (R89, log entry 136). -/
def State.finishReset (s : State) (p : Nat) : State :=
  match (s.part p).resetting with
  | none => s
  | some origin =>
    if s.resetLate p then
      let t := s.modPart p fun x => { x with resetting := none }
      (if (s.part p).hb = .expired then t else t.endFallback p).answerReset p stTimeout
    else
    let t := s.modStage p fun _ => Stage.empty
    let t := (List.range 64).foldl (fun u q => if s.par K.qOwner q = p then u.flush q 2 true else u) t
    let t := t.modPart p fun x =>
      { Part.reset with
        fallback := x.fallback, commits := x.commits, resetting := none
        msix := if origin = 2 || origin = 3 then [] else x.msix
        pba := if origin = 2 || origin = 3 then 0 else x.pba
        msiSent := x.msiSent }
    let t := ((t.hbArm p).endFallback p).irqCause p 5
    let t := t.event p 0x0006 p (le 1 origin)
    t.answerReset p stOk

/-- PARTITION_RESET_DONE (R112): the reset of `p` has completed, or its time is up. -/
def execPartitionResetDone (dt : Nat) (p : Fin 8) (s0 : State) : Host.Outcome State Fault Refusal :=
  .next ((s0.elapse dt).finishReset p)

end Sys2Proof.Machine
end

