-- ==== Sys2Proof/Machine/FaultBase.lean ====
section
/-! DEFINITION. The fault collector (R358 to R383): classes, records, states, reactions and the safe-reaction
routine. -/
namespace Sys2Proof.Machine

/-! ### Classes and owners (R361, R366) -/

/-- The class of an occurrence by its source and sub-cause (Tables 2.7, 4.8, 6.2, 8.9, 9.11, 10.9, 12.2 to 12.4 and
14.10): 0 transient, 1 environment, 2 permanent. -/
def srcClass (src sub : Nat) : Nat :=
  if src < 0x20 then (if 0x10 ≤ sub then 2 else if sub = 3 || sub = 4 then 1 else 0)
  else if 0x80 ≤ src && src ≤ 0xFF then (if sub = 0x10 then 2 else if sub = 5 then 0 else 1)
  else if src = 0x24 || src = 0x26 || (0x40 ≤ src && src ≤ 0x58) || (0x60 ≤ src && src ≤ 0x64) || src = 0x68 ||
      src = 0x70 || (0x10B ≤ src && src ≤ 0x10F) || src = 0x151 || src = 0x152 then 1
  else if src = 0x22 || src = 0x23 || src = 0x5A || src = 0x65 || src = 0x67 || (0x102 ≤ src && src ≤ 0x109) ||
      (0x120 ≤ src && src ≤ 0x122) || src = 0x141 || src = 0x142 || src = 0x150 || src = 0x153 || src = 0x154 then 2
  else 0

/-- Sources whose occurrence is permanent when it repeats within 1 s (Tables 9.11 and 12.3). -/
def repeats (src : Nat) : Bool := src = 0x72 || src = 0x73 || src = 0x100 || src = 0x101 || src = 0x10A

/-- The class of an occurrence of a source now. -/
def State.occClass (s : State) (src sub : Nat) : Nat :=
  let x := s.frec src
  if repeats src && x.lastAt ≠ 0 && s.now + 1 ≤ x.lastAt + 1000000000 then 2 else srcClass src sub

/-- The owner of the resource that a source serves alone (R361); P0 for the others. -/
def State.srcOwner (s : State) (src : Nat) : Nat :=
  if src < 0x20 then s.chanOwner src
  else if 0x50 ≤ src && src ≤ 0x57 then s.par K.lcOwner (src % 4)
  else if 0x60 ≤ src && src ≤ 0x63 then s.par K.lcOwner (src % 4)
  else if src = 0x58 then s.par K.timeOwner 0
  else if 0x80 ≤ src && src ≤ 0xFF then s.par K.axOwner (src - 0x80)
  else 0

/-! ### Events and logs (R386, R388) -/

/-- The flags byte of a record (Table 12.9). -/
def FRec.flagByte (x : FRec) : Nat :=
  flag 0 x.current + flag 1 x.latched + flag 2 x.inj + flag 3 x.overlap + flag 4 x.wire

/-- Sends an event to partitions in ascending order, once each. -/
def State.eventTo (s : State) (who : Nat → Bool) (ty index : Nat) (payload : List Byte) : State :=
  (List.range 8).foldl (fun u p => if who p then u.event p ty index payload else u) s

/-- The FAULT event of a source (Table 12.14), to its owner and to `fault.notify[s]`. -/
def State.faultEvent (s : State) (src kind : Nat) : State :=
  let x := s.frec src
  let notify := s.par K.faultNotify src
  s.eventTo (fun p => p = x.owner || bitOf notify p) 0x0801 src
    (le 1 kind ++ le 1 x.cls ++ le 1 x.cause ++ le 1 x.flagByte ++ le 4 x.count ++ le 1 x.reactions ++ zs 3 ++
      le 4 x.detail.toNat ++ le 8 x.lastCoord.toNat)

/-- A log record about a source (Table 12.12). -/
def State.logFault (s : State) (kind src cause reactions value : Nat) : State :=
  let x := s.frec src
  s.log kind (x.flagByte + 0x20 * x.cls) src cause reactions value

/-! ### Scope of TRAP and BLOCK (Table 12.7) -/

/-- The scope code and index of SAFE_REACTION for a source. -/
def scopeOf (src : Nat) : Nat × Nat :=
  if src < 0x20 then (1, src)
  else if (0x50 ≤ src && src ≤ 0x57) || (0x60 ≤ src && src ≤ 0x63) then (3, src % 4)
  else if 0x80 ≤ src && src ≤ 0xFF then (2, src - 0x80)
  else (0, 0)

/-- The channels in the TRAP scope of a source. -/
def State.scopeChans (s : State) (src : Nat) : List Nat :=
  match scopeOf src with
  | (1, c) => [c]
  | (3, n) => (List.range 32).filter fun c => match (s.chan c).sched with
      | some d => d.angle && d.lc = n
      | none => false
  | (2, _) => []
  | _ => List.range 32

/-- The defined axis contexts in the TRAP scope of a source. -/
def State.scopeAxes (s : State) (src : Nat) : List Nat :=
  let cs := s.scopeChans src
  (List.range 128).filter fun a => s.axDefined a &&
    (match scopeOf src with
     | (2, b) => decide (a = b)
     | _ => cs.contains (s.par K.axChan a))

/-- TRAP (R374): the control core's safe-reaction routine on the scope of a source. -/
def State.safeReaction (s : State) (src : Nat) : State :=
  let cs := s.scopeChans src
  let as := s.scopeAxes src
  let t := as.foldl (fun u a => u.axReact a 4) s
  let stopped := (as.filter fun a =>
    let x := s.axis a
    let y := t.axis a
    (y.st = .stopping && x.st ≠ .stopping) || (y.disableDue && !x.disableDue)).length
  let reqs := (cs.map fun c => ((s.chan c).objs.filterMap fun kv =>
    if s.objDir c kv.1 = 2 && kv.2.pending && !s.isDisable c kv.1 then some (c, kv.1, kv.2.trapHeld) else none)).flatten
  let held := (reqs.filter fun x => !x.2.2).length
  let t := reqs.foldl (fun u x => u.modObj x.1 x.2.1 fun y => { y with trapHeld := true }) t
  let t := (t.modRec src fun x => { x with traps := true })
  let t := cs.foldl (fun u c => u.refill (u.engineOf c)) t
  let sc := scopeOf src
  let notify := s.par K.faultNotify src
  t.eventTo (fun p => bitOf notify p || cs.any (fun c => s.chanOwner c = p) || as.any fun a => s.par K.axOwner a = p)
    0x0802 src (le 2 src ++ le 1 sc.1 ++ le 1 sc.2 ++ le 2 stopped ++ le 2 held)

/-- Releases the requests that no TRAP holds any more (R375). -/
def State.trapRelease (s : State) : State :=
  (List.range 32).foldl (fun t c =>
    if t.trapScope c then t
    else
      let os := (t.chan c).objs.filterMap fun kv => if kv.2.trapHeld then some kv.1 else none
      if os.isEmpty then t
      else (os.foldl (fun u o => u.modObj c o fun y => { y with trapHeld := false }) t).refill (t.engineOf c)) s

/-- The block reset of a channel engine (Table 12.7): the frame in progress ends, the error counters clear, and the
engine integrates again in its mode. -/
def State.resetEngine (s : State) (c : Nat) : State :=
  let ch := s.chan c
  if ch.st = .retired then s
  else
    let t := s.modErr c fun e => { e with tec := 0, recv := 0, warned := false }
    let t := (t.modChan c fun x =>
      { x with txNow := none, nowSched := false, nowFrame := none, displaced := [], fast := none
               phase := if x.st = .opened && x.mode ≠ .loopInt then .integrating else x.phase }).errState c .active
    let t := match ch.txNow with
      | some (.object o) => if ch.nowSched then t.flightFail (s.homeOf c o) true else t
      | _ => t
    t.refill c

/-- The host port that sources 0x040 to 0x047 report on. -/
def portOfSource (src : Nat) : Nat := if src < 0x44 then src - 0x40 else src % 2

/-- BLOCK (Table 12.7). -/
def State.blockReset (s : State) (src : Nat) : State :=
  if src < 0x20 then s.resetEngine src
  else if 0x50 ≤ src && src ≤ 0x57 then
    (if (s.lc (src % 4)).st = .noSource then s else s.lcAcquire (src % 4))
  else if 0x40 ≤ src && src ≤ 0x47 then
    (List.range 8).foldl (fun t p =>
      if s.portOf p ≠ .none && portIndex (s.portOf p) = portOfSource src then t.startReset p 4 else t) s
  else if 0x48 ≤ src && src ≤ 0x4F then s.startReset (src - 0x48) 4
  else if 0x80 ≤ src && src ≤ 0xFF then s.axStopCmd (src - 0x80) true
  else s

/-! ### Reactions (R373, R376) -/

/-- The reactions in a set that the device takes in its present condition (R406). -/
def State.reactSet (s : State) (bits : Nat) : Nat := if s.dev.mode = .rusk then bits &&& 34 else bits &&& 63

/-- The configured reactions of a source for a class; an uncorrectable error in a plane's working data adds TRAP to the
default of 0x021 (R365). -/
def State.configured (s : State) (src cls detail : Nat) : Nat :=
  if cls = 2 then s.par K.faultReactPerm src
  else
    let r := s.par K.faultReact src
    if src = 0x21 && r = 1 && (detail < 0x140000 || (0x180000 ≤ detail && detail < 0x1B0000)) then r ||| 4 else r

/-- Takes a set of reactions of a source, with the FAULT event of a kind where `tell` (R373). -/
def State.takeReactions (s : State) (src bits kind : Nat) (tell : Bool) : State :=
  let chip := bitOf bits 4 || (bitOf bits 2 && (s.frec 0x100).current)
  let t := s.modRec src fun x => { x with reactions := x.reactions ||| bits }
  let t := if tell then t.faultEvent src kind else t
  let t := if bitOf bits 1 then
      { t with fc := if t.fc.alert && t.fc.alertAns then { t.fc with alertAgain := true } else { t.fc with alert := true } }
    else t
  let t := if bitOf bits 2 && !(s.frec 0x100).current then t.safeReaction src else t
  let t := if bitOf bits 3 then t.blockReset src else t
  let t := if bitOf bits 5 then { t with fc := { t.fc with pinHeld := true } } else t
  let t := t.pinSettle s
  if chip then { t with fc := { t.fc with chipDue := true } } else t

/-! ### Leaving GRACE and FAULT (R370, R371, R377) -/

/-- A source leaves FAULT (R370, R371): 0 quiet time, 1 FAULT_CLEAR, 2 FAULT_REQUALIFY. -/
def State.leaveFault (s : State) (src how : Nat) : State :=
  let t := s.modRec src fun x => { x with st := .idle, recoveries := sat 0xFFFF (x.recoveries + 1), traps := false }
  let t := t.logFault 0x04 src how 0 (t.frec src).recoveries
  ((t.faultEvent src 4).trapRelease).pinSettle s

/-- CURRENT of a source has cleared: a source in GRACE returns to IDLE (R377), and in FAULT the quiet timer runs. -/
def State.currentClear (s : State) (src : Nat) : State :=
  let t := s.modRec src fun x => { x with current := false, quietAt := s.now }
  let t := if src = 0x101 then t.supervise else t
  if (s.frec src).st ≠ .grace then t
  else
    let t := t.modRec src fun x => { x with st := .idle, recoveries := sat 0xFFFF (x.recoveries + 1) }
    let t := t.logFault 0x05 src (t.frec src).cause 0 (t.frec src).recoveries
    if bitOf (s.par K.faultReact src) 0 && s.dev.mode ≠ .rusk then t.faultEvent src 5 else t

/-! ### Occurrences (R360, R367, R378) -/

/-- An occurrence as the collector latches it; `mask` limits the reactions of an injected one (R378). -/
structure Latch where
  src : Nat
  sub : Nat
  cls : Nat
  detail : W32
  current : Bool
  owner : Nat
  inj : Bool
  overlap : Bool
  wire : Bool
  mask : Nat

/-- Step 1 and 2 of R367 on a record. -/
def State.latchRec (s : State) (o : Latch) (x : FRec) : FRec :=
  let coord := s.lcVal (s.par K.faultStampLc 0)
  let y := if x.latched then { x with count := sat 0xFFFFFFFF (x.count + 1) }
    else { x with latched := true, cause := o.sub, count := 1, firstTime := s.clk.time, firstCoord := coord, firstGen := s.clk.gen }
  { y with
    lastCause := o.sub, detail := o.detail, lastTime := s.clk.time, lastCoord := coord, lastGen := s.clk.gen,
    stampLc := s.stampLc, lastAt := s.now + 1, quietAt := s.now, owner := o.owner, current := x.current || o.current,
    inj := x.inj || o.inj, overlap := x.overlap || o.overlap, wire := x.wire || o.wire }

/-- A gateway unit with a permanent record is retired (R302): the other unit takes its requests. -/
def State.retireUnit (s : State) (u : Nat) : State :=
  if !s.unitOk u then s
  else
    { s with
      dev := { s.dev with unitsOk := if u = 0 then (false, s.dev.unitsOk.2) else (s.dev.unitsOk.1, false) }
      keep := { s.keep with units := s.keep.units ++ [u] }
      gw := { s.gw with reqs := s.gw.reqs.map fun (r : GwReq) => if r.unit = u then { r with unit := 1 - u } else r } }

/-- The collector handles one occurrence (R367, R373, R377). -/
def State.latch (s : State) (o : Latch) : State :=
  let x := s.frec o.src
  let react := s.reactSet (s.configured o.src 0 o.detail.toNat &&& o.mask)
  let perm := s.reactSet (s.configured o.src 2 o.detail.toNat &&& o.mask)
  let t := s.modRec o.src (s.latchRec o)
  let t := if o.cls = 2 && (o.src = 0x72 || o.src = 0x73) then t.retireUnit (o.src % 2) else t
  let t := match x.st with
    | .idle =>
      let grace := s.par K.faultGrace o.src ≠ 0 && o.cls ≠ 2
      let bits := if grace then react &&& 1 else if o.cls = 2 then perm else react
      let u := t.modRec o.src fun y =>
        { y with st := if grace then .grace else .fault, cls := o.cls, reactions := bits, graceAt := s.now, traps := false }
      (u.logFault 0x01 o.src (u.frec o.src).cause bits (u.frec o.src).count).takeReactions o.src bits 1 (bitOf bits 0)
    | .grace | .fault =>
      let u := t.modRec o.src fun y => { y with cls := max x.cls o.cls }
      if o.cls = 2 && x.cls < 2 then
        let v := u.modRec o.src fun y => { y with st := .fault }
        (v.logFault 0x03 o.src o.sub perm (v.frec o.src).count).takeReactions o.src perm 3 (bitOf perm 0)
      else u
  if (t.frec o.src).current then t else t.currentClear o.src

/-- The wiring source of an invalid pair (R359). -/
def wireSource (src : Nat) : Nat := if src < 0x100 || src = 0x121 then 0x120 else 0x121

/-- A pair is found invalid (R359): a raise of its source with WIRE, and of the wiring source. -/
def State.wireFault (s : State) (src : Nat) (current inj : Bool) (mask : Nat) : State :=
  let o : Latch :=
    { src := src, sub := 0, cls := s.occClass src 0, detail := 0, current := current, owner := s.srcOwner src, inj := inj,
      overlap := false, wire := true, mask := mask }
  let w := wireSource src
  (s.latch o).latch
    { src := w, sub := 0, cls := 2, detail := BitVec.ofNat 32 src, current := current, owner := 0, inj := inj,
      overlap := false, wire := false, mask := mask }

/-! ### The collector's rows -/

/-- An injection runs on a source (R378). -/
def State.injecting (s : State) (src : Nat) : Bool :=
  match s.fc.inject with
  | some i => i.1 = src
  | none => false

/-- The collector takes the oldest fault value that a source holds (R23, R367). -/
def State.takeRaise (s : State) (r : Raise) : State :=
  let t := { s with fc := { s.fc with raised := s.fc.raised.erase r } }
  t.latch
    { src := r.src, sub := r.sub, cls := max r.cls (s.occClass r.src r.sub), detail := r.detail,
      current := r.persists && s.fc.conds.any (·.1 = r.src), owner := r.owner, inj := false,
      overlap := s.injecting r.src, wire := false, mask := 63 }

/-- FAULT_OCCURRENCE (R367): the collector latches the oldest fault value that a source holds, or an occurrence that the
source's own checker passes; the entry of a crossing FIFO with a parity error is a poisoned lane (R145). Reserved sources have no lines (R358). -/
def execFaultOccurrence (dt : Nat) (src : Fin 512) (o : Option Occ) (s0 : State) : Host.Outcome State Fault Refusal :=
  let s := s0.elapse dt
  if !sourceDefined src || s.dev.mode = .held then .next s
  else match o with
    | some x =>
      let s := if src.val = 0x27 then s.parityError x.detail.toNat else s
      .next (s.latch
        { src := src, sub := x.sub.toNat, cls := s.occClass src x.sub.toNat, detail := x.detail, current := x.persists,
          owner := s.srcOwner src, inj := false, overlap := s.injecting src, wire := false, mask := 63 })
    | none =>
      match s.fc.raised.find? fun r => r.src = src.val with
      | some r => .next (s.takeRaise r)
      | none => .next s

/-- INVALID_PAIR (R359). -/
def execInvalidPair (dt : Nat) (src : Fin 512) (s0 : State) : Host.Outcome State Fault Refusal :=
  let s := s0.elapse dt
  if !sourceDefined src || s.dev.mode = .held then .next s else .next (s.wireFault src true false 63)

/-- FAULT_LINE_CLEAR (R360, R377): the last condition of a source has ended, or its pair is valid again. -/
def execFaultLineClear (dt : Nat) (src : Fin 512) (s0 : State) : Host.Outcome State Fault Refusal :=
  let s := s0.elapse dt
  if (s.frec src).current && !s.fc.conds.any (fun c => c.1 = src.val) then .next (s.currentClear src) else .next s

/-- GRACE_EXPIRED (R377): `fault.grace[s]` has elapsed with CURRENT set. -/
def execGraceExpired (dt : Nat) (src : Fin 512) (s0 : State) : Host.Outcome State Fault Refusal :=
  let s := s0.elapse dt
  let x := s.frec src
  if x.st ≠ .grace || !s.passed x.graceAt (1000 * s.par K.faultGrace src) then .next s
  else
    let react := s.reactSet (s.configured src 0 x.detail.toNat)
    let bits := react &&& 62
    let t := (s.modRec src fun y => { y with st := .fault }).logFault 0x02 src x.lastCause bits x.count
    .next (t.takeReactions src bits 2 (bitOf react 0))

/-- QUIET_TIME_EXPIRED (R370): a record that is not permanent leaves FAULT after `fault.quiet_time` without CURRENT. -/
def execQuietTimeExpired (dt : Nat) (src : Fin 512) (s0 : State) : Host.Outcome State Fault Refusal :=
  let s := s0.elapse dt
  let x := s.frec src
  if x.st = .fault && x.cls < 2 && !x.current && s.passed x.quietAt (1000000 * s.par K.faultQuietTime 0) then
    .next (s.leaveFault src 0)
  else .next s

/-- CHIP_RESET (R373): a CHIP reaction decides a device reset once the log record of its cause is written. -/
def execChipReset (dt : Nat) (s0 : State) : Host.Outcome State Fault Refusal :=
  let s := s0.elapse dt
  if s.fc.chipDue then
    let s := s.supervise
    .next { s with fc := { s.fc with chipDue := false }, dev := { s.dev with resetDue := some .chip } }
  else .next s

/-- ALIVE_RENEWAL (R382). -/
def execAliveRenewal (dt : Nat) (s0 : State) : Host.Outcome State Fault Refusal :=
  let s := s0.elapse dt
  .next { s with fc := { s.fc with
    renewAt := s.now, aliveMiss := false
    aliveAt := if s.fc.aliveMiss then upTo 500000 s.now else s.fc.aliveAt } }

/-- ALIVE_RENEWAL_MISSED (R382): no renewal for 2 ms stops ALIVE at low and raises source 0x107. -/
def execAliveRenewalMissed (dt : Nat) (s0 : State) : Host.Outcome State Fault Refusal :=
  let s := s0.elapse dt
  if s.dev.mode = .ready && !s.fc.aliveMiss && s.passed s.fc.renewAt 2000000 then
    .next ({ s with fc := { s.fc with aliveMiss := true } }.raiseU 0x107 0 2 0 false 0)
  else .next s

end Sys2Proof.Machine
end

