-- ==== Sys2Proof/Machine/Age.lean ====
section
/-! DEFINITION. The ageing monitors and the planner (R423 to R435), the margin report (R436) and the commands 0x0A00 to
0x0A02 (R441). -/
namespace Sys2Proof.Machine

/-! ### Samples (R423, R425, R427) -/

/-- Item `i` of a list of the seven domains. -/
def dom (xs : List Int) (i : Nat) : Int := (xs[i]?).getD 0

/-- The lower of two values in each domain; `old` may hold none yet. -/
def lowest (old new : List Int) : List Int := if old.isEmpty then new else List.zipWith min old new

/-- The predicted slack at `f` MHz of a slack `s` measured at `fa` is at least `g` (R425). -/
def predOk (s : Int) (fa f : Nat) (g : Int) : Bool := (1000 - s) * f ≤ (1000 - g) * fa

/-- The slack predicted at `f` MHz, truncated toward zero (R425, R436). -/
def predicted (s : Int) (fa f : Nat) : Int := Int.tdiv (1000 * fa - (1000 - s) * f) (max 1 fa)

/-- Takes a CORE sample into the samples of the last 24 hours that no later sample undercuts. -/
def daySamples (xs : List (Nat × Int × Nat)) (now : Nat) (s : Int) (mhz : Nat) : List (Nat × Int × Nat) :=
  ((xs.filter fun x => now ≤ x.1 + 86400000000000).filter fun x => decide ((1000 - s) * x.2.2 < (1000 - x.2.1) * mhz)) ++
    [(now, s, mhz)]

/-- A level that a supply or temperature source watches (Table 12.3): current while the condition holds. -/
def State.level (s : State) (src : Nat) (on : Bool) : State :=
  if !on then s.condOff src 0 0
  else if s.fc.conds.contains (src, 0, 0) then s
  else (s.condOn src 0 0).raiseU src 0 1 0 true 0

/-- The rails and the junction temperature of a sample (R423, Tables 12.3 and 15.1). -/
def State.levels (s : State) (x : Sample) : State :=
  let t := s.level 0x10B (x.v08 < 760 || 840 < x.v08)
  let t := t.level 0x10C (x.v18 < 1710 || 1890 < x.v18)
  let t := t.level 0x10D (x.v33 < 3135 || 3465 < x.v33)
  let t := t.level 0x10E (10 * (s.par K.faultTempWarn 0 : Int) < x.temp)
  t.level 0x10F (10 * (s.par K.faultTempCrit 0 : Int) < x.temp)

/-- Slack below a limit (R427): CORE at the floor raises 0x108, a domain of fixed frequency 0x150. -/
def State.lowSlack (s : State) (low : List Int) (below : Int → Bool) : State :=
  let t := if s.age.mhz = Config.coreFloor && below (dom low 0) then s.raiseU 0x108 0 2 0 false 0 else s
  (List.range 6).foldl (fun u k => if below (dom low (k + 1)) then u.raise 0x150 0 2 (k + 1) false 0 else u) t

/-- A CORE decision (R425): it waits for the epoch switch, or is only proposed. -/
def State.wantCore (s : State) (mhz reason flags : Nat) (fast : Bool) : State :=
  if s.par K.ageMode 0 = 1 then { s with age := { s.age with want := some (mhz, reason, flags), wantFast := fast } }
  else s.noteDecision 1 (flags + 1) s.age.mhz mhz 0 reason

/-- The monitors' own record of a sample. -/
def Age.take (a : Age) (x : Sample) (now : Nat) : Age :=
  let core := dom x.slack 0
  let worse := fun (old : List Int) (f : Nat) => old.isEmpty || decide ((1000 - dom old 0) * a.mhz < (1000 - core) * f)
  { a with
    slack := x.slack
    slackPer := lowest a.slackPer x.slack
    perMhz := if worse a.slackPer a.perMhz then a.mhz else a.perMhz
    slackMin := lowest a.slackMin x.slack
    slackDay := daySamples a.slackDay now core a.mhz
    slackSum := if a.slackSum.isEmpty then x.slack else List.zipWith (· + ·) a.slackSum x.slack
    sumN := a.sumN + 1
    slackLow := lowest a.slackLow x.slack
    lowMhz := if worse a.slackLow a.lowMhz then a.mhz else a.lowMhz
    temp := x.temp
    tempMax := if a.slackMin.isEmpty then x.temp else max a.tempMax x.temp
    tempHi := if a.sumN = 0 then x.temp else max a.tempHi x.temp
    tempSum := if a.sumN = 0 then x.temp else a.tempSum + x.temp
    v08 := x.v08, v18 := x.v18, v33 := x.v33
    v08lo := if a.sumN = 0 then x.v08 else min a.v08lo x.v08
    v08hi := if a.sumN = 0 then x.v08 else max a.v08hi x.v08
    v18lo := if a.sumN = 0 then x.v18 else min a.v18lo x.v18
    v33lo := if a.sumN = 0 then x.v33 else min a.v33lo x.v33
    sampleAt := a.sampleAt + 1000000 }

/-- The lifetime values of a sample, and the hours of operation. -/
def State.lifetime (s : State) (x : Sample) : State :=
  let hot : Bool := 10 * (s.par K.faultTempWarn 0 : Int) < x.temp
  let k := s.keep
  let on := s.age.onMs + 1
  let hotMs := s.age.hotMs + if hot then 1 else 0
  { s with
    age := { s.age with onMs := on % 3600000, hotMs := hotMs % 3600000 }
    keep := { k with
      slackBase := if k.slackBase.isEmpty then x.slack else k.slackBase
      slackLife := lowest k.slackLife x.slack
      tjPeak := if k.slackLife.isEmpty then x.temp else max k.tjPeak x.temp
      poh := k.poh + on / 3600000
      hot := k.hot + hotMs / 3600000 } }

/-- MONITOR_SAMPLE (R423, R425 rule 2, R427): every 1 ms from READY onward; no work of the management plane while a
lockstep fault of its core stands (R25). -/
def execMonitorSample (dt : Nat) (x : Sample) (s0 : State) : Host.Outcome State Fault Refusal :=
  let s := s0.elapse dt
  if s.dev.mode ≠ .ready || s.supHeld || !s.passed s.age.sampleAt 1000000 then .next s
  else
    let g : Int := s.par K.ageCoreGuard 0
    let below := fun (v : Int) => decide (2 * v < g)
    let t := ({ s with age := s.age.take x s.now }.lifetime x).levels x
    let t := t.lowSlack x.slack below
    .next (if below (dom x.slack 0) && Config.coreFloor < s.age.mhz && !(s.age.wantFast && s.age.want.isSome) then
        t.wantCore (s.age.mhz - 10) 2 0 true
      else t)

/-! ### The CORE clock (R425, R426) -/

/-- A lockstep source holds a CORE change back (R426). -/
def State.lockstepBusy (s : State) : Bool := (s.frec 0x100).st ≠ .idle || (s.frec 0x101).st ≠ .idle

/-- A CORE decision takes effect at a tick boundary (R426). -/
def State.applyCore (s : State) : State :=
  match s.age.want with
  | some (mhz, reason, flags) =>
    if s.lockstepBusy && !s.age.wantFast then s
    else { s with age := { s.age with want := none, wantFast := false } }.setCore mhz reason flags
  | none => s

/-- CORE_FREQ_CHANGE (R426). -/
def execCoreFreqChange (dt : Nat) (s0 : State) : Host.Outcome State Fault Refusal :=
  let s := s0.elapse dt
  if s.dev.mode = .ready then .next s.applyCore else .next s

/-- The frequency steps of Table 14.2, highest first. -/
def coreSteps : List Nat := (List.range 9).map fun k => Config.coreMax - 10 * k

/-- Rules 1 and 3 of R425 at a plan. -/
def State.planCore (s : State) : State :=
  let a := s.age
  let g : Int := s.par K.ageCoreGuard 0
  let low := dom a.slackPer 0
  if a.slackPer.isEmpty then s
  else if low < g then
    let fit := coreSteps.find? fun f => predOk low a.perMhz f g
    let f := min (fit.getD Config.coreFloor) a.mhz
    if f < a.mhz then s.wantCore f 1 (if fit.isNone then 2 else 0) false else s
  else if a.mhz < Config.coreMax && a.want.isNone && a.slackDay.all fun x => predOk x.2.1 x.2.2 (a.mhz + 10) (g + 20) then
    s.wantCore (a.mhz + 10) 1 0 false
  else s

/-! ### Sample points (R424, R429, R431) -/

/-- e_early and e_late of a histogram of `n` edges (R424). -/
def edgePhases (xs : List Int) (tail : Nat) : Int × Int :=
  let ys := xs.mergeSort fun a b => decide (a ≤ b)
  let k := ys.length * tail / 1000000
  ((ys[k]?).getD 0, (ys[ys.length - 1 - k]?).getD 0)

/-- A phase whose sample point the planner may move: its position is (base + step x offset) / den of the bit. -/
structure Spot where
  base : Int
  step : Nat
  den : Nat
  win : Nat
  lo : Int
  hi : Int
  deriving DecidableEq, Repr

/-- The arbitration phase of channel `c` (Table 14.2). -/
def State.spotA (s : State) (c : Nat) : Spot :=
  let g := s.cfg c
  { base := 1 + g K.chanTseg1A, step := 1, den := 1 + g K.chanTseg1A + g K.chanTseg2A, win := g K.chanSpWindow,
    lo := max (2 - (g K.chanTseg1A : Int)) (g K.chanTseg2A - 128)
    hi := min (256 - (g K.chanTseg1A : Int)) (g K.chanTseg2A - 1) }

/-- The secondary sample point of channel `c` (Table 14.2), in sixteenths of a ns. -/
def State.spotD (s : State) (c : Nat) : Spot :=
  let g := s.cfg c
  { base := g.sspOffset 0, step := 25, den := g.bitD, win := g K.chanSpWindow, lo := -128, hi := 127 }

/-- The position at an offset. -/
def Spot.at_ (p : Spot) (k : Int) : Int := p.base + p.step * k

/-- Twice the distance of an offset from SP*, where `t` is twice SP*. -/
def Spot.dist (p : Spot) (t k : Int) : Nat := (2000 * p.at_ k - p.den * t).natAbs

/-- The offsets within the window and the ranges. -/
def Spot.reach (p : Spot) : List Int :=
  let m := p.win * p.den / (1000 * max 1 p.step)
  ((List.range (2 * m + 1)).map fun (i : Nat) => (i : Int) - m).filter fun k => decide (p.lo ≤ k) && decide (k ≤ p.hi)

/-- The reachable offset nearest SP*. -/
def Spot.best (p : Spot) (t : Int) : Int := (minBy (p.dist t) p.reach).getD 0

/-- The window clamps SP* (R429). -/
def Spot.clamped (p : Spot) (t : Int) : Bool := 2 * p.win * p.den < (2000 * p.base - p.den * t).natAbs

/-- The lower of the two margins at an offset is below a limit (R424, R431). -/
def Spot.short (p : Spot) (early late : Int) (k limit : Int) : Bool :=
  let pos := 1000 * p.at_ k
  decide (pos - p.den * late < limit * p.den) || decide (p.den * (1000 + early) - pos < limit * p.den)

/-- Channel `c` keeps a histogram D (Table 14.1). -/
def State.keepsD (s : State) (c : Nat) : Bool :=
  s.par K.chanTdc c = 1 && s.par K.chanFast c = 0 && s.par K.chanBrpD c ≠ 0

/-- A pending commit affects the timing of channel `c` (R429). -/
def State.timingPending (s : State) (c : Nat) : Bool :=
  s.commits.any fun k => k.stage.params.any fun kv => timingKeys.contains (kv.1 / 0x100000) && kv.1 % 0x100000 = c

/-- R431 for one phase (0 arbitration, 1 data) of channel `c`. -/
def State.edgeMargin (s : State) (c phase : Nat) (short : Bool) : State :=
  let id := 2 * c + phase
  if !short then s.condOff 0x151 0 id
  else if s.fc.conds.contains (0x151, 0, id) then s
  else (s.condOn 0x151 0 id).raiseU 0x151 0 1 id true (s.chanOwner c)

/-- The planner evaluates one phase of an OPEN channel (R429, R431). -/
def State.planPhase (s : State) (c phase : Nat) : State :=
  let a := (s.chan c).age
  let xs := if phase = 0 then a.histA else a.histD
  if xs.length < s.par K.ageEdgeMin 0 then s
  else
    let p := if phase = 0 then s.spotA c else s.spotD c
    let off := if phase = 0 then a.spA else a.ssp
    let e := edgePhases xs (s.par K.ageEdgeTail 0)
    let t := e.1 + 1000 + e.2
    let k := p.best t
    let now := p.short e.1 e.2 off (s.par K.ageEdgeMarginMin 0)
    let far := p.short e.1 e.2 k (s.par K.ageEdgeMarginMin 0)
    let u := if far then s.edgeMargin c phase true else if now then s else s.edgeMargin c phase false
    let due := if phase = 0 then a.moveA.isSome else a.moveD.isSome
    if k = off || due || s.timingPending c then u
    else
      let new := if off < k then off + 1 else off - 1
      let lim := p.clamped t
      if s.par K.ageMode 0 ≠ 1 then u.noteDecision (2 + phase) (1 + if lim then 2 else 0) off new c 1
      else u.modChan c fun ch =>
        { ch with
          spMoveDue := true
          age := if phase = 0 then { ch.age with moveA := some (new, lim) } else { ch.age with moveD := some (new, lim) } }

/-- Both phases of every OPEN channel. -/
def State.planChannels (s : State) : State :=
  (List.range 32).foldl (fun t c =>
    if (s.chan c).st ≠ .opened then t
    else
      let u := t.planPhase c 0
      if s.keepsD c then u.planPhase c 1 else u) s

/-! ### Spare rows and the keep store (R433, R434) -/

/-- The rows that R433 would swap ahead of failure. -/
def State.weakRows (s : State) : List Nat :=
  let recent := s.store.rowCe.filter fun x => s.now ≤ x.2 + 3600000000000 * s.par K.ageRowWindow 0
  let often := (recent.map (·.1)).filter fun r => s.par K.ageRowCeLimit 0 ≤ (recent.filter fun x => x.1 = r).length
  let twice := (s.store.laneNow.filter s.store.lanePrev.contains).map rowOfLane
  (often ++ twice).filter fun r => s.par K.ageSpareReserve 0 < s.spareFree (bankOfRow r)

/-- A pre-emptive swap (R433): one row, in a tick after any failure swap. -/
def State.planRows (s : State) : State :=
  match minBy id s.weakRows with
  | none => s
  | some r =>
    let b := bankOfRow r
    let free := s.spareFree b
    let index := b + 256 * (r % 1024)
    if s.par K.ageMode 0 ≠ 1 then s.noteDecision 4 1 free (free - 1 : Nat) index 1
    else if s.dev.tick ≤ s.store.swapTick && s.store.swapTick ≠ 0 then s
    else
      let t := s.swapRow r
      let t := { t with keep := { t.keep with
        swapsLife := sat 0xFFFF (t.keep.swapsLife + 1), swapsBank := Tab.mod t.keep.swapsBank b (· + 1) } }
      t.decision 4 0 free (free - 1 : Nat) index 1 0x2A b 0 (free - 1)

/-- PLAN (R425 to R433): every `age.plan_period`. -/
def execPlan (dt : Nat) (s0 : State) : Host.Outcome State Fault Refusal :=
  let s := s0.elapse dt
  let period := 1000000000 * s.par K.agePlanPeriod 0
  if s.dev.mode ≠ .ready || s.supHeld || !s.passed s.age.planAt period then .next s
  else
    let g : Int := s.par K.ageCoreGuard 0
    let t := if s.age.slackPer.isEmpty then s else s.lowSlack s.age.slackPer fun v => decide (v < g)
    let t := t.planCore.planChannels.planRows
    .next { t with age := { t.age with
      perLast := dom s.age.slackPer 0, perLastMhz := s.age.perMhz, slackPer := [], lastPlan := s.clk.time
      planAt := s.age.planAt + period } }

/-- A word that failed the shifted read is rewritten (R434): twice within `age.horizon` raises 0x154. -/
def State.refreshWord (s : State) (w : Nat) : State :=
  let k := s.keep
  let again := k.ksWords.any fun (x : Nat × Nat) => x.1 = w && k.poh ≤ x.2 + s.par K.ageHorizon 0
  let v := Config.refreshValues w
  let t := { s with
    keep := { k with ksLife := sat 0xFFFF (k.ksLife + 1), ksWords := (k.ksWords.filter fun (x : Nat × Nat) => x.1 ≠ w) ++ [(w, k.poh)] }
    age := { s.age with decisions := s.age.decisions + 1 } }
  let t := t.noteDecision 5 0 v.1 v.2 w 1
  if again then t.raise 0x154 0 2 w false 0 else t

/-- KS_SCAN (R434): one full scan every `age.ks_scan`. -/
def execKsScan (dt : Nat) (x : KsScan) (s0 : State) : Host.Outcome State Fault Refusal :=
  let s := s0.elapse dt
  let period := 3600000000000 * s.par K.ageKsScan 0
  if s.dev.mode ≠ .ready || s.supHeld || !s.passed s.age.ksAt period then .next s
  else
    let t := { s with age := { s.age with margin := x.margin, ksAt := s.age.ksAt + period } }
    if s.par K.ageMode 0 ≠ 1 then
      .next (x.weak.foldl (fun u w => u.noteDecision 5 1 (Config.refreshValues w).1 (Config.refreshValues w).2 w 1) t)
    else
      let t := x.weak.foldl State.refreshWord t
      let t := x.failed.foldl (fun u w => u.raise 0x142 0 2 w false 0) t
      .next (if x.weak.isEmpty then t else t.log 0x2B 0 0 0 0 x.weak.length)

/-! ### History (R432, R435) -/

/-- The clock frequency of a domain (Table 1.1, R15, R55). -/
def State.domMhz (s : State) (d : Nat) : Nat :=
  if d = 0 then s.age.mhz else if d = 1 then 600 else if d = 2 then 160 else if d = 5 then 100 else Config.domainMhz d

/-- Two 16-bit numbers in one field. -/
def pack16 (lo hi : Nat) : Nat := lo % 65536 + 65536 * (hi % 65536)

/-- e_early and e_late of a histogram, packed; 0 with too few edges (Table 14.4). -/
def State.phaseField (s : State) (xs : List Int) : Nat :=
  if xs.length < s.par K.ageEdgeMin 0 then 0
  else
    let e := edgePhases xs (s.par K.ageEdgeTail 0)
    pack16 (tc 16 e.1) (tc 16 e.2)

/-- The summary record of a domain, a channel, a bank or the environment (Table 14.4). -/
def State.summary (s : State) (kind k : Nat) : Hist :=
  let a := s.age
  match kind with
  | 1 =>
    let low := dom a.slackLow k
    s.hist 1 k 0 (tc 32 low) (tc 32 (Int.tdiv (dom a.slackSum k) (max 1 a.sumN))) (s.domMhz k)
      (if k = 0 then tc 32 (predicted low a.lowMhz 720) else 0)
  | 2 =>
    let x := (s.chan k).age
    s.hist 2 k 0 (s.phaseField x.histA) (s.phaseField x.histD) (pack16 x.loopMin x.loopMax)
      (pack16 (tc 8 x.spA + 256 * tc 8 x.ssp) x.tdcOutPer)
  | 3 =>
    s.hist 3 k 0 (Tab.get 0 s.store.ce k - Tab.get 0 a.ceSum k).toNat (Tab.get 0 s.store.ue k - Tab.get 0 a.ueSum k).toNat
      (s.spareFree k) (Tab.get 0 s.keep.swapsBank k)
  | _ =>
    s.hist 4 0 0 (tc 32 a.tempHi) (tc 32 (Int.tdiv a.tempSum (max 1 a.sumN))) (pack16 a.v08lo a.v08hi) (pack16 a.v18lo a.v33lo)

/-- The subjects of a summary, in the order of R435. -/
def subjects : List (Nat × Nat) :=
  (List.range 7).map (fun k => (1, k)) ++ (List.range 32).map (fun k => (2, k)) ++ (List.range 16).map (fun k => (3, k)) ++
    [(4, 0)]

/-- The summaries of a subject in a ring, oldest first. -/
def summariesOf (ring : List Hist) (kind k : Nat) : List Hist := ring.filter fun h => h.kind = kind && h.subject = k

/-- The worst value of a field over records: the lowest or highest under a reading of it. -/
def worst (xs : List Hist) (field : Hist → Int) (high : Bool) : Int :=
  match xs with
  | [] => 0
  | x :: r => r.foldl (fun m h => if high then max m (field h) else min m (field h)) (field x)

/-- The long-ring record of a subject over its last 30 summaries (R435): the lowest slack and margin, and the highest
phase, loop delay and error count. -/
def State.longRecord (s : State) (kind k : Nat) : Hist :=
  let all := summariesOf s.keep.daily kind k
  let xs := all.drop (all.length - 30)
  let w := fun (f : Hist → Int) (high : Bool) => worst xs f high
  let s32 := fun (f : Hist → Nat) (h : Hist) => sgn 32 (f h)
  let lo16 := fun (f : Hist → Nat) (h : Hist) => sgn 16 (f h % 65536)
  let hi16 := fun (f : Hist → Nat) (h : Hist) => sgn 16 (f h / 65536)
  let ulo := fun (f : Hist → Nat) (h : Hist) => ((f h % 65536 : Nat) : Int)
  let uhi := fun (f : Hist → Nat) (h : Hist) => ((f h / 65536 : Nat) : Int)
  let nat := fun (f : Hist → Nat) (h : Hist) => ((f h : Nat) : Int)
  match kind with
  | 1 => s.hist 1 k 0 (tc 32 (w (s32 (·.a)) false)) (tc 32 (w (s32 (·.b)) false)) (w (nat (·.c)) false).toNat
      (tc 32 (w (s32 (·.d)) false))
  | 2 =>
    let ys := xs.filter fun h => h.c % 65536 ≠ 0xFFFF
    let d := (xs.getLast?.map (·.d)).getD 0
    s.hist 2 k 0 (pack16 (tc 16 (w (lo16 (·.a)) true)) (tc 16 (w (hi16 (·.a)) true)))
      (pack16 (tc 16 (w (lo16 (·.b)) true)) (tc 16 (w (hi16 (·.b)) true)))
      (if ys.isEmpty then pack16 0xFFFF 0 else pack16 (worst ys (ulo (·.c)) true).toNat (worst ys (uhi (·.c)) true).toNat)
      (pack16 (d % 65536) (w (uhi (·.d)) true).toNat)
  | 3 => s.hist 3 k 0 (w (nat (·.a)) true).toNat (w (nat (·.b)) true).toNat (w (nat (·.c)) false).toNat
      (w (nat (·.d)) true).toNat
  | _ => s.hist 4 0 0 (tc 32 (w (s32 (·.a)) true)) (tc 32 (w (s32 (·.b)) true))
      (pack16 (w (ulo (·.c)) false).toNat (w (uhi (·.c)) true).toNat)
      (pack16 (w (ulo (·.d)) false).toNat (w (uhi (·.d)) false).toNat)

/-- Numerator and denominator of the least-squares slope of points. -/
def slope (ps : List (Int × Int)) : Int × Nat :=
  let n : Int := ps.length
  let sx := (ps.map (·.1)).foldl (· + ·) 0
  let sy := (ps.map (·.2)).foldl (· + ·) 0
  let sxy := (ps.map fun p => p.1 * p.2).foldl (· + ·) 0
  let sxx := (ps.map fun p => p.1 * p.1).foldl (· + ·) 0
  (n * sxy - sx * sy, (n * sxx - sx * sx).toNat)

/-- Drift of channel `c` in 0.1 ns per 1,000 h, and its horizon in hours (R432). -/
def State.driftOf (s : State) (c : Nat) : Int × Nat :=
  let all := (summariesOf s.keep.daily 2 c).filter fun h => h.c % 65536 ≠ 0xFFFF
  let xs := all.drop (all.length - 30)
  match xs.getLast? with
  | none => (0, 0xFFFFFFFF)
  | some h =>
    if xs.length < 7 then (0, 0xFFFFFFFF)
    else
      let fit_ := fun (f : Hist → Nat) =>
        let p := slope (xs.map fun h => ((h.hours : Int), (f h : Int)))
        if p.2 = 0 then 0 else divRound (15625 * p.1) p.2
      let up := fit_ fun h => h.c / 65536
      let down := fit_ fun h => h.c % 65536
      let room := fun (gap : Int) (d : Int) => (divRound (10000 * max 0 gap) (16 * d.natAbs)).toNat
      let far := room (16 * (s.par K.chanTdcMax c : Int) - 25 * (h.c / 65536 : Nat)) up
      let near := room (25 * ((h.c % 65536 : Nat) : Int) - 16 * (s.par K.chanTdcMin c)) down
      if 0 < up && !(down < 0 && near < far) then (up, min 0xFFFFFFFE far)
      else if down < 0 then (down, min 0xFFFFFFFE near)
      else (up, 0xFFFFFFFF)

/-- Takes the drift of channel `c` (R432): source 0x152 is current while the horizon is below `age.horizon`. -/
def State.takeDrift (s : State) (c : Nat) : State :=
  let x := s.driftOf c
  let t := s.modChan c fun ch => { ch with age := { ch.age with drift := x.1, horizon := x.2 } }
  if s.par K.ageHorizon 0 ≤ x.2 then t.condOff 0x152 0 c
  else if s.fc.conds.contains (0x152, 0, c) then t
  else (t.condOn 0x152 0 c).raise 0x152 0 1 c true (s.chanOwner c)

/-- HISTORY_SUMMARY (R432, R435): every `age.summary_period`. -/
def execHistorySummary (dt : Nat) (s0 : State) : Host.Outcome State Fault Refusal :=
  let s := s0.elapse dt
  let period := 3600000000000 * s.par K.ageSummaryPeriod 0
  if s.dev.mode ≠ .ready || s.supHeld || !s.passed s.age.sumAt period then .next s
  else
    let t := subjects.foldl (fun u x => u.histDaily (s.summary x.1 x.2)) s
    let n := s.keep.summaries + 1
    let t := { t with keep := { t.keep with summaries := n } }
    let t := if n % 30 = 0 then subjects.foldl (fun u x => u.histLong (t.longRecord x.1 x.2)) t else t
    let t := (List.range 32).foldl State.takeDrift t
    let t := (List.range 32).foldl (fun u c => u.modChan c fun ch =>
      { ch with age := { ch.age with loopMin := 0xFFFF, loopMax := 0, tdcOutPer := 0 } }) t
    .next { t with age := { t.age with
      slackSum := [], sumN := 0, slackLow := [], ceSum := s.store.ce, ueSum := s.store.ue, sumAt := s.age.sumAt + period } }

/-! ### The margin report (R436) -/

/-- A signed 16-bit field, saturating. -/
def s16 (v : Int) : List Byte := le 2 (tc 16 (max (-32768) (min 32767 v)))

/-- The bank with the fewest free spare rows. -/
def State.weakBank (s : State) : Nat := (minBy s.spareFree (List.range 16)).getD 0

/-- The header of AGE_REPORT (Table 14.6). -/
def State.ageHeader (s : State) : List Byte :=
  let a := s.age
  let k := s.keep
  let weak := s.weakBank
  le 1 (s.par K.ageMode 0) ++
    le 1 (flag 0 (a.mhz = Config.coreFloor) + flag 1 ((s.frec 0x108).st = .fault) +
      flag 2 (s.spareFree weak ≤ s.par K.ageSpareReserve 0)) ++
    le 2 a.mhz ++ le 2 Config.coreFloor ++ le 2 Config.coreMax ++ s16 a.perLast ++ s16 (predicted a.perLast a.perLastMhz 720) ++
    s16 a.temp ++ s16 a.tempMax ++ s16 k.tjPeak ++ le 2 a.v08 ++ le 2 a.v18 ++ le 2 a.v33 ++ le 4 k.poh ++ le 4 k.hot ++
    le 2 (((List.range 16).map s.spareFree).sum) ++ le 1 (s.spareFree weak) ++ le 1 weak ++ le 2 k.swapsLife ++ le 2 k.ksLife ++
    le 2 a.margin ++ zs 2 ++ le 4 a.decisions.toNat ++ le 8 a.lastPlan.toNat ++
    le 4 (if k.daily.isEmpty then 0 else (k.dailySeq - 1).toNat) ++ le 4 (if k.long.isEmpty then 0 else (k.longSeq - 1).toNat)

/-- The trend of a domain (Table 14.7): slope of its lowest slack over the long ring, in per mille per 10,000 h. -/
def State.trend (s : State) (d : Nat) : Int :=
  let p := slope ((summariesOf s.keep.long 1 d).map fun h => ((h.hours : Int), sgn 32 h.a))
  if p.2 = 0 then 0 else Int.tdiv (10000 * p.1) p.2

/-- A domain record (Table 14.7). -/
def State.ageDomain (s : State) (d : Nat) : List Byte :=
  le 1 d ++ zs 1 ++ le 2 (s.domMhz d) ++ s16 (dom s.age.slack d) ++ s16 (dom s.age.slackMin d) ++
    s16 (dom s.keep.slackLife d) ++ s16 (dom s.keep.slackBase d) ++ s16 (s.trend d) ++ zs 2

/-- SP* and the two phases of a histogram; 0 with too few edges (Table 14.8). -/
def State.ageHist (s : State) (xs : List Int) : List Byte × List Byte :=
  if xs.length < s.par K.ageEdgeMin 0 then (zs 2, zs 4)
  else
    let e := edgePhases xs (s.par K.ageEdgeTail 0)
    (s16 (Int.tdiv (e.1 + 1000 + e.2) 2), s16 e.1 ++ s16 e.2)

/-- The window clamps SP* of a histogram that holds enough edges. -/
def State.ageLimit (s : State) (p : Spot) (xs : List Int) : Bool :=
  s.par K.ageEdgeMin 0 ≤ xs.length &&
    p.clamped (let e := edgePhases xs (s.par K.ageEdgeTail 0); e.1 + 1000 + e.2)

/-- A channel record (Table 14.8). -/
def State.ageChannel (s : State) (c : Nat) : List Byte :=
  let ch := s.chan c
  let a := ch.age
  let g := s.cfg c
  let ha := s.ageHist a.histA
  let hd := s.ageHist a.histD
  let frozen : Bool := ch.st = .closed || ch.st = .retired
  le 1 c ++
    le 1 (flag 0 frozen + flag 1 (s.ageLimit (s.spotA c) a.histA) + flag 2 (s.keepsD c && s.ageLimit (s.spotD c) a.histD) +
      flag 3 (s.fc.conds.contains (0x152, 0, c)) +
      flag 4 (s.fc.conds.contains (0x151, 0, 2 * c) || s.fc.conds.contains (0x151, 0, 2 * c + 1))) ++
    le 1 (tc 8 a.spA) ++ le 1 (tc 8 a.ssp) ++ le 2 (g.spA a.spA) ++ ha.1 ++ ha.2 ++ le 4 a.histA.length ++
    le 2 (if s.keepsD c then g.spD a.ssp else 0) ++ hd.1 ++ hd.2 ++ le 4 a.histD.length ++ le 2 a.loopMin ++ le 2 a.loopMax ++
    s16 a.drift ++ zs 2 ++ le 4 a.horizon ++ le 4 a.tdcOut.toNat ++ zs 4

/-- The 1,712 bytes of the margin report (R436). -/
def State.ageReport (s : State) : List Byte :=
  s.ageHeader ++ ((List.range 7).map s.ageDomain).flatten ++ ((List.range 32).map s.ageChannel).flatten

/-! ### Commands 0x0A00 to 0x0A02 (R441) -/

/-- AGE_REPORT (R436). -/
def hAgeReport (r : Req) (s : State) : Answer :=
  if r.bulkLen < 1712 then .refuse stBadLength 12
  else .done stOk (le 4 1712) (s.storeWrite (s.bulkBase r.part + r.bulkOff) s.ageReport)

/-- The 32 bytes of a history record (Table 14.3). -/
def Hist.bytes (h : Hist) : List Byte :=
  le 1 h.kind ++ le 1 h.subject ++ le 1 h.flags ++ zs 1 ++ le 4 h.hours ++ le 8 h.time.toNat ++ le 4 h.a ++ le 4 h.b ++
    le 4 h.c ++ le 4 h.d

/-- AGE_HISTORY (R441): as many records as `count` names. -/
def hAgeHistory (r : Req) (s : State) : Answer :=
  let ring := r.u 0 1
  let n := r.u 2 2
  let from_ := BitVec.ofNat 32 (r.u 4 4)
  if 1 < ring then .refuse stRange 16
  else if r.bulkLen < 32 * n then .refuse stBadLength 12
  else
    let xs := if ring = 0 then s.keep.daily else s.keep.long
    let ys := (xs.filter fun x => 0 ≤ (x.seq - from_).toInt).take n
    .done stOk (le 4 ys.length ++ le 4 ((xs.head?.map fun x => x.seq.toNat).getD 0) ++
        le 4 ((xs.getLast?.map fun x => x.seq.toNat).getD 0))
      (s.storeWrite (s.bulkBase r.part + r.bulkOff) (ys.map Hist.bytes).flatten)

/-- AGE_CLEAR_HIST (R430, R441). -/
def hAgeClearHist (r : Req) (s : State) : Answer :=
  onChan r s fun c =>
    if s.chanInUse c then .refuse stBusy 16
    else if (s.chan c).st = .closed then .refuse stState 16
    else .done stOk [] (s.modChan c fun ch => { ch with age := { ch.age with histA := [], histD := [] } })

/-- What R86 checks of AGE_REPORT. -/
def cmdAgeReport : CmdDef := .plain 0x0A00 8 (offs 0 8)
/-- AGE_REPORT (R436). -/
def execAgeReport (dt : Nat) (m : Mbox) (s : State) : Host.Outcome State Fault Refusal :=
  mailbox cmdAgeReport hAgeReport dt m s
/-- What R86 checks of AGE_HISTORY. -/
def cmdAgeHistory : CmdDef := .plain 0x0A01 8 [1]
/-- AGE_HISTORY (R441). -/
def execAgeHistory (dt : Nat) (m : Mbox) (s : State) : Host.Outcome State Fault Refusal :=
  mailbox cmdAgeHistory hAgeHistory dt m s
/-- What R86 checks of AGE_CLEAR_HIST. -/
def cmdAgeClearHist : CmdDef := .plain 0x0A02 8 (offs 1 7)
/-- AGE_CLEAR_HIST (R430). -/
def execAgeClearHist (dt : Nat) (m : Mbox) (s : State) : Host.Outcome State Fault Refusal :=
  mailbox cmdAgeClearHist hAgeClearHist dt m s

end Sys2Proof.Machine
end

