-- ==== Sys2Proof/Machine/General.lean ====
section
/-! DEFINITION. The commands 0x0000 to 0x0012: partitions, rights and parameters (R91 to R98, R112, R115, R466). -/
namespace Sys2Proof.Machine

/-! ### GET_INFO, PART_STATUS, PART_RESET (R112, R466) -/

/-- GET_INFO (Table 3.29); in Rusk mode every quota and use field is 0. -/
def hGetInfo (r : Req) (s : State) : Answer :=
  let p := r.part
  let z := s.sigUse (some p) []
  let quotas := if s.dev.mode = .rusk then List.replicate 10 0 else
    [s.par K.partRuleQuota p, s.ruleUse (some p) 32 none, s.par K.partSigQuota p, z.1, s.par K.partGrpQuota p, z.2.1,
     s.par K.partSlotQuota p, s.slotUse (some p) [], s.par K.partQQuota p, s.queueUse p]
  .done stOk (le 4 (s.ifver p) ++ le 4 (s.stateReg p) ++ le 1 (portNat (s.portOf p)) ++
    le 1 (if s.dev.mode = .rusk then 0 else (s.part p).hb.code) ++ zs 2 ++ le 4 (s.bulkSize p) ++
    (quotas.map (le 4)).flatten ++ zs 8) s

/-- PART_STATUS (Table 3.30). -/
def hPartStatus (r : Req) (s : State) : Answer :=
  let p := r.u 0 1
  if 7 < p then .refuse stRange 16
  else if r.part ≠ 0 && r.part ≠ p then .refuse stDenied 16
  else
    let ids := (s.commits.filter (·.part = p)).map fun (k : Commit) => k.id.toNat
    let n := min ids.length 120
    .done stOk (le 1 p ++ le 1 (s.part p).hb.code ++ le 2 (s.hbAge p) ++ le 4 (s.stateReg p) ++ le 4 (s.part p).errCount ++
      le 2 (sat 0xFFFF ids.length) ++ le 1 n ++ zs 1 ++ ((ids.take n).map (le 4)).flatten) s

/-- PART_RESET (R112): a long-running command of P0 for another partition. -/
def hPartReset (r : Req) (s : State) : Answer :=
  let p := r.u 0 1
  if p = 0 || 7 < p then .refuse stRange 16
  else if r.part ≠ 0 then .refuse stDenied 0
  else if s.portOf p = .none then .refuse stState 16
  else if (s.part p).resetting.isSome then .refuse stBusy 16
  else .later (r.long p 0 false) (s.startReset p 1)

/-! ### Rights (R96) -/

/-- The resource class of a class code (Table 3.27), with its number of instances. -/
def resOfClass (k : Nat) : Option (PRes × Nat) :=
  match k with
  | 1 => some (.chan, 32)
  | 2 => some (.axis, 128)
  | 3 => some (.queue, 64)
  | 4 => some (.lc, 4)
  | 5 => some (.latch, 16)
  | 6 => some (.sync, 4)
  | 7 => some (.time, 1)
  | _ => none

/-- Partition `p`'s expert rights on a resource are granted or removed. -/
def State.setRights (s : State) (c : PRes) (i p : Nat) (on : Bool) : State :=
  let k := resKey c i
  if s.ownerOf c i = p then { s with revoked := if on then SMap.erase s.revoked k else SMap.put s.revoked k 1 }
  else
    let bits := SMap.get 0 s.expert k
    { s with expert := SMap.set 0 s.expert k (if on then bits ||| 2 ^ p else bits &&& (255 - 2 ^ p)) }

/-- RIGHTS_GRANT and RIGHTS_REVOKE (R96, R108): a change is told to the partition it concerns and to the owner. P0 holds
every right always; an owner grants to other partitions only. -/
def State.rightsCmd (on : Bool) (r : Req) (s : State) : Answer :=
  let p := r.u 1 1
  let i := r.u 2 2
  match resOfClass (r.u 0 1) with
  | none => .refuse stRange 16
  | some (c, n) =>
    if 7 < p then .refuse stRange 17
    else if n ≤ i then .refuse stRange 18
    else if !s.mayOperate r.part c i then .refuse stDenied 16
    else
      let owner := s.ownerOf c i
      if p = owner && r.part ≠ 0 then .refuse stDenied 17
      else if p = 0 || s.expertOn p c i = on then .done stOk [] s
      else
        let t := s.setRights c i p on
        let pay := le 1 (r.u 0 1) ++ le 1 p ++ le 1 (if on then 1 else 0)
        let t := t.event p 0x0008 i pay
        .done stOk [] (if owner = p then t else t.event owner 0x0008 i pay)

/-- RIGHTS_LIST (Table 3.31). -/
def hRightsList (r : Req) (s : State) : Answer :=
  let i := r.u 2 2
  match resOfClass (r.u 0 1) with
  | none => .refuse stRange 16
  | some (c, n) =>
    if n ≤ i then .refuse stRange 18
    else .done stOk (le 1 (r.u 0 1) ++ le 1 (s.ownerOf c i) ++ le 2 i ++
      le 1 (((List.range 8).map fun p => flag p (s.expertOn p c i)).sum) ++ zs 3) s

/-! ### Parameter entries (R92, R93) -/

/-- A parameter entry of Table 3.21, with its value and whether its padding is zero. -/
structure PEntry where
  key : Nat
  len : Nat
  flags : Nat
  val : Nat
  pad : Bool

/-- Parameter number of an entry (R91). -/
def PEntry.num (e : PEntry) : Nat := e.key / 0x100000
/-- Instance of an entry (R91). -/
def PEntry.inst (e : PEntry) : Nat := e.key % 0x100000

/-- Bytes of an entry with a value of `len` bytes. -/
def entryBytes (len : Nat) : Nat := 8 + upTo 8 len

/-- End of `n` entries that begin at `off`, as far as the bytes reach. -/
def entriesEnd (bs : List Byte) : Nat → Nat → Nat
  | 0, off => off
  | n + 1, off => if bs.length < off then off else entriesEnd bs n (off + entryBytes (rd bs (off + 4) 2))

/-- `n` entries with their values from `off` on. -/
def entriesAt (bs : List Byte) : Nat → Nat → List PEntry
  | 0, _ => []
  | n + 1, off =>
    let len := rd bs (off + 4) 2
    { key := rd bs off 4, len := len, flags := rd bs (off + 6) 2, val := rd bs (off + 8) len,
      pad := rd bs (off + 8 + len) (upTo 8 len - len) = 0 } :: entriesAt bs n (off + entryBytes len)

/-- `n` entries without values (PARAM_GET). -/
def entriesBare (bs : List Byte) (n : Nat) : List PEntry :=
  (List.range n).map fun k =>
    { key := rd bs (8 * k) 4, len := rd bs (8 * k + 4) 2, flags := rd bs (8 * k + 6) 2, val := 0, pad := true }

/-- The reserved bytes of inline entries with values, as offsets of the request data with the index of their entry: flags
and padding (Table 3.21). -/
def entrySpots (bs : List Byte) : Nat → Nat → Nat → List (Nat × Nat)
  | 0, _, _ => []
  | n + 1, k, off =>
    if bs.length < off + 8 then []
    else
      let len := rd bs (off + 4) 2
      (([off + 6, off + 7] ++ offs (off + 8 + len) (upTo 8 len - len)).map fun o => (8 + o, k)) ++
        entrySpots bs n (k + 1) (off + entryBytes len)

/-- The reserved bytes of the entries that a PARAM_SET or a PARAM_GET (`get`) holds inline. -/
def Req.spots (r : Req) (get : Bool) : List (Nat × Nat) :=
  if r.bulkLen ≠ 0 then []
  else if get then (List.range (min (r.u 0 2) 61)).flatMap fun k => [(8 + 8 * k + 6, k), (8 + 8 * k + 7, k)]
  else entrySpots (r.data.drop 8) (min (r.u 0 2) 61) 0 0

/-- What a reserved byte reports (R86 step 4, R93): the index of its entry, or its offset in the request. -/
def spotDetail (spots : List (Nat × Nat)) (o : Nat) : Nat := (spots.lookup o).getD (16 + o)

/-- The key of an entry exists and its length fits (R91, R92); the status of the first check that fails. -/
def PEntry.keyBad (e : PEntry) (get : Bool) : Option Nat :=
  if e.flags ≠ 0 then some stRange
  else match pDesc e.num with
    | none => some stBadKey
    | some d =>
      if d.count ≤ e.inst then some stRange
      else if e.len ≠ pSize d.ty && !(get && e.len = 0) then some stRange
      else if !e.pad then some stRange
      else none

/-- The source parameters of a coordinate (R36). -/
def sourceKeys : List Nat :=
  [K.lcSource, K.lcKind, K.lcCntNum, K.lcCntDen, K.lcDirInvert, K.lcTelQueue, K.lcSsiBits, K.lcSsiTurnBits, K.lcSsiCode,
   K.lcSsiParity, K.lcSsiClock, K.lcSsiPeriod, K.lcSsiLatchDelay]

/-- The owner parameters (R96). -/
def ownerKeys : List Nat :=
  [K.chanOwner, K.axOwner, K.qOwner, K.lcOwner, K.latOwner, K.syncOwner, K.timeOwner]

/-- The parameters of a fault source. -/
def faultKeys : List Nat := [K.faultReact, K.faultReactPerm, K.faultGrace, K.faultNotify]

/-- An entry for a reserved fault source: it is accepted and has no effect (Table 16.9). -/
def PEntry.idle (e : PEntry) : Bool := faultKeys.contains e.num && !sourceDefined e.inst

/-- Sources for which BLOCK is offered (Table 12.7). -/
def blockOffered (src : Nat) : Bool :=
  src < 0x20 || (0x40 ≤ src && src ≤ 0x57) || src = 0x72 || src = 0x73 || (0x80 ≤ src && src ≤ 0xFF)

/-- The checks of R93 on one PARAM_SET entry of partition `p`: level, ownership, range and the resource's present
state. -/
def State.entryBad (s : State) (p : Nat) (e : PEntry) : Option Nat :=
  match e.keyBad false, pDesc e.num with
  | some st, _ => some st
  | none, none => some stBadKey
  | none, some d =>
    let i := e.inst
    if p ≠ 0 && (d.p0 || s.ownerOf d.res i ≠ p) then some stDenied
    else if d.expert && !s.expertOn p d.res i then some stDenied
    else if e.idle then none
    else if !d.ok e.val then some stRange
    else if e.num = K.partHbTarget && e.val = i then some stRange
    else if e.num = K.chanTwin && i % 2 = 1 then some stRange
    else if (e.num = K.faultReact || e.num = K.faultReactPerm) && bitOf e.val 3 && !blockOffered i then some stRange
    else if e.num = K.faultReactPerm && 0x120 ≤ i && i ≤ 0x122 && !bitOf e.val 5 then some stRange
    else if sourceKeys.contains e.num && (s.lc i).st ≠ .noSource then some stState
    else if (e.num = K.qDir || e.num = K.qSize) && (s.queue i).isOpen then some stState
    else if ownerKeys.contains e.num && e.val ≠ s.ownerOf d.res i && s.covered (resKey d.res i) then some stBusy
    else if d.commit = 1 && s.stageBusy p (resKey d.res i) then some stBusy
    else none

/-- The index and status of the first entry that fails a check. -/
def firstEntry (f : PEntry → Option Nat) (es : List PEntry) : Option (Nat × Nat) :=
  es.zipIdx.findSome? fun x => (f x.1).map fun st => (x.2, st)

/-! ### Checks over all entries (R76, R93, R98, R114, R126, R127, R231, R389) -/

/-- The value a key will have at the next device reset (R9). -/
def State.resetPar (s : State) (num inst : Nat) : Nat :=
  (SMap.find? s.keep.params (keyId num inst)).getD (pDefault s.dev.straps num inst)

/-- The value a key would have after the entries: the last of them that names it. -/
def entryVal (es : List PEntry) (old : Nat → Nat → Nat) (num inst : Nat) : Nat :=
  ((es.filter fun e => e.key = keyId num inst).getLast?.map (·.val)).getD (old num inst)

/-- The index of the first entry that satisfies a test. -/
def entryIdx (es : List PEntry) (f : PEntry → Bool) : Nat := es.findIdx f

/-- A port map breaks a rule of R76; at most eight partitions can share a port in any map. -/
def mapBad (v : Nat → Nat → Nat) : Bool :=
  (List.range 8).any fun p =>
    match portOfNat (v K.partPort p) with
    | .pa => v K.portPaWidth 0 ≠ 0
    | .pa0 | .pa1 => v K.portPaWidth 0 ≠ 1
    | .pb => v K.portPbWidth 0 ≠ 0
    | .pb0 | .pb1 => v K.portPbWidth 0 ≠ 1
    | .none | .qa | .qb => false

/-- The sum of a parameter over all partitions. -/
def partSum (v : Nat → Nat → Nat) (num : Nat) : Nat := ((List.range 8).map (v num)).sum

/-- A quota is set below the present use of its partition (R98, R127). -/
def State.quotaBelow (s : State) (e : PEntry) (v : Nat) : Bool :=
  let p := e.inst
  if e.num = K.partRuleQuota then v < s.ruleUse (some p) 32 none
  else if e.num = K.partSigQuota then v < (s.sigUse (some p) []).1
  else if e.num = K.partGrpQuota then v < (s.sigUse (some p) []).2.1
  else if e.num = K.partSlotQuota then v < s.slotUse (some p) []
  else if e.num = K.partQQuota then v < s.queueUse p
  else false

/-- The checks on what the entries of a PARAM_SET would lead to; the index and status of the first that fails. `g` is
what its partition would have staged. -/
def State.setBad (s : State) (es : List PEntry) (g : Stage) : Option (Nat × Nat) :=
  let now := entryVal es s.par
  let later := entryVal es s.resetPar
  let has := fun (k : Nat) => es.any fun e => e.num = k
  let at_ := fun (ks : List Nat) => entryIdx es fun e => ks.contains e.num
  let sum := fun (k total : Nat) => if has k && total < partSum now k then some (at_ [k], stNoSpace) else none
  let checks : List (Unit → Option (Nat × Nat)) :=
    [fun _ => if (has K.faultTempCrit || has K.faultTempWarn) && now K.faultTempCrit 0 < now K.faultTempWarn 0 + 5 then
        some (at_ [K.faultTempCrit, K.faultTempWarn], stRange) else none,
     fun _ => firstEntry (fun e => if (e.num = K.qNotifyCount || e.num = K.qDir) && now K.qDir e.inst = 1 &&
        now K.qNotifyCount e.inst = 0 then some stRange else none) es,
     fun _ => firstEntry (fun e => if (e.num = K.objFormat || e.num = K.objSize) &&
        s.viewOf g K.objFormat e.inst % 4 = 2 && s.viewOf g K.objSize e.inst = 0 then
        some stRange else none) es,
     fun _ => sum K.partRuleQuota 65536,
     fun _ => sum K.partSigQuota 262144,
     fun _ => sum K.partGrpQuota 65536,
     fun _ => sum K.partSlotQuota 16384,
     fun _ => sum K.partQQuota s.queueArea,
     fun _ => firstEntry (fun e => if s.quotaBelow e (now e.num e.inst) then some stState else none) es,
     fun _ => if has K.partBulkSize && 0x800000 < partSum later K.partBulkSize then some (at_ [K.partBulkSize], stNoSpace)
        else none,
     fun _ => firstEntry (fun e => if (e.num = K.objDir || e.num = K.objSize) && 65536 < poolBytes (s.viewOf g) (e.inst / 128)
        then some stNoSpace else none) es,
     fun _ => if (has K.partPort || has K.portPaWidth || has K.portPbWidth) && mapBad later then
        some (at_ [K.partPort, K.portPaWidth, K.portPbWidth], stConflict) else none]
  checks.findSome? fun f => f ()

/-! ### PARAM_SET, PARAM_GET, PARAM_LOOKUP (R92 to R94, R466) -/

/-- An IMMEDIATE value takes effect (R9, R97, R109, R130, R380, R413). -/
def State.setNow (s : State) (d : PDesc) (i v : Nat) : State :=
  if ownerKeys.contains d.num then
    let t := if d.num = K.qOwner && s.par K.qOwner i ≠ v then s.flush i 3 false else s
    t.changeOwner d.res i v
  else
    let t := s.setPar d.num i v
    if d.num = K.partHbTimeout then t.hbArm i
    else if d.num = K.faultPinHold then t.pinSettle s
    else if d.num = K.ageMode then (if s.par K.ageMode 0 = v then t else t.log 0x2C 0 0 v 0 0)
    else if d.num = K.powerStartBurst then { t with budget := { t.budget with tokens := min t.budget.tokens v } }
    else t

/-- The parameters whose values the data plane holds: those of the channels, objects, coordinates, signals and contexts, and
of a queue's batches and notification; owner parameters are the control plane's (R21; DESIGN CHOICE, log entry 139). -/
def dataKey (num : Nat) : Bool :=
  ((0x100 ≤ num && num < 0x700) || (0x704 ≤ num && num ≤ 0x706)) && !ownerKeys.contains num

/-- One entry is applied at its commit point (R9, R10): an IMMEDIATE value of the data plane goes to it through the update
ring (R21). -/
def State.applyEntry (p : Nat) (s : State) (e : PEntry) : State :=
  match pDesc e.num with
  | none => s
  | some d =>
    if e.idle then s
    else match d.commit with
      | 0 => if dataKey d.num then s.postUpdate (.par d.num e.inst e.val) else s.setNow d e.inst e.val
      | 1 => s.restage p fun g => g.write e.num e.inst e.val
      | _ => { s with keep := { s.keep with params := SMap.put s.keep.params e.key e.val } }

/-- What the EPOCH entries of a PARAM_SET stage (R31, R102). -/
def stageEntries (es : List PEntry) (g : Stage) : Stage :=
  es.foldl (fun (h : Stage) e =>
    match pDesc e.num with
    | some d => if d.commit = 1 then h.write e.num e.inst e.val else h
    | none => h) g

/-- PARAM_SET (R93): every entry is checked before any is applied. Where the data plane has values to apply, the command
completes once they are acknowledged (R21). -/
def hParamSet (r : Req) (s : State) : Answer :=
  let n := r.u 0 2
  let bulk := decide (r.bulkLen ≠ 0)
  let bs := if bulk then s.bulkIn r else r.data.drop 8
  if bulk && r.bulkLen ≠ entriesEnd bs n 0 then .refuse stBadLength 12
  else if bulk && s.poisoned (s.bulkBase r.part + r.bulkOff) r.bulkLen then .refuse stIntegrity 12
  else
    let es := entriesAt bs n 0
    match firstEntry (s.entryBad r.part) es with
    | some (i, st) => .refuse st i
    | none =>
      match s.setBad es (stageEntries es (s.stage r.part)) with
      | some (i, st) => .refuse st i
      | none =>
        let staged := es.any fun e => match pDesc e.num with
          | some d => d.commit = 1
          | none => false
        let st := if staged then stStaged else stOk
        let t := es.foldl (State.applyEntry r.part) s
        if t.upd.posted = s.upd.posted then .done st [] t else .later (r.long st t.upd.posted true) t

/-- The entry that PARAM_GET returns for a key (R92, R94). -/
def State.entryOut (s : State) (staged : Bool) (e : PEntry) : List Byte :=
  let size := ((pDesc e.num).map fun d => pSize d.ty).getD 0
  let st := if staged then s.stagedPar e.num e.inst else none
  let v := st.getD (s.par e.num e.inst)
  let custom := (e.num = K.chanRateA || e.num = K.chanRateD) && v = 0xFF
  le 4 e.key ++ le 2 size ++ le 2 (flag 0 st.isSome + flag 1 custom) ++ fit (upTo 8 size) (le size v)

/-- PARAM_GET (R92, R94). -/
def hParamGet (r : Req) (s : State) : Answer :=
  let n := r.u 0 2
  let which := r.u 2 1
  let bulk := decide (r.bulkLen ≠ 0)
  if 1 < which then .refuse stRange 18
  else if bulk && r.bulkLen < 8 * n then .refuse stBadLength 12
  else if bulk && s.poisoned (s.bulkBase r.part + r.bulkOff) (8 * n) then .refuse stIntegrity 12
  else
    let es := entriesBare (if bulk then s.bulkIn r else r.data.drop 8) n
    match firstEntry (fun e => e.keyBad true) es with
    | some (i, st) => .refuse st i
    | none =>
      let out := (es.map (s.entryOut (decide (which = 1)))).flatten
      if bulk then
        if r.bulkLen < out.length then .refuse stBadLength 12
        else .done stOk (le 4 out.length) (s.storeWrite (s.bulkBase r.part + r.bulkOff) out)
      else if 496 < 8 + out.length then .refuse stBadLength 4
      else .done stOk (le 2 n ++ zs 6 ++ out) s

/-- Bytes up to and including the first zero byte of a PARAM_LOOKUP name; a name of more than 64 bytes has no length that
a request can have. -/
def nameLen (data : List Byte) : Nat :=
  let n := data.findIdx (· = 0) + 1
  if 64 < n then 497 else n

/-- PARAM_LOOKUP (Table 3.32). -/
def hParamLookup (r : Req) (s : State) : Answer :=
  let name := String.ofList ((r.data.takeWhile (· ≠ 0)).map fun b => Char.ofNat b.toNat)
  match pNamed name with
  | none => .refuse stBadKey 16
  | some d => .done stOk (le 4 (keyId d.num 0) ++ le 1 (if d.expert then 1 else 0) ++ le 1 d.commit ++ le 1 d.ty ++ zs 1 ++
      le 2 (pSize d.ty) ++ zs 6) s

/-! ### The rows -/

/-- What R86 checks of GET_INFO. -/
def cmdGetInfo : CmdDef := { CmdDef.plain 0x0000 0 [] with rusk := true }
/-- GET_INFO (R466); Rusk mode serves it (R407). -/
def execGetInfo (dt : Nat) (m : Mbox) (s : State) : Host.Outcome State Fault Refusal :=
  mailbox cmdGetInfo hGetInfo dt m s
/-- What R86 checks of PART_STATUS. -/
def cmdPartStatus : CmdDef := .plain 0x0001 8 (offs 1 7)
/-- PART_STATUS (R466). -/
def execPartStatus (dt : Nat) (m : Mbox) (s : State) : Host.Outcome State Fault Refusal :=
  mailbox cmdPartStatus hPartStatus dt m s
/-- What R86 checks of PART_RESET. -/
def cmdPartReset : CmdDef := .plain 0x0002 8 (offs 1 7)
/-- PART_RESET (R112). -/
def execPartReset (dt : Nat) (m : Mbox) (s : State) : Host.Outcome State Fault Refusal :=
  mailbox cmdPartReset hPartReset dt m s
/-- What R86 checks of RIGHTS_GRANT. -/
def cmdRightsGrant : CmdDef := .plain 0x0003 8 (offs 4 4)
/-- RIGHTS_GRANT (R96). -/
def execRightsGrant (dt : Nat) (m : Mbox) (s : State) : Host.Outcome State Fault Refusal :=
  mailbox cmdRightsGrant (State.rightsCmd true) dt m s
/-- What R86 checks of RIGHTS_REVOKE. -/
def cmdRightsRevoke : CmdDef := .plain 0x0004 8 (offs 4 4)
/-- RIGHTS_REVOKE (R96, R32). -/
def execRightsRevoke (dt : Nat) (m : Mbox) (s : State) : Host.Outcome State Fault Refusal :=
  mailbox cmdRightsRevoke (State.rightsCmd false) dt m s
/-- What R86 checks of RIGHTS_LIST. -/
def cmdRightsList : CmdDef := .plain 0x0005 8 (1 :: offs 4 4)
/-- RIGHTS_LIST (R466). -/
def execRightsList (dt : Nat) (m : Mbox) (s : State) : Host.Outcome State Fault Refusal :=
  mailbox cmdRightsList hRightsList dt m s
/-- What R86 checks of PARAM_SET. -/
def cmdParamSet : CmdDef :=
  { CmdDef.plain 0x0010 8 [] with
    resv := fun r => offs 2 6 ++ (r.spots false).map (·.1)
    detail := fun r => spotDetail (r.spots false)
    len := fun r => if r.bulkLen ≠ 0 then 8 else 8 + entriesEnd (r.data.drop 8) (r.u 0 2) 0 }
/-- PARAM_SET (R93). -/
def execParamSet (dt : Nat) (m : Mbox) (s : State) : Host.Outcome State Fault Refusal :=
  mailbox cmdParamSet hParamSet dt m s
/-- What R86 checks of PARAM_GET. -/
def cmdParamGet : CmdDef :=
  { CmdDef.plain 0x0011 8 [] with
    resv := fun r => offs 3 5 ++ (r.spots true).map (·.1)
    detail := fun r => spotDetail (r.spots true)
    len := fun r => if r.bulkLen ≠ 0 then 8 else 8 + 8 * r.u 0 2 }
/-- PARAM_GET (R94). -/
def execParamGet (dt : Nat) (m : Mbox) (s : State) : Host.Outcome State Fault Refusal :=
  mailbox cmdParamGet hParamGet dt m s
/-- What R86 checks of PARAM_LOOKUP. -/
def cmdParamLookup : CmdDef := { CmdDef.plain 0x0012 0 [] with len := fun r => nameLen r.data }
/-- PARAM_LOOKUP (R466). -/
def execParamLookup (dt : Nat) (m : Mbox) (s : State) : Host.Outcome State Fault Refusal :=
  mailbox cmdParamLookup hParamLookup dt m s

end Sys2Proof.Machine
end

