-- ==== Sys2Proof/Machine/Sha.lean ====
section
/-! DEFINITION. SHA-384 (FIPS 180-4), by which R401 checks the digest of a firmware image. PRESUMED from the standard
that R400 names (log entry 5). The standard's constants are computed as it defines them: 64 bits of the fractional part
of the roots of primes. -/
namespace Sys2Proof.Sha

/-- The primes below 410: the first 80. -/
def primes : List Nat :=
  (List.range 410).filter fun n => decide (1 < n) && [2, 3, 5, 7, 11, 13, 17, 19].all fun d => n = d || n % d ≠ 0

/-- The largest `r` with `r ^ e ≤ v`, from its `n` low binary digits on. -/
def root (e v : Nat) : Nat → Nat → Nat
  | 0, r => r
  | n + 1, r => root e v n (if (r + 2 ^ n) ^ e ≤ v then r + 2 ^ n else r)

/-- The first 64 bits of the fractional part of the `e`-th root of a prime. -/
def frac (e p : Nat) : W64 := BitVec.ofNat 64 (root e (p * 2 ^ (64 * e)) 70 0)

/-- The 80 round constants: cube roots. -/
def rounds : List W64 := primes.map (frac 3)

/-- The initial hash value: square roots of the ninth to sixteenth prime. -/
def start : List W64 := ((primes.drop 8).take 8).map (frac 2)

/-- The exclusive or of a word rotated right by each of the amounts. -/
def mix (x : W64) (by_ : List Nat) : W64 := by_.foldl (fun a n => a ^^^ x.rotateRight n) 0

/-- The number that bytes spell, the most significant first. -/
def num (bs : List Byte) : Nat := bs.foldl (fun a b => 256 * a + b.toNat) 0

/-- `n` bytes of a number, the most significant first. -/
def bytes (n v : Nat) : List Byte := (List.range n).reverse.map fun i => BitVec.ofNat 8 (v / 256 ^ i)

/-- The message schedule, newest word first, with `n` words still to come: word t is σ1 of word t - 2, word t - 7,
σ0 of word t - 15 and word t - 16. -/
def schedule : Nat → List W64 → List W64
  | 0, ws => ws
  | n + 1, ws =>
    let ago := fun k => ws.getD (k - 1) 0
    let new := ago 16 + (mix (ago 15) [1, 8] ^^^ ago 15 >>> 7) + ago 7 + (mix (ago 2) [19, 61] ^^^ ago 2 >>> 6)
    schedule n (new :: ws)

/-- One round over the eight working words, with the sum of its constant and its schedule word. -/
def round (v : List W64) (kw : W64) : List W64 :=
  match v with
  | [a, b, c, d, e, f, g, h] =>
    let choice := (e &&& f) ||| (~~~e &&& g)
    let majority := (a &&& (b ||| c)) ||| (b &&& c)
    let t := h + mix e [14, 18, 41] + choice + kw
    [t + mix a [28, 34, 39] + majority, a, b, c, d + t, e, f, g]
  | _ => v

/-- The hash value after one block of 128 bytes. -/
def block (v : List W64) (bs : List Byte) : List W64 :=
  let first := (List.range 16).reverse.map fun i => BitVec.ofNat 64 (num ((bs.drop (8 * i)).take 8))
  let kws := List.zipWith (· + ·) rounds (schedule 64 first).reverse
  List.zipWith (· + ·) v (kws.foldl round v)

/-- The hash value after `n` blocks. -/
def hash : Nat → List W64 → List Byte → List W64
  | 0, v, _ => v
  | n + 1, v, bs => hash n (block v (bs.take 128)) (bs.drop 128)

/-- The 48-byte digest of a message, padded by a one bit, zeros and its length in bits. -/
def sha384 (msg : List Byte) : List Byte :=
  let fill := (128 - (msg.length + 17) % 128) % 128
  let all := msg ++ 0x80 :: List.replicate fill 0 ++ bytes 16 (8 * msg.length)
  (((hash (all.length / 128) start all).take 6).map fun w => bytes 8 w.toNat).flatten

end Sys2Proof.Sha
end

