-- ==== Sys2Proof/Machine/Boot.lean ====
section
/-! DEFINITION. The boot flow, failed starts and Rusk mode (R392 to R408), the device reset (R409 to R411), and the
commands 0x0900 to 0x0905 (R419, R420). -/
namespace Sys2Proof.Machine

/-! ### Firmware slots (R399 to R401) -/

/-- The other of the slots 1 (A) and 2 (B). -/
def otherSlot (n : Nat) : Nat := 3 - n

/-- A firmware slot. -/
def Keep.slot (k : Keep) (n : Nat) : FwSlot := if n = 1 then k.slotA else k.slotB

/-- Gives a firmware slot a content. -/
def Keep.setSlot (k : Keep) (n : Nat) (x : FwSlot) : Keep := if n = 1 then { k with slotA := x } else { k with slotB := x }

/-- The slot a start tries first (R399): the slot that DEV_RESTART names; after a failed attempt the slot other than the
one it ran or, where it ran none, than the one it tried first; else the preferred slot. -/
def State.firstSlot (s : State) (origin : ResetOrigin) : Nat :=
  if origin = .restart && s.dev.restartSlot ≠ 0 then s.dev.restartSlot
  else match s.keep.recs.getLast? with
    | some r =>
      if r.outcome = 1 then otherSlot (if r.slots % 4 = 0 then s.keep.tried else r.slots % 4) else s.keep.pref
    | none => s.keep.pref

/-! ### Boot records (R403, R404, R422) -/

/-- Origin codes of Table 13.6. -/
def ResetOrigin.code (o : ResetOrigin) : Nat :=
  match o with
  | .porst => 0 | .chip => 1 | .restart => 2 | .failed => 3

/-- Closes the record of the start that runs (R403, R404). -/
def State.closeRec (s : State) (outcome reason step detail : Nat) : State :=
  let run := s.dev.runSlot
  let f := s.keep.slot run
  let g := fun (r : BootRec) =>
    { r with
      outcome := outcome, reason := reason, step := step, detail := detail, tEnd := s.clk.time, fails := s.keep.fails
      slots := run + 4 * s.keep.pref + flag 4 (outcome = 0 && s.dev.fallback), slotA := s.dev.resultA, slotB := s.dev.resultB
      major := if run = 0 then 0 else f.major, minor := if run = 0 then 0 else f.minor
      build := if run = 0 then 0 else f.build }
  { s with
    dev := { s.dev with tEnd := s.clk.time }
    keep := { s.keep with isOpen := false, recs := s.keep.recs.dropLast ++ (s.keep.recs.getLast?.map g).toList } }

/-- The start fails (R403): the failure counter rises, the record is closed and a device reset is due. -/
def State.failStart (s : State) (reason step detail : Nat) : State :=
  let t := { s with keep := { s.keep with fails := sat 255 (s.keep.fails + 1) } }
  let u := t.closeRec 1 reason step detail
  { u with dev := { u.dev with resetDue := some .failed } }

/-- STATE.DEV has changed (Table 3.13): IRQ_STATUS.DEV_STATE is set in every served partition (R398). -/
def State.devChanged (s : State) : State :=
  (List.range 8).foldl (fun t p => if s.served p then t.irqCause p 6 else t) s

/-! ### The self-test (R402) -/

/-- A test result: the state, and the step and detail that fail the start. -/
abbrev Tested := State × Option (Nat × Nat)

/-- Runs a step unless an earlier one has failed the start. -/
def Tested.then_ (x : Tested) (f : State → Tested) : Tested := if x.2.isSome then x else f x.1

/-- A step that fails the start if the observation says so. -/
def bootStep (o : BootObs) (n : Nat) (s : State) : Tested :=
  match o.failStep with
  | some (k, d) => if k = n then (s, some (n, d.toNat)) else (s, none)
  | none => (s, none)

/-- Step 3: a failing row is swapped for a spare; a bank without a free spare fails the start. -/
def testRow (s : State) (x : Nat × Nat) : Tested :=
  if s.keep.swaps.contains x then (s, none)
  else if s.spareFree x.1 = 0 then (s, some (3, x.1))
  else (s.swapRow (x.1 * 1024 + x.2), none)

/-- Step 5: a unit fails while the other is in service and is retired; the last unit in service fails the start. -/
def testUnit (s : State) (u : Nat) : Tested :=
  if !s.unitOk u then (s, none)
  else if !s.unitOk (1 - u) then (s, some (5, u))
  else (s.retireUnit u, none)

/-- Step 7: a channel engine fails and is retired with sub-cause SELFTEST. -/
def testChan (s : State) (c : Nat) : Tested :=
  if s.keep.retired.any (fun (x : Nat × Nat) => x.1 = c) then (s, none)
  else ({ s with keep := { s.keep with retired := s.keep.retired ++ [(c, 0x13)] } }, none)

/-- The self-test in the order of Table 13.5. -/
def State.selfTest (s : State) (o : BootObs) : Tested :=
  let run := fun (x : Tested) (n : Nat) => x.then_ (bootStep o n)
  let x := run (run (s, none) 1) 2
  let x := o.badRows.foldl (fun (y : Tested) r => y.then_ fun t => testRow t r) (run x 3)
  let x := run (run x 4) 5
  let x := o.badUnits.foldl (fun (y : Tested) u => y.then_ fun t => testUnit t u) x
  let x := run (run x 6) 7
  let x := o.badChans.foldl (fun (y : Tested) c => y.then_ fun t => testChan t c) x
  run x 8

/-! ### The boot flow (R396, R398, R405) -/

/-- The record of a retired part after a device reset (R371): in FAULT, permanent, with its cause, which is latched. -/
def FRec.retired (cause : Nat) : FRec :=
  { FRec.reset with st := .fault, cls := 2, cause := cause, lastCause := cause, latched := true }

/-- Step 7: retired channels and gateway units come into their state, and the CORE frequency of the history is restored
(R371, R428). -/
def State.restore (s : State) (o : BootObs) : State :=
  let t := s.keep.retired.foldl (fun (u : State) (x : Nat × Nat) =>
    (u.modChan x.1 fun ch => { ch with st := .retired, err := { ch.err with retireCause := x.2, restored := true } }).modRec
      x.1 fun _ => FRec.retired x.2) s
  let t := s.keep.units.foldl (fun (u : State) k => u.modRec (0x72 + k) fun _ => FRec.retired 0) t
  if s.keep.coreRec ≠ 0 && s.keep.coreRec ≠ s.age.mhz && o.coreOk then t.setCore s.keep.coreRec 3 0 else t

/-- READY (R398): the counter is cleared and the record closed; then the windows show it and the log holds it. -/
def State.ready (s : State) : State :=
  let t := { s with keep := { s.keep with fails := 0 } }
  let t := t.closeRec 0 0 0 0
  let f := t.keep.slot t.dev.runSlot
  let t := { t with
    dev := { t.dev with mode := .ready, tick := t.tickAt, mboxVer := f.mboxVer, fwMajor := f.major, fwMinor := f.minor, fwBuild := f.build }
    fc := { t.fc with aliveAt := upTo 500000 t.now, renewAt := t.now }
    budget := { t.budget with mark := t.now / 1000000 }
    age := { t.age with planAt := t.now, sampleAt := t.now, sumAt := t.now, ksAt := t.now } }
  t.devChanged.log 0x20 0 (t.keep.boot % 65536) 0 0 0

/-- Rusk mode (R405): with reason FORCED or FAIL_LIMIT, which closes the record and is logged. -/
def State.enterRusk (s : State) (reason : Nat) : State :=
  let t := s.closeRec 3 reason 0 0
  let t := { t with dev := { t.dev with mode := .rusk, ruskReason := reason } }
  t.devChanged.log 0x21 0 (t.keep.boot % 65536) reason 0 t.keep.fails

/-- Verifies slot `n` (R401); an uncorrectable read makes it invalid until it is written again and raises 0x141. -/
def State.checkSlot (s : State) (n : Nat) (o : BootObs) : State :=
  let t := if (if n = 1 then o.readErrA else o.readErrB) then
      { s with keep := s.keep.setSlot n { s.keep.slot n with code := 6 } }.raiseU 0x141 0 2 n false 0
    else s
  let r := (t.keep.slot n).code
  { t with dev := if n = 1 then { t.dev with resultA := r } else { t.dev with resultB := r } }

/-- Slot `n` runs (R399). -/
def State.runs (s : State) (n : Nat) : State :=
  { s with dev := { s.dev with runSlot := n, fallback := decide (n ≠ s.keep.pref) } }

/-- Step 4 (R399): verifies the slot `first` and, where it is not valid, the other. -/
def State.selectSlot (s : State) (first : Nat) (o : BootObs) : State :=
  let t := s.checkSlot first o
  if (t.keep.slot first).code = 0 then t.runs first
  else
    let u := t.checkSlot (otherSlot first) o
    if (u.keep.slot (otherSlot first)).code = 0 then u.runs (otherSlot first) else u

/-- The parameters that the keep store holds at a start, and that come into force: those with commit point RESET. A port map
that cannot be read (`lost`) or that breaks a rule of R76 is ignored as a whole, and the default map is what later entries
join. -/
def State.resetParams (s : State) (lost : Bool) : SMap Nat :=
  if lost || mapBad s.resetPar then
    s.keep.params.filter fun kv =>
      kv.1 / 0x100000 ≠ K.partPort && kv.1 / 0x100000 ≠ K.portPaWidth && kv.1 / 0x100000 ≠ K.portPbWidth
  else s.keep.params

/-- The whole device in reset (R394, R410): only the keep store, the sampled straps, the rails and the TAP stay. A slot
write that was under way leaves its slot invalid (R411). -/
def State.wiped (s : State) : State :=
  { State.reset with
    keep := match s.keep.writing with
      | some (n, _) =>
        { s.keep.setSlot n { s.keep.slot n with code := 1 + Config.abandonedSlot s.keep.boot % 6 } with writing := none }
      | none => s.keep
    dev := { Dev.reset with porst := s.dev.porst, straps := s.dev.straps, v08 := s.dev.v08, v18 := s.dev.v18,
                            v33 := s.dev.v33, tap := s.dev.tap }
    out := s.out, fresh := s.fresh, pending := s.pending }

/-- Step 1 (R396, R404): the start's record with outcome INTERRUPTED, the restored swaps, and the report of an abandoned
write (R394). -/
def State.bootStep1 (s : State) (origin : ResetOrigin) (first : Nat) : State :=
  let boot := s.keep.boot + 1
  let r : BootRec :=
    { boot := boot % 65536, origin := origin.code, straps := s.dev.straps.toNat, outcome := 2, reason := 0,
      slots := 4 * s.keep.pref, fails := s.keep.fails, slotA := 7, slotB := 7, step := 0, detail := 0,
      tEnd := Config.bootWriteTime boot, major := 0, minor := 0, build := 0 }
  let t := { s with
    keep := { s.keep with
      boot := boot, recs := (s.keep.recs ++ [r]).drop (s.keep.recs.length + 1 - 64), isOpen := true, tried := first
      interrupted := false }
    store := { s.store with
      spare := s.keep.swaps.foldl (fun (m : Tab Nat 16) (x : Nat × Nat) => Tab.mod m x.1 (· + 1)) s.store.spare }
    dev := { s.dev with
      mode := .boot, unitsOk := (!s.keep.units.contains 0, !s.keep.units.contains 1) } }
  if s.keep.interrupted then t.raiseU 0x143 0 0 0 false 0 else t

/-- Steps 2 to 8 of Table 13.3, which end `o.took` cycles after the release: in Rusk mode, at READY, in a failed start,
or in a stall before READY. -/
def State.bootOn (s : State) (first : Nat) (o : BootObs) : State :=
  if s.dev.straps.getLsbD 1 then (s.elapse o.took).enterRusk 5
  else if 3 ≤ s.keep.fails then (s.elapse o.took).enterRusk 6
  else
    let ps := s.resetParams o.mapLost
    let t := { s with params := ps, keep := { s.keep with params := ps } }.selectSlot first o
    if t.dev.runSlot = 0 then (t.elapse o.took).failStart 4 0 0
    else if o.stall then t.elapse o.took
    else
      let x := t.selfTest o
      match x.2 with
      | some (n, d) => (x.1.elapse o.took).failStart 3 n d
      | none => ((x.1.elapse o.took).restore o).ready

/-- A start (R396): the device comes out of reset and runs the boot flow. -/
def State.start (s : State) (origin : ResetOrigin) (o : BootObs) : State :=
  let first := s.firstSlot origin
  (s.wiped.bootStep1 origin first).bootOn first o

/-! ### Reset rows -/

/-- The instruction drives pins (R458). -/
def tapDrives (i : TapInstr) : Bool :=
  match i with
  | .extest | .extestPulse | .extestTrain | .clamp | .highz => true
  | .bypass | .idcode | .samplePreload => false

/-- POWER_ON_RESET (R395, R396): PORST_N rises after its low pulse, with every rail inside its window (R392); the straps
are sampled, a TAP whose instruction drives pins enters Test-Logic-Reset (R458), and the device starts. -/
def execPowerOnReset (dt : Nat) (straps : Straps) (o : BootObs) (s0 : State) : Host.Outcome State Fault Refusal :=
  let s := s0.elapse dt
  if s.dev.porst then .next s
  else
    let tap := if tapDrives s.dev.tap then .idcode else s.dev.tap
    let t := { s with
      dev := { s.dev with porst := true, straps := straps, v08 := true, v18 := true, v33 := true, tap := tap } }
    .next (t.start .porst o)

/-- The device goes into reset (R394): a write that is abandoned is found at the next start. -/
def State.hold (s : State) : State :=
  let cut := s.keep.interrupted || s.keep.writing.isSome
  let t := s.wiped
  { t with keep := { t.keep with interrupted := cut, isOpen := false } }

/-- PORST_N_FALL (R394): every channel pin takes the levels of R155, and the whole device is in reset. -/
def execPorstNFall (dt : Nat) (s0 : State) : Host.Outcome State Fault Refusal :=
  let s := s0.elapse dt
  if s.dev.porst then .next { s with dev := { s.dev with porst := false } }.hold else .next s

/-- POWER_FAIL (R394): the 0.8 V rail leaves its window. -/
def execPowerFail (dt : Nat) (s0 : State) : Host.Outcome State Fault Refusal :=
  let s := s0.elapse dt
  .next { s with dev := { s.dev with v08 := false } }.hold

/-- The device reset that is due (R403, R410, R419), with its origin. -/
def State.resetOrigin (s : State) : Option ResetOrigin :=
  match s.dev.resetDue with
  | some o => some o
  | none => match s.dev.restartAt with
    | some t => if t ≤ s.now then some .restart else none
    | none => none

/-- DEVICE_RESET (R410): a device reset that is due, of any origin but PORST_N, starts the device anew. -/
def execDeviceReset (dt : Nat) (o : BootObs) (s0 : State) : Host.Outcome State Fault Refusal :=
  let s := s0.elapse dt
  match s.dev.mode, s.resetOrigin with
  | .held, _ => .next s
  | .boot, some r => .next (s.start r o)
  | .ready, some r => .next (s.start r o)
  | .rusk, some r => .next (s.start r o)
  | _, none => .next s

/-- A start has neither ended nor failed. -/
def State.starting (s : State) : Bool := s.dev.mode = .boot && s.keep.isOpen

/-- READY_TIMEOUT (R403): 2,000 ms have passed without READY. -/
def execReadyTimeout (dt : Nat) (s0 : State) : Host.Outcome State Fault Refusal :=
  let s := s0.elapse dt
  if s.starting && 2000000000 ≤ s.now then .next (s.failStart 1 0 0) else .next s

/-- WATCHDOG (R396, R403): it ends a start, and later raises 0x106 with the core in its detail. -/
def execWatchdog (dt : Nat) (core : Fin 6) (s0 : State) : Host.Outcome State Fault Refusal :=
  let s := s0.elapse dt
  match s.dev.mode with
  | .held => .next s
  | .boot => if s.starting then .next (s.failStart 2 0 core) else .next s
  | .ready | .rusk => .next (s.raise 0x106 0 2 core false 0)

/-! ### BOOT_STATUS, BOOT_RECORDS (R404, R419, R420) -/

/-- The 32 bytes of a boot record (Table 13.6). -/
def BootRec.bytes (r : BootRec) : List Byte :=
  le 2 r.boot ++ le 1 r.origin ++ le 1 r.straps ++ le 1 r.outcome ++ le 1 r.reason ++ le 1 r.slots ++ le 1 r.fails ++
    le 1 r.slotA ++ le 1 r.slotB ++ le 1 r.step ++ zs 1 ++ le 4 r.detail ++ le 8 r.tEnd.toNat ++ le 1 r.major ++
    le 1 r.minor ++ zs 2 ++ le 4 r.build

/-- The reasons of the three newest FAILED records, oldest first; 0 where fewer exist (Table 13.13). -/
def State.failReasons (s : State) : List Byte :=
  let rs := (s.keep.recs.filter (·.outcome = 1)).map (·.reason)
  fit 3 ((rs.drop (rs.length - 3)).map (BitVec.ofNat 8))

/-- BOOT_STATUS (R420). -/
def hBootStatus (_r : Req) (s : State) : Answer :=
  let d := s.dev
  let k := s.keep
  let ver := fun (res n : Nat) => if res = 0 then le 1 (k.slot n).major ++ le 1 (k.slot n).minor else zs 2
  let build := fun (res n : Nat) => if res = 0 then (k.slot n).build else 0
  .done stOk (le 1 d.mode.code ++ le 1 d.straps.toNat ++ le 1 k.fails ++ le 1 d.ruskReason ++ s.failReasons ++ le 1 k.pref ++
    le 1 d.runSlot ++ le 1 (flag 0 d.fallback) ++ le 1 d.resultA ++ le 1 d.resultB ++ ver d.resultA 1 ++ ver d.resultB 2 ++
    le 4 (build d.resultA 1) ++ le 4 (build d.resultB 2) ++ le 2 k.boot ++ zs 6 ++ le 8 d.tEnd.toNat ++ zs 8) s

/-- BOOT_RECORDS (R419): the newest records in ascending boot order. -/
def hBootRecords (r : Req) (s : State) : Answer :=
  let n := r.u 0 1
  if n = 0 || 64 < n then .refuse stRange 16
  else if r.bulkLen < 32 * n then .refuse stBadLength 12
  else
    let xs := s.keep.recs.drop (s.keep.recs.length - n)
    .done stOk (le 1 xs.length ++ zs 7)
      (s.storeWrite (s.bulkBase r.part + r.bulkOff) (xs.map BootRec.bytes).flatten)

/-! ### FW_LOAD, FW_SELECT (R101, R400, R401, R419) -/

/-- The first check of R401 that an image fails: its result code and the offset of the first field at fault. -/
def imageCheck (bs : List Byte) : Option (Nat × Nat) :=
  let len := rd bs 12 4
  let zero := fun (off n : Nat) => ((bs.drop off).take n).all (· = 0)
  if rd bs 0 4 ≠ 0x544B5341 then some (1, 0)
  else if rd bs 4 2 ≠ 9 then some (2, 4)
  else if rd bs 6 2 ≠ 1 then some (2, 6)
  else if len = 0 || 2096640 < len then some (2, 12)
  else if !zero 20 12 then some (2, 20)
  else if !zero 176 336 then some (2, 176)
  else if rd bs 8 1 ≠ 0xB0 then some (3, 8)
  else if Sha.sha384 ((bs.drop 512).take len) ≠ (bs.drop 32).take 48 then some (4, 32)
  else if !Config.signatureOk (bs.take 80) ((bs.drop 80).take 96) then some (5, 80)
  else none

/-- A FW_LOAD runs (R88). -/
def State.loading (s : State) : Bool := s.keep.writing.isSome

/-- FW_LOAD (R419): the image is verified whole before the write of the slot begins; a long-running command. -/
def hFwLoad (r : Req) (s : State) : Answer :=
  let n := r.u 0 1
  let bs := s.bulkIn r
  if n ≠ 1 && n ≠ 2 then .refuse stRange 16
  else if r.part ≠ 0 then .refuse stDenied 0
  else if s.loading then .refuse stBusy 16
  else if s.dev.runSlot = n then .refuse stState 16
  else if r.bulkLen < 512 then .refuse stBadLength 12
  else if s.poisoned (s.bulkBase r.part + r.bulkOff) r.bulkLen then .refuse stIntegrity 12
  else
    let len := rd bs 12 4
    if rd bs 0 4 = 0x544B5341 && len ≤ 2096640 && r.bulkLen < 512 + len then .refuse stBadLength 12
    else match imageCheck bs with
      | some (_, off) => .refuse stIntegrity off
      | none =>
        let f : FwSlot :=
          { code := 0, mboxVer := rd bs 11 1, major := rd bs 9 1, minor := rd bs 10 1, build := rd bs 16 4 }
        .later (r.long n 0 false) { s with keep := { s.keep with writing := some (n, f) } }

/-- FW_LOAD_DONE (R419): the slot is written and verified. -/
def execFwLoadDone (dt : Nat) (s0 : State) : Host.Outcome State Fault Refusal :=
  let s := s0.elapse dt
  match s.keep.writing with
  | none => .next s
  | some (n, f) =>
    let t := { s with
      keep := { s.keep.setSlot n f with writing := none }
      dev := if n = 1 then { s.dev with resultA := 0 } else { s.dev with resultB := 0 } }
    let t := t.log 0x22 0 n 0 0 (f.build % 65536)
    .next (match t.longs.find? fun l => l.code = 0x902 with
      | some l => (t.relayDone l.part l.slot).finish l stOk 0 []
      | none => t)

/-- FW_SELECT (R419): the preferred slot for the next start. -/
def hFwSelect (r : Req) (s : State) : Answer :=
  let n := r.u 0 1
  if n ≠ 1 && n ≠ 2 then .refuse stRange 16
  else if r.part ≠ 0 then .refuse stDenied 0
  else if s.keep.writing.any fun w => w.1 = n then .refuse stBusy 16
  else if (if n = 1 then s.dev.resultA else s.dev.resultB) ≠ 0 then .refuse stState 16
  else .done stOk [] ({ s with keep := { s.keep with pref := n } }.log 0x23 0 n 0 0 0)

/-- BOOT_CLEAR_FAILURES (R419). -/
def hBootClearFailures (r : Req) (s : State) : Answer :=
  if r.part ≠ 0 then .refuse stDenied 0
  else .done stOk [] ({ s with keep := { s.keep with fails := 0 } }.log 0x24 0 0 0 0 s.keep.fails)

/-- DEV_RESTART (R399, R419): a device reset 1 ms after DONE. -/
def hDevRestart (r : Req) (s : State) : Answer :=
  let n := r.u 0 1
  if 2 < n then .refuse stRange 16
  else if r.part ≠ 0 then .refuse stDenied 0
  else if s.loading then .refuse stBusy 0
  else
    let pref := if bitOf (r.u 1 1) 0 && n ≠ 0 then n else s.keep.pref
    .done stOk [] { s with
      keep := { s.keep with pref := pref }
      dev := { s.dev with restartSlot := n, restartAt := some (s.now + 1000000) } }

/-! ### The rows -/

/-- A command of Rusk mode. -/
def CmdDef.rusk_ (code len : Nat) (resv : List Nat) : CmdDef := { CmdDef.plain code len resv with rusk := true }

/-- What R86 checks of BOOT_STATUS. -/
def cmdBootStatus : CmdDef := .rusk_ 0x0900 0 []
/-- BOOT_STATUS (R420). -/
def execBootStatus (dt : Nat) (m : Mbox) (s : State) : Host.Outcome State Fault Refusal :=
  mailbox cmdBootStatus hBootStatus dt m s
/-- What R86 checks of BOOT_RECORDS. -/
def cmdBootRecords : CmdDef := .rusk_ 0x0901 8 (offs 1 7)
/-- BOOT_RECORDS (R419). -/
def execBootRecords (dt : Nat) (m : Mbox) (s : State) : Host.Outcome State Fault Refusal :=
  mailbox cmdBootRecords hBootRecords dt m s
/-- What R86 checks of FW_LOAD. -/
def cmdFwLoad : CmdDef := .rusk_ 0x0902 8 (offs 1 7)
/-- FW_LOAD (R419). -/
def execFwLoad (dt : Nat) (m : Mbox) (s : State) : Host.Outcome State Fault Refusal :=
  mailbox cmdFwLoad hFwLoad dt m s
/-- What R86 checks of FW_SELECT. -/
def cmdFwSelect : CmdDef := .plain 0x0903 8 (offs 1 7)
/-- FW_SELECT (R419). -/
def execFwSelect (dt : Nat) (m : Mbox) (s : State) : Host.Outcome State Fault Refusal :=
  mailbox cmdFwSelect hFwSelect dt m s
/-- What R86 checks of BOOT_CLEAR_FAILURES. -/
def cmdBootClearFailures : CmdDef := .rusk_ 0x0904 0 []
/-- BOOT_CLEAR_FAILURES (R419). -/
def execBootClearFailures (dt : Nat) (m : Mbox) (s : State) : Host.Outcome State Fault Refusal :=
  mailbox cmdBootClearFailures hBootClearFailures dt m s
/-- What R86 checks of DEV_RESTART. -/
def cmdDevRestart : CmdDef := { CmdDef.rusk_ 0x0905 8 (offs 2 6) with masks := fun _ => [(1, 1)] }
/-- DEV_RESTART (R419). -/
def execDevRestart (dt : Nat) (m : Mbox) (s : State) : Host.Outcome State Fault Refusal :=
  mailbox cmdDevRestart hDevRestart dt m s

end Sys2Proof.Machine
end

