-- ==== Sys2Proof/Machine/Budget.lean ====
section
/-! DEFINITION. The start budget: refill, grants and BUDGET_STATUS (R412 to R416, R421). -/
namespace Sys2Proof.Machine

/-- The rank of a waiting request (R414): 0 for a standby release, else the object's `prio`; then the channel; then a
release before objects; then the order of R238. -/
def State.waitKey (s : State) (w : Wait) : List Nat :=
  match w.obj with
  | none => [0, w.chan, 0, 0]
  | some o => [s.opar K.objPrio w.chan o, w.chan, 1, busKey (s.opar K.objId w.chan o) o]

/-- One key precedes another. -/
def keyLt : List Nat → List Nat → Bool
  | a :: as, b :: bs => if a = b then keyLt as bs else decide (a < b)
  | _, _ => false

/-- The waiting request that is granted next; among equals the earlier arrival. -/
def State.nextWait (s : State) : Option Wait :=
  s.budget.waiting.foldl (fun b w => match b with
    | some x => if keyLt (s.waitKey w) (s.waitKey x) then some w else some x
    | none => some w) none

/-- A granted release (R172, R180): CSTB falls, and a channel that CHAN_OPEN opens in LOOP_INT is OPEN at once. -/
def State.release (s : State) (c : Nat) : State :=
  let t := s.modChan c fun ch => { ch with phase := .releasing, phaseAt := s.now, cstb := false }
  if (s.chan c).st = .closed && (s.chan c).wantOpen = .loopInt then t.opened c else t

/-- One token is spent on a waiting request (R412, R414). -/
def State.grant (s : State) (w : Wait) : State :=
  let b := s.budget
  let t := { s with budget := { b with
    tokens := b.tokens - 1, waiting := b.waiting.erase w, granted := b.granted + 1
    waitMax := max b.waitMax ((s.now - w.t0) / 1000) } }
  match w.obj with
  | none => t.release w.chan
  | some o => (t.modObj w.chan o fun x => { x with waitToken := false }).refill (t.engineOf w.chan)

/-- Grants tokens until they or the requests run out: at most `n` grants. -/
def State.grantAll (s : State) : Nat → State
  | 0 => s
  | n + 1 =>
    if s.budget.tokens = 0 then s
    else match s.nextWait with
      | some w => (s.grant w).grantAll n
      | none => s

/-- What the device does with waiting requests at a tick boundary (R414): grants, and the first deferral of the rest. -/
def State.grantTick (s : State) : State :=
  let t := s.grantAll s.budget.waiting.length
  let late := (t.budget.waiting.filter fun w => !w.told).length
  { t with budget := { t.budget with
    deferred := t.budget.deferred + BitVec.ofNat 32 late
    waiting := t.budget.waiting.map fun (w : Wait) => { w with told := true } } }

/-- TOKEN_REFILL (R413): at each 1 ms mark of ANG's count. -/
def execTokenRefill (dt : Nat) (s0 : State) : Host.Outcome State Fault Refusal :=
  let s := s0.elapse dt
  let b := s.budget
  if s.dev.mode = .ready && (b.mark + 1) * 1000000 ≤ s.now then
    .next { s with budget := { b with
      mark := b.mark + 1, tokens := min (s.par K.powerStartBurst 0) (b.tokens + s.par K.powerStartTokensPerMs 0) } }
  else .next s

/-- BUDGET_STATUS (R421). -/
def hBudgetStatus (r : Req) (s : State) : Answer :=
  let b := s.budget
  let clear := bitOf (r.u 0 1) 0
  if clear && r.part ≠ 0 then .refuse stDenied 16
  else
    let stb := (b.waiting.filter (·.obj.isNone)).length
    let t := if clear then
        { s with budget := { b with granted := 0, deferred := 0, withdrawn := 0, waitMax := 0 } }
      else s
    .done stOk (le 2 b.tokens ++ le 2 b.waiting.length ++ le 4 b.granted.toNat ++ le 4 b.deferred.toNat ++
      le 4 b.withdrawn.toNat ++ le 4 b.waitMax ++ le 2 stb ++ le 2 (b.waiting.length - stb) ++ zs 8) t

/-- What R86 checks of BUDGET_STATUS. -/
def cmdBudgetStatus : CmdDef := { CmdDef.plain 0x0906 8 (offs 1 7) with masks := fun _ => [(0, 1)] }
/-- BUDGET_STATUS (R421). -/
def execBudgetStatus (dt : Nat) (m : Mbox) (s : State) : Host.Outcome State Fault Refusal :=
  mailbox cmdBudgetStatus hBudgetStatus dt m s

end Sys2Proof.Machine
end

