-- ==== Sys2Proof/Machine/ChanRows.lean ====
section
/-! DEFINITION. What happens on a channel's bus and pins: frames received and sent, errors, recovery, LONE, the
detections of R196 to R198, retirement, standby and mode changes, and applied timing (R158 to R208, R215). -/
namespace Sys2Proof.Machine

/-- The channel takes part in its bus: READY, OPEN, not in LOOP_INT (R173) and integrated (R158, R164). -/
def State.onBus (s : State) (c : Nat) : Bool :=
  s.dev.mode = .ready && (s.chan c).st = .opened && (s.chan c).mode ≠ .loopInt && (s.chan c).phase = .none

/-! ### Frames -/

/-- Takes the edge phases of a received frame into histogram A (R423). -/
def State.addEdgesA (s : State) (c : Nat) (es : List Int) : State :=
  s.modChan c fun ch => { ch with age := { ch.age with histA := ch.age.histA ++ es } }

/-- FRAME_RECEIVED (R161, R215): a frame of another node is stamped and written to the ring; it is counted, ends LONE
and lowers REC; an occurrence whose target it covered is blocked (R262); an XL frame with FAST has switched the transceiver
(R171); a reference message of another time master raises 0x068 and is told to the owner (R270, R276). -/
def execFrameReceived (dt : Nat) (c : Fin 32) (f : RxFrame) (s0 : State) : Host.Outcome State Fault Refusal :=
  let s := s0.elapse dt
  if !s.onBus c then .next s
  else
    let fr := s.stampFrame (RxFrame.frame f) f.sof
    let exceeds := !declares (s.engCfg c K.chanFormats) (kindNat f.kind) || s.engCfg c K.chanMaxLen < fr.payload.length
    let t := (s.modStat c fun x =>
      { x with framesRx := x.framesRx + 1, overLen := if exceeds then x.overLen + 1 else x.overLen }).modChan c fun ch =>
      { ch with fast := s.fastPhase c fr f.sof }
    let t := (t.addEdgesA c f.edges).ringWrite c fr
    let t := ((t.heard c).bumpCounts c (fun n => n) recDown).blockedBy (s.schedHome c) f.sof (some f.id)
    let foreign : Bool := match (s.chan (s.schedHome c)).sched with
      | some d => !d.angle && decide (f.kind = .cc) && decide (f.id.toNat = s.par K.chanRefId (s.schedHome c))
      | none => false
    .next (if foreign then
        (t.raiseU 0x68 0 1 c false 0).event (s.chanOwner (s.schedHome c)) 0x0403 (s.schedHome c)
          (le 4 f.id.toNat ++ le 8 fr.time.toNat)
      else t)

/-- A loop delay measured in a transmitted FD or XL frame (R168, R169, R197): `v` in units of 1.5625 ns, of which the
measurement covers 505. The secondary sample point lies the delay, held within its range, and the offset after the start of
a bit. -/
def State.loopDelay (s : State) (c v : Nat) : State :=
  let u := min v 505
  let out := s.loopOut c u
  let g := s.engCfg c
  s.modChan c fun ch =>
    { ch with
      ssp := (max (16 * g K.chanTdcMin : Nat) (min (16 * g K.chanTdcMax : Nat) (25 * u : Nat)) + g.sspOffset ch.age.ssp).toNat
      stat := { ch.stat with
        loopLast := u, loopMin := min ch.stat.loopMin u
        loopMax := if ch.stat.loopMax = 0xFFFF then u else max ch.stat.loopMax u
        tdcOut := if out then sat 0xFFFF (ch.stat.tdcOut + 1) else ch.stat.tdcOut }
      err := { ch.err with winCount := ch.err.winCount + 1, winBad := if out then ch.err.winBad + 1 else ch.err.winBad }
      age := { ch.age with
        loopMin := min ch.age.loopMin u, loopMax := max ch.age.loopMax u
        tdcOut := if out then ch.age.tdcOut + 1 else ch.age.tdcOut
        tdcOutPer := if out then sat 0xFFFF (ch.age.tdcOutPer + 1) else ch.age.tdcOutPer } }

/-- The record of a transmit object after a frame was sent (Table 7.5), its TX_DONE item, which takes its place behind the
ring entries before it (R229, R234), and the end of its request (R236) unless that is `over`; `sched` says that it was the
frame of a slot. -/
def State.objSent (s : State) (e c o : Nat) (f : Frame) (ended sched : Bool) : State :=
  if s.objDir c o = 0 then s
  else
  let n := s.opar K.objStampLc c o
  let t := s.modObj c o fun x =>
    { x with seq := x.seq + 2, dlc := f.dlc, fmt := BitVec.ofNat 8 f.fmt, time := f.time, coord := (f.lcs[n]?).getD 0,
             lcState := BitVec.ofNat 8 (lcCodeOf f.lcState n), gen := f.gen, sdt := f.sdt, vcid := f.vcid, af := f.af,
             frames := x.frames + 1, stampLc := n, collCount := if ended then x.collCount else 0
             hold := if ended then x.hold else 0 }
  let t := if s.opar K.objTxc c o = 1 then
      t.modRing e fun r => { r with dones := r.dones ++ [(r.wr, t.objItem c o 0x0206 f false [])] }
    else t
  let t := if ended then t else t.endRequest c o
  if sched then t.flightDone c f else t

/-- A test frame of step 4 of the self-test ends well (Table 6.4): its loop delay is judged. -/
def State.testSent (s : State) (e : Nat) (x : TxEnd) : State :=
  match (s.chan e).test with
  | none => s
  | some r =>
    let f := s.testFrame e r.sent
    let u := min (x.loop.getD 0) 505
    let measured := f.kind ≠ .cc && x.loop.isSome
    let next : TestRun :=
      { sent := r.sent + 1
        loMin := if measured then min r.loMin u else r.loMin
        loMax := if measured then max r.loMax u else r.loMax
        bad := r.bad || (measured && s.loopOut e u) }
    s.modChan e fun ch => { ch with test := some next, fast := s.fastPhase e f x.sof }

/-- The loop delay of a frame that engine `e` transmitted, where it measures it (R168): compensation is on and the frame is
FD or XL. -/
def State.takeLoop (s : State) (e : Nat) (k : FrameKind) (loop : Option Nat) : State :=
  match loop with
  | some u => if k ≠ .cc && s.engCfg e K.chanTdc = 1 then s.loopDelay e u else s
  | none => s

/-- TX_SUCCESS (R161, R175, R236, R265): a frame of the device ends without error. In a mode that needs another node's
acknowledgement only an acknowledged frame does; a frame of the self-test is counted alone (R209). -/
def execTxSuccess (dt : Nat) (c : Fin 32) (x : TxEnd) (s0 : State) : Host.Outcome State Fault Refusal :=
  let s := s0.elapse dt
  let e := c.val
  let mode := (s.chan e).mode
  if s.testing e x.what x.sof then .next (s.testSent e x)
  else if !s.underWay e x.what x.sof || (mode = .normal && !x.acked) then .next s
  else
    let ended := s.attemptOver e x.what x.sof
    let lost := match x.what with
      | .object o => ((s.chan (s.attemptHome e o x.what x.sof)).obj o).arbLost && !ended
      | .arm | .ref | .test => false
    let f0 := s.attemptFrame e x.what x.sof
    let f := { s.stampFrame { f0 with arbLost := lost } x.sof with loss := (s.chan e).ring.lossDue }
    let t := (s.endAttempt e x.what).modStat e fun y => { y with framesTx := y.framesTx + 1 }
    let t := t.modChan e fun ch => { ch with fast := s.fastPhase e f x.sof }
    let t := t.ringWrite e f
    let t := t.bumpCounts e (fun n => n - 1) (fun n => n)
    let t := t.takeLoop e f.kind x.loop
    let t := if f.kind ≠ .cc && s.engCfg e K.chanTdc = 1 && s.engCfg e K.chanFast = 0 then
        t.modChan e fun ch => { ch with age := { ch.age with histD := ch.age.histD ++ x.edges } }
      else t
    let t := match x.what with
      | .object o => t.objSent e (s.attemptHome e o x.what x.sof) o f ended (s.chan e).nowSched
      | .arm => t.modRt (s.schedHome e) fun r => { r with refSent := r.refSent + 1, armSeq := r.armSeq + 1 }
      | .ref => t.modRt (s.schedHome e) fun r => { r with refSent := r.refSent + 1, refGen := s.clk.gen }
      | .test => t
    let t := if x.acked then t.heard e else t
    .next (t.refill e)

/-- ARBITRATION_LOST (R175, R176, R262): a one-shot attempt fails, any other is made again; an occurrence whose first
attempt loses to another node's frame is blocked. -/
def execArbitrationLost (dt : Nat) (c : Fin 32) (what : TxWhat) (sof : W64) (winner : W32) (s0 : State) :
    Host.Outcome State Fault Refusal :=
  let s := s0.elapse dt
  let e := c.val
  if !s.underWay e what sof then .next s
  else
    let t := match what with
      | .object o =>
        let h := s.attemptHome e o what sof
        let u := if s.attemptOver e what sof then s else s.modObj h o fun y => { y with collCount := 0 }
        match (s.chan h).rt.flying with
        | some a =>
          if (s.chan e).nowSched && !a.retry && !a.blocked then
            u.modRt h fun r =>
              { r with blocked := r.blocked + 1, repBlocked := r.repBlocked + 1, lastBlocker := winner,
                       flying := some { a with blocked := true } }
          else u
        | none => u
      | .arm | .ref | .test => s
    .next ((t.modChan e fun ch => { ch with fast := none }).attemptFail e what 1 sof)

/-- The diagnostic counter of an error (Table 6.5). -/
def Diag.error (d : Diag) (k : ErrKind) : Diag :=
  match k with
  | .bit => { d with bitErr := d.bitErr + 1 }
  | .stuff => { d with stuffErr := d.stuffErr + 1 }
  | .form => { d with formErr := d.formErr + 1 }
  | .crc => { d with crcErr := d.crcErr + 1 }
  | .ack => { d with ackErrs := d.ackErrs + 1 }
  | .flag => { d with flagsRx := d.flagsRx + 1 }

/-- What an error adds to TEC of a transmitter (ISO 11898-1, PRESUMED; R189). -/
def BusErr.tecStep (x : BusErr) (st : ErrSt) : Nat :=
  (if (x.kind = .ack && st = .passive && !x.dominantSeen) || (x.kind = .stuff && x.field = .arbitration) then 0 else 8) +
    8 * x.extra

/-- What an error adds to REC of a receiver (ISO 11898-1, PRESUMED). -/
def BusErr.recStep (x : BusErr) : Nat := 1 + (if x.firstDominant then 8 else 0) + 8 * x.extra

/-- BUS_ERROR (R168, R171, R175, R176, R184, R189, R193): counted; the counters change as their standard requires; the
attempt that it ended fails or is made again; a frame of another node that it ended has blocked the occurrences whose targets
it covered (R262); a FAST phase ends at once. -/
def execBusError (dt : Nat) (c : Fin 32) (x : BusErr) (s0 : State) : Host.Outcome State Fault Refusal :=
  let s := s0.elapse dt
  let e := c.val
  match x.attempt with
  | none =>
    if !s.onBus e then .next s
    else .next ((((s.modDiag e fun d => d.error x.kind).cutFast e).bumpCounts e (fun n => n) (· + BusErr.recStep x)).blockedBy
      (s.schedHome e) x.sof x.id)
  | some w =>
    if !s.underWay e w x.sof then .next s
    else
      let fr := s.attemptFrame e w x.sof
      let t := (s.modDiag e fun d => d.error x.kind).takeLoop e fr.kind x.loop
      let t := (t.modChan e fun ch => { ch with fast := s.fastPhase e fr x.sof }).cutFast e
      let t := if x.kind = .ack then t.modErr e fun y => { y with ackErr := true } else t
      let off := (s.chan e).mode.counts && 255 < (s.chan e).err.tec + BusErr.tecStep x (s.chan e).err.st
      let t := t.attemptFail e w (if off then 4 else if x.kind = .ack then 3 else 2) x.sof
      let t := match w with
        | .object o => if s.attemptOver e w x.sof then t else t.collideCount e (s.attemptHome e o w x.sof) o fr x.kind x.field
        | .arm | .ref | .test => t
      .next (t.bumpCounts e (· + BusErr.tecStep x (s.chan e).err.st) (fun n => n))

/-- PROTOCOL_EXCEPTION (R158): with `chan[c].pex` ON it is counted, the engine integrates again, and CMODE falls (R171);
with OFF it is a form error of a receiver. -/
def execProtocolException (dt : Nat) (c : Fin 32) (s0 : State) : Host.Outcome State Fault Refusal :=
  let s := s0.elapse dt
  if !s.onBus c then .next s
  else if s.engCfg c K.chanPex ≠ 0 then
    .next (((s.modDiag c fun d => d.error .form).cutFast c).bumpCounts c (fun n => n) (· + 1))
  else
    .next (((s.displace c false).cutFast c).modChan c fun ch =>
      { ch with stat := { ch.stat with pex := ch.stat.pex + 1 }, phase := .integrating })

/-! ### Bus-off recovery (R187) -/

/-- BOFF_DELAY_EXPIRED (R187): with AUTO the recovery sequence starts once the delay has passed. -/
def execBoffDelayExpired (dt : Nat) (c : Fin 32) (s0 : State) : Host.Outcome State Fault Refusal :=
  let s := s0.elapse dt
  let e := (s.chan c).err
  if e.st = .busOffHeld && (s.chan c).st = .opened && s.par K.chanBoffRecovery c = 0 &&
      s.passed (e.offTimes.headD 0) (1000000 * s.par K.chanBoffDelay c) then .next (s.errState c .busOff)
  else .next s

/-- RECOVERY_DONE (R187): the counters are 0 and the channel is ERROR_ACTIVE. -/
def execRecoveryDone (dt : Nat) (c : Fin 32) (s0 : State) : Host.Outcome State Fault Refusal :=
  let s := s0.elapse dt
  if (s.chan c).err.st ≠ .busOff || (s.chan c).st ≠ .opened then .next s
  else
    let t := (s.modErr c fun e => { e with tec := 0, recv := 0 }).modDiag c fun d => { d with recoveries := d.recoveries + 1 }
    .next ((t.errState c .active).refill c)

/-! ### LONE (R190, R191) -/

/-- LONE_ENTER (R190). -/
def execLoneEnter (dt : Nat) (c : Fin 32) (s0 : State) : Host.Outcome State Fault Refusal :=
  let s := s0.elapse dt
  let ch := s.chan c
  if !s.onBus c || ch.mode ≠ .normal || ch.err.lone || !ch.err.ackErr ||
      !s.passed ch.err.heardAt (1000000 * s.par K.chanLoneTime c) then .next s
  else
    let t := (s.displace c false).modChan c fun x =>
      { x with
        err := { x.err with lone := true, probeAt := s.now }
        diag := { x.diag with loneEntries := x.diag.loneEntries + 1 } }
    let t := t.settle s c
    .next (((t.condOn c 3 0).raiseU c 3 1 c true (s.chanOwner c)).loneEvent c 1)

/-- The rank of a held request for a probe (R238): prio, then the identifier, then the number. -/
def State.probeKey (s : State) (co : Nat × Nat) : Nat :=
  s.opar K.objPrio co.1 co.2 * 2 ^ 40 + busKey (s.opar K.objId co.1 co.2) co.2

/-- The held request that a probe of engine `e` takes (R191). -/
def State.probeRequest (s : State) (e : Nat) : Option (Nat × Nat) :=
  minBy s.probeKey (s.reqsOf e)

/-- LONE_PROBE (R191): the probe interval has passed, and one attempt starts. -/
def execLoneProbe (dt : Nat) (c : Fin 32) (s0 : State) : Host.Outcome State Fault Refusal :=
  let s1 := s0.elapse dt
  let e := c.val
  let s := match s1.probeRequest e with
    | some (h, o) => if (s1.chan e).err.lone then s1.checkBuffer h o else s1
    | none => s1
  let ch := s.chan e
  let what : TxWhat := match s.probeRequest e with
    | some (_, o) => if h : o < 128 then .object ⟨o, h⟩ else .test
    | none => .test
  let dur := match what with
    | .object o => s.objDuration (s.homeOf e o) o
    | .arm | .ref | .test => (s.cfg e).frameTime (kindNat (lowestKind (s.par K.chanFormats e))) true 1 false
  if !ch.err.lone || !s.canSend e || ch.txNow.isSome || !s.passed ch.err.probeAt (1000000 * s.par K.chanLoneProbe e) ||
      !s.mayStart (s.schedHome e) s.clk.time dur then .next s
  else
    let f := match what with
      | .object o => s.formFrame e (s.homeOf e o) o ((s.chan (s.homeOf e o)).obj o).payload
      | .arm | .ref | .test => s.probeFrame e
    let t := (s.takeOff e what false f s.clk.time).modErr e fun x => { x with probes := x.probes + 1, probeAt := s.now }
    .next (match what with
      | .object o => t.prefetch (s.homeOf e o) o
      | .arm | .ref | .test => t)

/-! ### Detections (R196 to R198) -/

/-- STUCK_DOMINANT (R196, R207): CRXD has been low for `stuck_time`, all of it while the channel was OPEN; in a LISTEN pair
both channels retire. -/
def execStuckDominant (dt : Nat) (x : CrxdLow) (s0 : State) : Host.Outcome State Fault Refusal :=
  let s := s0.elapse dt
  let c := x.chan
  let n := 1000000 * s.par K.chanStuckTime c
  if s.dev.mode ≠ .ready || (s.chan c).st ≠ .opened || x.low < n || !s.passed (s.chan c).openAt n then .next s
  else
    let t := s.addCause c 0x11
    let p := partner c
    if s.par K.chanTwin (c - c % 2) = 1 && (s.chan p).st ≠ .retired then
      let t := t.addCause p 0x11
      .next ((t.modErr c fun e => { e with bothRetire := true }).modErr p fun e => { e with bothRetire := true })
    else .next t

/-- LOOP_DELAY_WINDOW (R197): a window has ended and is judged. -/
def execLoopDelayWindow (dt : Nat) (c : Fin 32) (s0 : State) : Host.Outcome State Fault Refusal :=
  let s := s0.elapse dt
  let e := (s.chan c).err
  let w := 1000000 * s.par K.chanTdcWindow c
  if s.dev.mode ≠ .ready || (s.chan c).st ≠ .opened || !s.passed e.winAt w then .next s
  else
    let bad := s.par K.chanTdcWindowFrames c ≤ e.winCount && e.winBad = e.winCount
    let t := s.modErr c fun x => { x with winAt := x.winAt + w, winCount := 0, winBad := 0 }
    .next (if bad then t.addCause c 0x12 else t)

/-- PIN_READBACK (R198): a pad of the channel has differed from its driven level for longer than 1 µs. -/
def execPinReadback (dt : Nat) (c : Fin 32) (_pad : Pad) (s0 : State) : Host.Outcome State Fault Refusal :=
  let s := s0.elapse dt
  if s.dev.mode ≠ .ready then .next s else .next (s.addCause c 0x14)

/-! ### Retirement and handover (R200, R204) -/

/-- A permanent cause or CHAN_RETIRE waits for the end of the frame in progress on channel `c` no longer (R200). -/
def State.retireReady (s : State) (c : Nat) : Bool :=
  !(s.chan c).err.causes.isEmpty && (s.chan c).st ≠ .retired && (s.chan c).txNow.isNone

/-- CHAN_RETIRED (R200, R207): any frame in progress has ended, and the channel with a cause becomes RETIRED; so does, in the
same step, the other channel of its pair where both are to retire. -/
def execChanRetired (dt : Nat) (c : Fin 32) (s0 : State) : Host.Outcome State Fault Refusal :=
  let s := s0.elapse dt
  if !s.retireReady c then .next s
  else
    let t := s.retireNow c
    .next (if (t.chan (partner c)).err.bothRetire && t.retireReady (partner c) then t.retireNow (partner c) else t)

/-- TWIN_HANDOVER (R204): at the first tick boundary after the retirement of a primary. -/
def execTwinHandover (dt : Nat) (c : Fin 32) (s0 : State) : Host.Outcome State Fault Refusal :=
  let s := s0.elapse dt
  if (s.chan c).err.handTick then .next (s.handover c false) else .next s

/-! ### Standby, wake-up, integration (R172, R180) -/

/-- SLEEP_ENTER (R172): at bus idle after CHAN_MODE SLEEP. -/
def execSleepEnter (dt : Nat) (c : Fin 32) (s0 : State) : Host.Outcome State Fault Refusal :=
  let s := s0.elapse dt
  let ch := s.chan c
  if !ch.wantSleep || ch.st ≠ .opened || ch.txNow.isSome then .next s
  else
    let t := ((s.pinsIdle c).loneDrop c).modChan c fun x =>
      { x with st := .sleep, phase := .none, wantSleep := false, txBuf := none, bufSched := false, bufKept := none,
               displaced := [], timingDue := none, timingOld := [] }
    let t := t.settle s c
    .next (((t.chanEvent c 0x0101 (le 1 ch.mode.code ++ le 1 5 ++ le 1 0)).schedUpdate c).schedUpdate (c - 1))

/-- BUS_WAKE (R172): CRXD, low since `fell`, has been low for the filter time; RESUME queues a standby release. -/
def execBusWake (dt : Nat) (c : Fin 32) (fell : W64) (s0 : State) : Host.Outcome State Fault Refusal :=
  let s := s0.elapse dt
  let act := s.par K.chanWakeAction c
  if s.dev.mode ≠ .ready || (s.chan c).st ≠ .sleep || (s.clk.time - fell).toInt < 1000 * s.par K.chanWakeFilter c then .next s
  else
    let t := s.chanEvent c 0x0104 (le 8 fell.toNat ++ le 1 act)
    .next (if act = 1 then t.wantRelease c (s.chan c).mode 2 else t)

/-- WAKE_TIME_EXPIRED (R172): integration begins. -/
def execWakeTimeExpired (dt : Nat) (c : Fin 32) (s0 : State) : Host.Outcome State Fault Refusal :=
  let s := s0.elapse dt
  let ch := s.chan c
  if ch.phase = .releasing && s.passed ch.phaseAt (1000 * s.par K.chanWakeTime c) then
    .next (s.modChan c fun x => { x with phase := .integrating })
  else .next s

/-- INTEGRATION_DONE (R158, R164, R180): 11 consecutive recessive bits. A self-test goes on to step 4 (Table 6.4). -/
def execIntegrationDone (dt : Nat) (c : Fin 32) (s0 : State) : Host.Outcome State Fault Refusal :=
  let s := s0.elapse dt
  let ch := s.chan c
  if ch.phase ≠ .integrating then .next s
  else match ch.st with
    | .closed | .sleep => .next (s.opened c)
    | .opened => .next ((s.modChan c fun x => { x with phase := .none }).refill c)
    | .retired => .next (s.modChan c fun x =>
        { x with phase := .testing, test := some { sent := 0, loMin := 0xFFFF, loMax := 0, bad := false } })

/-- CHAN_OPEN_TIMEOUT (R180): 100 ms after the standby release. -/
def execChanOpenTimeout (dt : Nat) (c : Fin 32) (s0 : State) : Host.Outcome State Fault Refusal :=
  let s := s0.elapse dt
  let ch := s.chan c
  let go := (ch.phase = .releasing || ch.phase = .integrating) && s.passed ch.phaseAt 100000000
  match s.longs.find? fun l => l.code = 0x100 && l.res = c.val with
  | some l =>
    if go then .next (((s.pinsIdle c).modChan c fun x => { x with phase := .none }).finish l stTimeout 0 []) else .next s
  | none => .next s

/-- A requested mode takes effect (R174). -/
def State.applyMode (s : State) (c : Nat) : State :=
  let ch := s.chan c
  match ch.wantMode with
  | some (m, origin) =>
    let t := s.modChan c fun x =>
      { x with mode := m, wantMode := none, displaced := [], txBuf := if x.bufSched then x.txBuf else none }
    let t := (if m = .normal then t else t.loneDrop c).settle s c
    let t := t.chanEvent c 0x0101 (le 1 ch.mode.code ++ le 1 m.code ++ le 1 origin)
    ((t.schedUpdate c).schedUpdate (c - 1)).refill c
  | none => s

/-- MODE_CHANGE_APPLIED (R174): at bus idle. -/
def execModeChangeApplied (dt : Nat) (c : Fin 32) (s0 : State) : Host.Outcome State Fault Refusal :=
  let s := s0.elapse dt
  if (s.chan c).st = .opened && (s.chan c).txNow.isNone then .next (s.applyMode c) else .next s

/-! ### Applied timing (R164, R165) -/

/-- The TIMING_APPLIED event (Table 5.15). -/
def State.timingEvent (s : State) (c origin discarded : Nat) : State :=
  s.chanEvent c 0x0102 (le 1 origin ++ zs 1 ++ le 2 ((s.cfg c).spA (s.chan c).age.spA) ++
    le 2 ((s.cfg c).spD (s.chan c).age.ssp) ++ le 2 discarded)

/-- The frame in the transmit buffer of channel `c` that is not permitted under its configuration is discarded (R164): a
scheduled frame's occurrence is missed, an event frame's request ends and is counted in send_ignored. -/
def State.dropBuffered (s : State) (c : Nat) : State :=
  let ch := s.chan c
  match ch.txBuf with
  | some (.object o) =>
    let home := s.homeOf c o
    let t := s.modChan c fun x => { x with txBuf := none, bufSched := false, bufKept := none }
    if ch.bufSched then
      match (s.chan home).sched, (s.chan home).rt.armed with
      | some d, some x => ((t.disarm home).countMiss home d x.coord).armedPassed home d x
      | _, _ => t
    else if ch.bufKept.isSome then t else t.discardRequest home o true
  | _ => s

/-- The engine of channel `c` switches to its new timing at bus idle and integrates on 11 recessive bits at it (R164); what
has left its transmit buffer is not on the bus any more. -/
def State.applyTiming (s : State) (c : Nat) : State :=
  let fits := match (s.chan c).txBuf with
    | some w =>
      let f := s.attemptFrame c w s.clk.time
      declares (s.par K.chanFormats c) (kindNat f.kind) && decide (f.payload.length ≤ s.par K.chanMaxLen c)
    | none => true
  let t := s.modChan c fun ch =>
    { ch with timingDue := none, timingOld := [], displaced := []
              phase := if ch.mode = .loopInt then ch.phase else .integrating }
  ((if fits then t else t.dropBuffered c).timingEvent c 0 (if fits then 0 else 1)).refill c

/-- TIMING_APPLIED (R164): at the bus idle after a switch that changed the timing. -/
def execTimingApplied (dt : Nat) (c : Fin 32) (s0 : State) : Host.Outcome State Fault Refusal :=
  let s := s0.elapse dt
  if (s.chan c).timingDue.isSome && (s.chan c).txNow.isNone then .next (s.applyTiming c) else .next s

/-- A planner move that takes effect is recorded and logged (Tables 14.4, 14.5): 2 arbitration, 3 secondary. -/
def State.decideMove (s : State) (c subject : Nat) (old : Int) (move : Option (Int × Bool)) : State :=
  match move with
  | some (v, lim) => s.decision subject (if lim then 2 else 0) old v c 1 0x29 c (subject - 2) (tc 16 v)
  | none => s

/-- SAMPLE_POINT_MOVE (R165): a planner move takes effect at bus idle; its histogram restarts (R430), and SJW stays at
TSEG2 or below. -/
def execSamplePointMove (dt : Nat) (c : Fin 32) (s0 : State) : Host.Outcome State Fault Refusal :=
  let s := s0.elapse dt
  let ch := s.chan c
  if !ch.spMoveDue || ch.st ≠ .opened || ch.txNow.isSome then .next s
  else
    let a := ch.age
    let t := s.modChan c fun x =>
      { x with
        spMoveDue := false
        age := { x.age with
          spA := (a.moveA.map (·.1)).getD a.spA
          sjwCut := (s.cfg c).sjwCut ((a.moveA.map (·.1)).getD a.spA)
          ssp := (a.moveD.map (·.1)).getD a.ssp
          histA := if a.moveA.isSome then [] else a.histA, histD := if a.moveD.isSome then [] else a.histD
          moveA := none, moveD := none } }
    .next (((t.decideMove c 2 a.spA a.moveA).decideMove c 3 a.ssp a.moveD).timingEvent c 1 0)

/-- DEFERRED_PAYLOAD_WRITE (R237). -/
def execDeferredPayloadWrite (dt : Nat) (c : Fin 32) (o : Fin 128) (s0 : State) : Host.Outcome State Fault Refusal :=
  .next ((s0.elapse dt).writeDeferred c o)

end Sys2Proof.Machine
end

