-- ==== Sys2Proof/Machine/Faults.lean ====
section
/-! DEFINITION. The commands 0x0800 to 0x0806 (R368, R371, R372, R378, R380, R384 to R391) and the ends of injections and
re-qualifications (R210, R378). -/
namespace Sys2Proof.Machine

/-! ### FAULT_SUMMARY (Table 12.17) -/

/-- 64 bytes of a bitmap over the sources. -/
def State.srcMap (s : State) (f : FRec → Bool) : List Byte :=
  (List.range 64).map fun k => BitVec.ofNat 8 (((List.range 8).map fun i => flag i (f (s.frec (8 * k + i)))).sum)

/-- The pins byte of Table 12.17. -/
def State.pinsByte (s : State) : Nat :=
  flag 0 (s.alive ≠ .low) + flag 1 s.faultN + flag 2 (s.fc.pinHeld && s.par K.faultPinHold 0 = 1) + flag 3 s.fc.alert

/-- seq of the newest log record; 0 while there is none. -/
def State.logNewest (s : State) : Nat := if s.keep.log.isEmpty then 0 else (s.keep.logSeq - 1).toNat

/-- FAULT_SUMMARY (R391). -/
def hFaultSummary (_r : Req) (s : State) : Answer :=
  .done stOk (s.srcMap (fun x => x.st = .fault) ++ s.srcMap (fun x => x.st = .grace) ++ s.srcMap (fun x => x.current) ++
    s.srcMap (fun x => x.latched) ++ le 1 s.pinsByte ++ le 1 (if s.fc.inject.isSome then 1 else 0) ++ zs 2 ++
    le 4 s.logNewest ++ le 4 s.keep.logLost ++ zs 4) s

/-! ### FAULT_READ, FAULT_CLEAR (R368, R371, R384, R385) -/

/-- Partition `p` may read and acknowledge a source's record (R385). -/
def State.mayReadSrc (s : State) (p src : Nat) : Bool :=
  p = 0 || bitOf (s.par K.faultNotify src) p ||
    (if src < 0x20 || (0x50 ≤ src && src ≤ 0x57) || (0x60 ≤ src && src ≤ 0x63) || (0x80 ≤ src && src ≤ 0xFF) then
      s.srcOwner src = p else (s.frec src).latched && (s.frec src).owner = p)

/-- The code of a record's state (Table 12.9). -/
def FState.code (x : FState) : Nat :=
  match x with
  | .idle => 0 | .grace => 1 | .fault => 2

/-- The fault record (Table 12.9). -/
def State.faultRecord (s : State) (src : Nat) : List Byte :=
  let x := s.frec src
  let left := if x.st = .grace then (1000 * s.par K.faultGrace src - (s.now - x.graceAt)) / 1000 else 0
  le 2 src ++ le 1 x.st.code ++ le 1 x.cls ++ le 1 x.cause ++ le 1 x.lastCause ++ le 1 x.flagByte ++ le 1 x.reactions ++
    le 4 x.count ++ le 2 x.recoveries ++ le 1 x.firstGen.toNat ++ le 1 x.lastGen.toNat ++ le 8 x.firstTime.toNat ++
    le 8 x.firstCoord.toNat ++ le 8 x.lastTime.toNat ++ le 8 x.lastCoord.toNat ++ le 4 x.detail.toNat ++ le 4 left ++
    le 1 x.stampLc ++ zs 7

/-- An ACK (R368): clears the latched part, or restarts it at the ACK's TIME while CURRENT is set. -/
def State.ackRec (s : State) (x : FRec) : FRec :=
  if x.current then
    { x with count := 1, firstTime := s.clk.time, firstGen := s.clk.gen, firstCoord := s.lcVal (s.par K.faultStampLc 0) }
  else
    { x with latched := false, cause := 0, firstTime := 0, firstGen := 0, firstCoord := 0 }

/-- FAULT_READ (R384, R385, R368). -/
def hFaultRead (r : Req) (s : State) : Answer :=
  let src := r.u 0 2
  if !sourceDefined src then .refuse stRange 16
  else if !s.mayReadSrc r.part src then .refuse stDenied 16
  else .done stOk (s.faultRecord src) (if bitOf (r.u 2 1) 0 then s.modRec src s.ackRec else s)

/-- FAULT_CLEAR (R371). -/
def hFaultClear (r : Req) (s : State) : Answer :=
  let src := r.u 0 2
  if !sourceDefined src then .refuse stRange 16
  else if r.part ≠ 0 then .refuse stDenied 0
  else if src < 0x20 || src = 0x72 || src = 0x73 then .refuse stUnsupported 16
  else if (s.frec src).st ≠ .fault || (s.frec src).current then .refuse stState 16
  else .done stOk [] (s.leaveFault src 1)

/-! ### FAULT_REQUALIFY (R209, R210, R372) -/

/-- FAULT_REQUALIFY: a long-running command. For a channel its standby release waits for a token (R412). -/
def hFaultRequalify (r : Req) (s : State) : Answer :=
  let src := r.u 0 2
  let mode := r.u 2 1
  let busy := s.longs.any fun l => l.code = 0x803 && l.res = src
  if 0x1FF < src then .refuse stRange 16
  else if src < 0x20 then
    if 4 < mode then .refuse stRange 18
    else if !s.mayOperate r.part .chan src then .refuse stDenied 16
    else if busy || s.chanInUse src then .refuse stBusy 16
    else if (s.chan src).st ≠ .retired then .refuse stState 16
    else
      let d := s.admitOpen src
      if d ≠ 0 then .refuse stConflict d
      else .later (r.long src mode false) (s.wantRelease src (modeOf mode) 4)
  else if src = 0x72 || src = 0x73 then
    if mode ≠ 0 then .refuse stRange 18
    else if r.part ≠ 0 then .refuse stDenied 16
    else if busy then .refuse stBusy 16
    else if s.unitOk (src % 2) then .refuse stState 16
    else .later (r.long src 0 false) s
  else .refuse stUnsupported 16

/-- A source leaves FAULT through re-qualification, if it is in FAULT (R371). -/
def State.requalExit (s : State) (src : Nat) : State :=
  let t := { s with fc := { s.fc with conds := s.fc.conds.filter fun c => c.1 ≠ src } }
  let t := t.modRec src fun x => { x with current := false }
  if (s.frec src).st = .idle then t else t.leaveFault src 2

/-- The REQUALIFY_DONE event (Table 6.6). -/
def State.requalEvent (s : State) (c result lo hi : Nat) : State :=
  s.chanEvent c 0x010A (le 1 result ++ zs 1 ++ le 2 lo ++ le 2 hi)

/-- Channel `c` passes its self-test (R210). -/
def State.requalPass (s : State) (c : Nat) (mode : ChMode) : State :=
  let t := { s with keep := { s.keep with retired := s.keep.retired.filter fun (x : Nat × Nat) => x.1 ≠ c } }
  let t := t.modErr c fun e => { e with offTimes := [], causes := [], retireCause := 0, restored := false, handTick := false }
  let t := t.modDiag c fun d => { d with requalified := sat 0xFFFF (d.requalified + 1) }
  (((t.loneDrop c).openDone c mode 4).requalExit c).handBack c

/-- The self-test of channel `c` can have ended with a code of Table 6.4 (0 for a pass): step 1 lies before the release,
step 3 waits 100 ms for an idle bus, and a pass has sent every test frame of step 4, none with a delay out of range. -/
def State.testEnds (s : State) (c result : Nat) : Bool :=
  let ch := s.chan c
  let on := ch.phase = .releasing || ch.phase = .integrating || ch.phase = .testing
  match result with
  | 0 => match ch.test with
    | some r => ch.phase = .testing && r.sent = s.testCount c && !r.bad
    | none => false
  | 1 => !on
  | 2 => on
  | 3 => ch.phase = .integrating && s.passed ch.phaseAt (1000 * s.par K.chanWakeTime c + 100000000)
  | 4 => ch.phase = .testing
  | 5 => match ch.test with
    | some r => ch.phase = .testing && r.bad
    | none => false
  | _ => false

/-- The loop delays that a self-test measured, as REQUALIFY_DONE gives them: 0xFFFF without one. -/
def Chan.testLoops (ch : Chan) : Nat × Nat :=
  match ch.test with
  | some r => (r.loMin, if r.loMin = 0xFFFF then 0xFFFF else r.loMax)
  | none => (0xFFFF, 0xFFFF)

/-- The loop delays of a test frame that ended without TX_SUCCESS join those of the self-test (Table 6.4 measures each FD
and XL frame): nothing where `lo` lies above the 505 units that a measurement covers (R168). -/
def State.testRest (s : State) (c lo hi : Nat) : State :=
  match (s.chan c).test with
  | some r =>
    if 505 < lo || (s.chan c).phase ≠ .testing then s
    else
      let top := min (max lo hi) 505
      let next : TestRun :=
        { r with loMin := min r.loMin lo, loMax := max r.loMax top, bad := r.bad || s.loopOut c lo || s.loopOut c top }
      s.modChan c fun ch => { ch with test := some next }
  | none => s

/-- REQUALIFY_DONE (R209, R210, R372): `result` is 0 for a pass, which takes effect at the next tick boundary, or a code of
Table 6.4; once 1 s has passed since the command began, it answers TIMEOUT (R89). -/
def execRequalifyDone (dt : Nat) (q : Requal) (result loopMin loopMax : Nat) (s0 : State) :
    Host.Outcome State Fault Refusal :=
  let s := s0.elapse dt
  match q with
  | .chan c =>
    match s.longs.find? fun l => l.code = 0x803 && l.res = c.val with
    | none => .next s
    | some l =>
      let ch := s.chan c
      let u := s.testRest c loopMin loopMax
      let loops := (u.chan c).testLoops
      let back := fun (t : State) => (t.dropRelease c).pinsIdle c
      if ch.passDue.isSome then .next s
      else if s.passed l.t0 1000000000 then .next ((back s).finish l stTimeout 0 [])
      else if ch.st ≠ .retired || !u.testEnds c result then .next s
      else if result = 3 then .next (((back u).requalEvent c 3 loops.1 loops.2).finish l stTimeout 0 [])
      else if result = 0 then .next (u.modChan c fun x => { x with passDue := some (l.arg, loops.1, loops.2) })
      else
        let t := (back u).raise c 0x13 2 result false (s.chanOwner c)
        .next ((t.requalEvent c result loops.1 loops.2).finish l stOk 0 (le 1 result))
  | .unit u =>
    match s.longs.find? fun l => l.code = 0x803 && l.res = 0x72 + u.val with
    | none => .next s
    | some l =>
      if s.passed l.t0 1000000000 then .next (s.finish l stTimeout 0 [])
      else if 5 < result then .next s
      else if result = 0 then
        let t := { s with
          dev := { s.dev with unitsOk := if u.val = 0 then (true, s.dev.unitsOk.2) else (s.dev.unitsOk.1, true) }
          keep := { s.keep with units := s.keep.units.filter (· ≠ u.val) } }
        .next ((t.requalExit (0x72 + u.val)).finish l stOk 0 (le 1 0))
      else .next (s.finish l stOk 0 (le 1 1))

/-! ### FAULT_INJECT (R378, Table 12.8) -/

/-- The injection inverts check bits at a checker, not a pair of lines. -/
def checkCase (src pattern : Nat) : Bool :=
  ((src = 0x20 || src = 0x21 || src = 0x140 || src = 0x141) && (pattern = 1 || pattern = 2)) ||
    ((src = 0x27 || src = 0x100 || src = 0x101 || src = 0x72 || src = 0x73) && pattern = 1)

/-- FAULT_INJECT (R378): a long-running command. -/
def hFaultInject (r : Req) (s : State) : Answer :=
  let src := r.u 0 2
  let pat := r.u 2 1
  let idx := r.u 4 1
  if !sourceDefined src || 0x15F < src then .refuse stRange 16
  else if !checkCase src pat && pat < 5 then .refuse stRange 18
  else if checkCase src pat && ((src = 0x27 && (idx = 0 || 7 < idx)) || ((src = 0x20 || src = 0x21) && 15 < idx)) then
    .refuse stRange 20
  else if r.part ≠ 0 then .refuse stDenied 0
  else if s.fc.inject.isSome then .refuse stBusy 16
  else .later (r.long src 0 false) { s with fc := { s.fc with inject := some (src, pat, r.u 3 1, idx, s.now) } }

/-- The end of an injection is logged and told (R378, Tables 12.12 and 12.14). -/
def State.injectEnd (s : State) (src pat result residual : Nat) : State :=
  let t := { s with fc := { s.fc with inject := none } }
  let t := (t.logFault 0x06 src result 0 pat).event 0 0x0803 src (le 2 src ++ le 1 result ++ zs 1 ++ le 4 residual)
  match t.longs.find? fun l => l.code = 0x804 with
  | some l => t.finish l stOk 0 ((Config.injectBytes result residual).take 496)
  | none => t

/-- INJECT_DONE (R378): the checker reports the pattern with a residual, or its 10 ms expire. -/
def execInjectDone (dt : Nat) (residual : Option Nat) (s0 : State) : Host.Outcome State Fault Refusal :=
  let s := s0.elapse dt
  match s.fc.inject with
  | none => .next s
  | some (src, pat, mask, _, t0) =>
    match residual with
    | none =>
      if s.passed t0 10000000 then .next ((s.raise 0x122 0 2 src false 0).injectEnd src pat 1 0) else .next s
    | some v =>
      let m := if v = 0 then mask else 63
      let t :=
        if checkCase src pat then
          s.latch
            { src := src, sub := 0, cls := if v = 0 then srcClass src 0 else s.occClass src 0, detail := 0, current := false,
              owner := s.srcOwner src, inj := true, overlap := decide (v ≠ 0), wire := false, mask := m }
        else (s.wireFault src false true m).modRec src fun x => { x with overlap := x.overlap || decide (v ≠ 0) }
      .next (t.injectEnd src pat (if v = 0 then 0 else 2) v)

/-! ### LOG_READ, FAULT_PIN_RELEASE (R380, R387) -/

/-- The 32 bytes of a log record (Table 12.11). -/
def LogRec.bytes (x : LogRec) : List Byte :=
  le 1 x.kind ++ le 1 x.flags ++ le 2 x.index ++ le 1 x.cause ++ le 1 x.reactions ++ le 2 x.value ++ le 8 x.time.toNat ++
    le 8 x.coord.toNat ++ le 1 x.gen.toNat ++ le 1 x.stampLc ++ le 2 x.boot ++ le 4 x.seq.toNat

/-- Partition `p` receives a log record (R387). -/
def State.mayReadLog (s : State) (p : Nat) (x : LogRec) : Bool :=
  p = 0 || x.kind = 0x10 || x.kind = 0x11 || (1 ≤ x.kind && x.kind ≤ 6 && s.mayReadSrc p x.index)

/-- LOG_READ (R387). -/
def hLogRead (r : Req) (s : State) : Answer :=
  let from_ := BitVec.ofNat 32 (r.u 0 4)
  let n := r.u 4 2
  if r.bulkLen < 32 * n then .refuse stBadLength 12
  else
    let xs := (s.keep.log.filter fun x => 0 ≤ (x.seq - from_).toInt && s.mayReadLog r.part x).take n
    let oldest := (s.keep.log.head?.map fun x => x.seq.toNat).getD 0
    .done stOk (le 4 xs.length ++ le 4 oldest ++ le 4 s.logNewest ++ le 4 s.keep.logLost)
      (s.storeWrite (s.bulkBase r.part + r.bulkOff) (xs.map LogRec.bytes).flatten)

/-- FAULT_PIN_RELEASE (R380). -/
def hFaultPinRelease (r : Req) (s : State) : Answer :=
  if r.part ≠ 0 then .refuse stDenied 0
  else if s.pinForce then .refuse stState 0
  else .done stOk [] (({ s with fc := { s.fc with pinHeld := false } }.pinSettle s).log 0x07 0 0 0 0 0)

/-! ### The rows -/

/-- What R86 checks of FAULT_SUMMARY. -/
def cmdFaultSummary : CmdDef := .plain 0x0800 0 []
/-- FAULT_SUMMARY (R391). -/
def execFaultSummary (dt : Nat) (m : Mbox) (s : State) : Host.Outcome State Fault Refusal :=
  mailbox cmdFaultSummary hFaultSummary dt m s
/-- What R86 checks of FAULT_READ. -/
def cmdFaultRead : CmdDef := { CmdDef.plain 0x0801 8 (offs 3 5) with masks := fun _ => [(2, 1)] }
/-- FAULT_READ (R384). -/
def execFaultRead (dt : Nat) (m : Mbox) (s : State) : Host.Outcome State Fault Refusal :=
  mailbox cmdFaultRead hFaultRead dt m s
/-- What R86 checks of FAULT_CLEAR. -/
def cmdFaultClear : CmdDef := .plain 0x0802 8 (offs 2 6)
/-- FAULT_CLEAR (R371). -/
def execFaultClear (dt : Nat) (m : Mbox) (s : State) : Host.Outcome State Fault Refusal :=
  mailbox cmdFaultClear hFaultClear dt m s
/-- What R86 checks of FAULT_REQUALIFY. -/
def cmdFaultRequalify : CmdDef := .plain 0x0803 8 (offs 3 5)
/-- FAULT_REQUALIFY (R209, R372). -/
def execFaultRequalify (dt : Nat) (m : Mbox) (s : State) : Host.Outcome State Fault Refusal :=
  mailbox cmdFaultRequalify hFaultRequalify dt m s
/-- What R86 checks of FAULT_INJECT. -/
def cmdFaultInject : CmdDef := { CmdDef.plain 0x0804 8 (offs 5 3) with masks := fun _ => [(3, 63)] }
/-- FAULT_INJECT (R378). -/
def execFaultInject (dt : Nat) (m : Mbox) (s : State) : Host.Outcome State Fault Refusal :=
  mailbox cmdFaultInject hFaultInject dt m s
/-- What R86 checks of LOG_READ. -/
def cmdLogRead : CmdDef := .plain 0x0805 8 (offs 6 2)
/-- LOG_READ (R387). -/
def execLogRead (dt : Nat) (m : Mbox) (s : State) : Host.Outcome State Fault Refusal :=
  mailbox cmdLogRead hLogRead dt m s
/-- What R86 checks of FAULT_PIN_RELEASE. -/
def cmdFaultPinRelease : CmdDef := .plain 0x0806 0 []
/-- FAULT_PIN_RELEASE (R380). -/
def execFaultPinRelease (dt : Nat) (m : Mbox) (s : State) : Host.Outcome State Fault Refusal :=
  mailbox cmdFaultPinRelease hFaultPinRelease dt m s

end Sys2Proof.Machine
end

