-- ==== Sys2Proof/Machine/HostPorts.lean ====
section
/-! DEFINITION. Host accesses: registers under their access codes, the mailbox page, the MSI-X table, apertures and the
signal window (R70 to R80, R100, R106, R109, R112, R120, R128, R131, R138, R397), and the resets of links (R72). -/
namespace Sys2Proof.Machine

/-! ### Register writes -/

/-- Bits `a` to `b - 1` that are set in a word. -/
def bitsSet (v a b : Nat) : List Nat := (List.range b).filter fun i => decide (a ≤ i) && bitOf v i

/-- DB_MBOX (R81, R87): slots in ascending order; unknown codes at the front are answered. -/
def State.writeDbMbox (s : State) (p v : Nat) : State :=
  let t := (bitsSet v 0 16).foldl (fun u k => u.doorbell p k) s
  if s.live then t.drain p 16 else t

/-- DB_QUEUE_LO and DB_QUEUE_HI (R135, R137): each bit rings one queue. -/
def State.writeDbQueue (s : State) (p v base : Nat) : State :=
  (bitsSet v 0 32).foldl (fun u k => u.ring p (base + k) (u.par K.qDir (base + k) = 1)) s

/-- IRQ_ENABLE (R79): setting a bit whose status bit is set already raises one interrupt. -/
def State.writeIrqEnable (s : State) (p v : Nat) : State :=
  let old := s.part p
  let t := s.modPart p fun x => { x with irqEnable := BitVec.ofNat 8 v }
  ((bitsSet v 0 8).filter fun k => !bitOf old.irqEnable.toNat k && bitOf old.irqStatus k).foldl (fun u k => u.irq p k) t

/-- EVT_TAIL (Table 3.15): a value outside TAIL to HEAD is ignored. -/
def State.writeEvtTail (s : State) (p v : Nat) : State :=
  let x := s.part p
  let w := BitVec.ofNat 32 v
  if (x.evtHead - x.evtTail).toNat < (w - x.evtTail).toNat then s.countIgnored p
  else s.modPart p fun y => { y with evtTail := w }

/-- HB (R109 to R111, Table 3.16): a valid write moves the heartbeat to OK, and out of EXPIRED ends the fallback. Rusk
mode has no heartbeat (R406). -/
def State.writeHb (s : State) (p v : Nat) : State :=
  let x := s.part p
  let w := BitVec.ofNat 32 v
  if !s.live || s.dev.mode = .rusk then s
  else if x.hb = .off then s.modPart p fun y => { y with hbSeen := true, hbAt := s.now }
  else if x.hbVal = some w then s.countIgnored p
  else
    let t := s.modPart p fun y => { y with hb := .ok, hbVal := some w, hbSeen := true, hbAt := s.now }
    if x.hb ≠ .expired then t
    else
      let t := (t.hbLeave p).event p 0x0004 p []
      if x.resetting.isSome then t else t.endFallback p

/-- PRESET (R112): the key starts a partition reset of the writing partition. -/
def State.writePreset (s : State) (p v : Nat) : State :=
  if !s.live || v ≠ 0xC35A then s.countIgnored p else s.startReset p 0

/-- An aperture selector (R80): one that names a region without rights, or a reserved KIND, is replaced by OFF; Rusk
mode accepts BULK only (R406). DESIGN CHOICE (log entry 137): a selector that becomes OFF reads zero as a whole, INDEX and
OFFSET with it; R80 names KIND only. -/
def State.writeAp (s : State) (p n v : Nat) : State :=
  let kind := v % 16
  let w := if kind = 1 then v &&& 0xFFF3FF else v &&& 0xFFF00F
  let ok : Bool :=
    match kind with
    | 0 => true
    | 1 => s.dev.mode ≠ .rusk && s.par K.qOwner (v / 16 % 64) = p
    | 2 => true
    | 3 => s.dev.mode ≠ .rusk
    | _ => false
  let t := s.modPart p fun x => { x with aps := Tab.mod x.aps n fun _ => BitVec.ofNat 32 (if ok then w else 0) }
  if ok then t else t.countIgnored p

/-- Bits of a 64-bit word cleared by ones in its half `hi`. -/
def clearHalf (x : W64) (v : Nat) (hi : Bool) : W64 := x &&& ~~~(BitVec.ofNat 64 (if hi then v * 0x100000000 else v))

/-- A word of the MSI-X table (R79): unmasking a pending vector sends its message. -/
def State.writeMsix (s : State) (p i v : Nat) : State :=
  let d := if i % 4 = 3 then 1 else 0
  let t := s.modPart p fun x => { x with msix := SMap.set d x.msix i v }
  let k := i / 4
  if i % 4 = 3 && v % 2 = 0 && bitOf (s.part p).pba.toNat k then
    t.modPart p fun x => { x with pba := x.pba &&& ~~~(BitVec.ofNat 8 (2 ^ k)), msiSent := x.msiSent ++ [k] }
  else t

/-- A write of one 32-bit register under its access code (R11, Table 3.4). -/
def State.regWrite (s : State) (p off v : Nat) : State :=
  if off = 0x010 then s.writeDbMbox p v
  else if off = 0x014 then s.modPart p fun x => { x with done := x.done &&& ~~~(BitVec.ofNat 16 v) }
  else if off = 0x018 then s.writeDbQueue p v 0
  else if off = 0x01C then s.writeDbQueue p v 32
  else if off = 0x020 then s.modPart p fun x => { x with qNotify := clearHalf x.qNotify v false }
  else if off = 0x024 then s.modPart p fun x => { x with qNotify := clearHalf x.qNotify v true }
  else if off = 0x028 then s.modPart p fun x => { x with irqSet := x.irqSet &&& ~~~(BitVec.ofNat 8 v) }
  else if off = 0x02C then s.writeIrqEnable p v
  else if off = 0x030 then s.modPart p fun x => { x with irqVector := BitVec.ofNat 32 (v % 0x1000000) }
  else if off = 0x038 then s.writeEvtTail p v
  else if off = 0x03C then s.writeHb p v
  else if off = 0x044 then s.writePreset p v
  else if 0x048 ≤ off && off < 0x058 then s.writeAp p ((off - 0x048) / 4) v
  else if 0x3000 ≤ off && off < 0x3080 then s.writeMsix p ((off - 0x3000) / 4) v
  else s

/-! ### Register reads -/

/-- ERR_COUNT is cleared by its read (R11, Table 3.8). -/
def State.clearErr (s : State) (p : Nat) : State :=
  if s.live then s.modPart p fun x => { x with refused := 0, ignored := 0 } else s

/-- A 32-bit register as a read returns it. -/
def State.regRead (s : State) (p off : Nat) : Nat :=
  if off < 0x058 then s.regVal p off
  else if 0x3000 ≤ off && off < 0x3080 then
    SMap.get (if (off - 0x3000) / 4 % 4 = 3 then 1 else 0) (if s.live then (s.part p).msix else []) ((off - 0x3000) / 4)
  else if off = 0x3800 then (if s.live then (s.part p).pba.toNat else 0)
  else 0

/-- An offset of the control window that holds a register. -/
def isReg (off : Nat) : Bool := off < 0x058 || (0x3000 ≤ off && off < 0x3080) || (0x3800 ≤ off && off < 0x3808)

/-- A byte of the control window that is no register. -/
def State.pageByte (s : State) (p off : Nat) : Byte :=
  if 0x1000 ≤ off && off < 0x3000 then SMap.get 0 (s.part p).slots (off - 0x1000) else 0

/-! ### Accesses to the control window (R77, R78, R81) -/

/-- The range touches a register. -/
def touchesReg (off n : Nat) : Bool := (List.range n).any fun i => isReg (off + i)

/-- The slots that a range of the mailbox page touches. -/
def slotsIn (off n : Nat) : List Nat :=
  (List.range 16).filter fun k => decide (off < 0x1000 + 0x200 * (k + 1)) && decide (0x1000 + 0x200 * k < off + n)

/-- Writes bytes to the mailbox page; a device-owned slot refuses them (R81). -/
def State.pageWrite (s : State) (p off : Nat) (bs : List Byte) : State :=
  if (slotsIn off bs.length).any (s.slotHeld p) then s.refuseCtrl p off
  else
    (bs.zipIdx.filter fun x => decide (0x1000 ≤ off + x.2) && decide (off + x.2 < 0x3000)).foldl (fun u x =>
      u.modPart p fun y => { y with slots := SMap.set 0 y.slots (off + x.2 - 0x1000) x.1 }) s

/-- A read of `n` bytes of the control window: word by word where `burst`, else as one access (R74, R78). -/
def State.ctrlRead (s : State) (p off n : Nat) (burst : Bool) : List Byte × State :=
  if !touchesReg off n then ((List.range n).map fun i => s.pageByte p (off + i), s)
  else if off % 4 ≠ 0 || (!burst && n ≠ 4) then (zs n, s.refuseCtrl p off)
  else
    (List.range (n / 4)).foldl (fun (r : List Byte × State) k =>
      let o := off + 4 * k
      if isReg o then (r.1 ++ le 4 (r.2.regRead p o), if o = 0x00C then r.2.clearErr p else r.2)
      else (r.1 ++ (List.range 4).map fun i => r.2.pageByte p (o + i), r.2)) ([], s)

/-- A write of bytes to the control window. -/
def State.ctrlWrite (s : State) (p off : Nat) (bs : List Byte) (burst : Bool) : State :=
  if !touchesReg off bs.length then s.pageWrite p off bs
  else if off % 4 ≠ 0 || (!burst && bs.length ≠ 4) then s.refuseCtrl p off
  else
    (List.range (bs.length / 4)).foldl (fun u k =>
      let o := off + 4 * k
      if isReg o then u.regWrite p o (rd bs (4 * k) 4) else u.pageWrite p o ((bs.drop (4 * k)).take 4)) s

/-! ### Apertures (R80, R100, R120, R128, R131, R138) -/

/-- A queue's control page (Table 4.4). -/
def State.queuePage (s : State) (q : Nat) : List Byte :=
  let x := s.queue q
  let d2h := s.par K.qDir q = 1
  fit 0x1000 (le 4 (if d2h then x.wr else x.hostWord).toNat ++ zs 60 ++ le 4 (if d2h then x.hostWord else x.rd).toNat ++ zs 60 ++
    le 4 (if x.isOpen then x.bytes else s.par K.qSize q) ++ le 1 (s.par K.qDir q) ++ le 1 (flag 0 x.isOpen) ++
    le 2 x.flushGen.toNat ++ le 4 x.dropped.toNat ++ le 4 x.bad.toNat)

/-- The bulk range of a command that is device-owned (R100); a request of length 0 names none (Table 3.18). -/
def State.bulkHeld (s : State) (p off n : Nat) : Bool :=
  let hit := fun (o l : Nat) => l ≠ 0 && decide (o < off + n) && decide (off < o + l)
  ((s.part p).accepted.any fun a => hit a.rq.bulkOff.toNat a.rq.bulkLen.toNat) ||
    s.longs.any fun l => l.part = p && !l.discard && hit l.bulkOff l.bulkLen

/-- A byte of the ring lies in the occupied part of an H2D queue (R138). -/
def Queue.occupied (x : Queue) (pos : Nat) : Bool :=
  (pos + x.bytes - x.rd.toNat % x.bytes) % x.bytes < (x.wr - x.rd).toNat

/-- The host may write `n` bytes at `off` of queue `q`'s region (Table 4.3). -/
def State.queueWritable (s : State) (q off n : Nat) : Bool :=
  let x := s.queue q
  if s.par K.qDir q = 1 then decide (0x40 ≤ off) && decide (off + n ≤ 0x44)
  else if off < 0x1000 then decide (off + n ≤ 4)
  else x.isOpen && !((List.range n).any fun i => x.occupied (off - 0x1000 + i))

/-- The region an aperture presents: its size, or none where the aperture is OFF. -/
def State.apSize (s : State) (p sel : Nat) : Option Nat :=
  match sel % 16 with
  | 1 => let x := s.queue (sel / 16 % 64); some (0x1000 + if x.isOpen then x.bytes else 0)
  | 2 => some (s.bulkSize p)
  | 3 => some 0x10000
  | _ => none

/-- Writes bytes to the store for a host (R116, R120): part of a poisoned lane is not written; the result says whether
any was left out. -/
def State.hostStore (s : State) (a : Nat) (bs : List Byte) : State × Bool :=
  let e := a + bs.length
  let part := s.store.poison.filter fun l => decide (8 * l < e) && decide (a < 8 * l + 8) && !(decide (a ≤ 8 * l) && decide (8 * l + 8 ≤ e))
  let skip := fun (x : Nat) => part.contains (x / 8)
  let mem := (bs.zipIdx.filter fun x => !skip (a + x.2)).foldl (fun m x => SMap.set 0 m (a + x.2) x.1) s.store.mem
  let poison := s.store.poison.filter fun l => !(decide (a ≤ 8 * l) && decide (8 * l + 8 ≤ e))
  ({ s with store := { s.store with mem := mem, poison := poison } }, !part.isEmpty)

/-- Bytes that lie at store address `a` as a host reads them: 0xFF in a poisoned lane (Table 4.1), and whether one was. -/
def State.hostView (s : State) (a : Nat) (bs : List Byte) : List Byte × Bool :=
  (bs.zipIdx.map fun x => if s.store.poison.contains ((a + x.2) / 8) then 0xFF else x.1, s.poisoned a bs.length)

/-- Bytes of the store as a host reads them. -/
def State.hostLoad (s : State) (a n : Nat) : List Byte × Bool := s.hostView a (s.storeRead a n)

/-- The store address behind position `pos` of the region a selector presents (Table 4.2). -/
def State.apAddr (s : State) (p sel pos : Nat) : Nat :=
  match sel % 16 with
  | 1 =>
    let q := sel / 16 % 64
    if pos < 0x1000 then pageAddr q pos else (s.queue q).base + (pos - 0x1000)
  | 2 => s.bulkBase p + pos
  | _ => Config.eventRings + 0x10000 * p + pos

/-- An access through an aperture that reaches beyond its region, or that its rights do not cover, is refused (R80, R128):
the record names the region that the selector presents, and the store address. -/
def State.refuseAp (s : State) (p sel pos : Nat) : State :=
  s.refuseAccess p (regionOf (s.apAddr p sel 0)) (s.apAddr p sel pos)

/-- An access through an aperture that names no region (R80): there is no store address, and the record gives the place in
the window. -/
def State.refuseOff (s : State) (p off : Nat) : State := s.refuseAccess p 17 (0x8000000 + off)

/-- A read through one aperture: its bytes, whether a lane was poisoned, and the state. -/
def State.apRead (s : State) (p off n : Nat) : List Byte × Bool × State :=
  let sel := s.apReg p (off / 0x800000)
  let pos := sel / 4096 % 4096 * 4096 + off % 0x800000
  match s.apSize p sel with
  | none => (zs n, false, s.refuseOff p off)
  | some size =>
    if size < pos + n then (zs n, false, s.refuseAp p sel pos)
    else
      let page := if sel % 16 = 1 then (s.queuePage (sel / 16 % 64)).drop pos |>.take (min n (0x1000 - pos)) else []
      let r1 := s.hostView (s.apAddr p sel pos) page
      let r2 := s.hostLoad (s.apAddr p sel (pos + page.length)) (n - page.length)
      let bad := r1.2 || r2.2
      (r1.1 ++ r2.1, bad, if bad then s.countRefused p else s)

/-- Bytes `bs` laid over a 4-byte word at offset `off` of it. -/
def overlay (old : W32) (off : Nat) (bs : List Byte) : W32 :=
  let w := le 4 old.toNat
  BitVec.ofNat 32 (unle (w.take off ++ bs ++ w.drop (off + bs.length)))

/-- A write through one aperture (Table 4.3). -/
def State.apWrite (s : State) (p off : Nat) (bs : List Byte) : State :=
  let n := bs.length
  let sel := s.apReg p (off / 0x800000)
  let pos := sel / 4096 % 4096 * 4096 + off % 0x800000
  let no := s.refuseAp p sel pos
  let a := s.apAddr p sel pos
  let r := s.hostStore a bs
  let done := if r.2 then r.1.countRefused p else r.1
  match s.apSize p sel with
  | none => s.refuseOff p off
  | some size =>
    if size < pos + n then no
    else match sel % 16 with
      | 1 =>
        let q := sel / 16 % 64
        if !s.queueWritable q pos n then no
        else if 0x1000 ≤ pos then done
        else if s.poisoned a n then s.countRefused p
        else s.modQueue q fun x => { x with hostWord := overlay x.hostWord (pos % 0x40) bs }
      | 2 => if s.bulkHeld p pos n then no else done
      | _ => no

/-! ### Accesses (R74, R77) -/

/-- The window codes of R74. -/
def windowCode (w : Window) : Nat :=
  match w with
  | .control => 0 | .store => 1 | .signal => 2 | .reserved => 3

/-- The size of a window (Table 3.3). -/
def windowSize (w : Window) : Nat :=
  match w with
  | .control => 0x4000 | .store => 0x2000000 | .signal => 0x1000000 | .reserved => 0

/-- A port whose accesses are QSPI transactions. -/
def portQspi (p : Port) : Bool := p = .qa || p = .qb

/-- A read of a window; an access that crosses into the next aperture is made in two parts. -/
def State.winRead (s : State) (p : Nat) (w : Window) (off n : Nat) (burst : Bool) : List Byte × Bool × State :=
  match w with
  | .control => let r := s.ctrlRead p off n burst; (r.1, false, r.2)
  | .store =>
    let m := min n (0x800000 - off % 0x800000)
    let r := s.apRead p off m
    if m = n then r
    else
      let r2 := r.2.2.apRead p (off + m) (n - m)
      (r.1 ++ r2.1, r.2.1 || r2.2.1, r2.2.2)
  | .signal =>
    let bad := s.poisoned (Config.sigImage + off) n
    ((List.range n).map (fun i =>
        if s.store.poison.contains ((Config.sigImage + off + i) / 8) then 0xFF else s.imageByte (off + i)),
      bad, if bad then s.countRefused p else s)
  | .reserved => (zs n, false, s)

/-- A write to a window; the signal window takes none (R77). -/
def State.winWrite (s : State) (p : Nat) (w : Window) (off : Nat) (bs : List Byte) (burst : Bool) : State :=
  match w with
  | .control => s.ctrlWrite p off bs burst
  | .store =>
    let m := min bs.length (0x800000 - off % 0x800000)
    if m = bs.length then s.apWrite p off bs else (s.apWrite p off (bs.take m)).apWrite p (off + m) (bs.drop m)
  | .signal => s.refuseStore p (Config.sigImage + off)
  | .reserved => s

/-- A reserved window, or an offset beyond its window (R74). -/
def State.refuseWindow (s : State) (v : Via) (w : Window) (off : Nat) : State :=
  (s.countRefused v.part).raise (0x40 + portIndex v.port) 0 1 (viaAddr v (windowCode w) off) false 0

/-- Bytes of a transaction's data phase that are performed: a QSPI data phase ends at 4,096 bytes, its last word is read
whole, and a write keeps its complete words (R74). -/
def accessCount (a : Access) : Nat :=
  match a.phase with
  | .read n => if portQspi a.via.port then upTo 4 (min n 4096) else n
  | .write bs => if portQspi a.via.port then min bs.length 4096 / 4 * 4 else bs.length

/-- A malformed QSPI data phase (R74). -/
def accessMalformed (a : Access) : Bool :=
  portQspi a.via.port &&
    match a.phase with
    | .read n => decide (4096 < n) || decide (n % 4 ≠ 0)
    | .write bs => a.early || decide (4096 < bs.length) || decide (bs.length % 4 ≠ 0)

/-- A host access (R74, R77 to R80, R128): the bytes of a read are left in `out`. -/
def State.hostAccess (s : State) (a : Access) : State :=
  let p := a.via.part.val
  let burst := portQspi a.via.port
  let k := accessCount a
  let zero := fun (t : State) => match a.phase with
    | .read n => { t with out := { bytes := zs n, poisoned := false } }
    | .write _ => t
  if !s.reaches a.via then zero (s.refusePort a.via (windowCode a.window) a.offset)
  else if windowSize a.window < a.offset + k || windowSize a.window ≤ a.offset then zero (s.refuseWindow a.via a.window a.offset)
  else
    let t := match a.phase with
      | .read n =>
        let r := s.winRead p a.window a.offset k burst
        { r.2.2 with out := { bytes := fit n r.1, poisoned := r.2.1 && !burst } }
      | .write bs => s.winWrite p a.window a.offset (bs.take k) burst
    if accessMalformed a then t.countRefused p else t

/-! ### The rows -/

/-- EVT_TAIL_WRITE (R106). -/
def execEvtTailWrite (dt : Nat) (w : Via) (value : W32) (s0 : State) : Host.Outcome State Fault Refusal :=
  hostReg w 0x38 (s0.elapse dt) fun s => s.regWrite w.part 0x38 value.toNat

/-- HB_WRITE (R109). -/
def execHbWrite (dt : Nat) (w : Via) (value : W32) (s0 : State) : Host.Outcome State Fault Refusal :=
  hostReg w 0x3C (s0.elapse dt) fun s => s.regWrite w.part 0x3C value.toNat

/-- PRESET_KEY (R112). -/
def execPresetKey (dt : Nat) (w : Via) (value : W32) (s0 : State) : Host.Outcome State Fault Refusal :=
  hostReg w 0x44 (s0.elapse dt) fun s => s.regWrite w.part 0x44 value.toNat

/-- AP_SELECT (R80). -/
def execApSelect (dt : Nat) (w : Via) (n : Fin 4) (value : W32) (s0 : State) : Host.Outcome State Fault Refusal :=
  hostReg w (0x48 + 4 * n.val) (s0.elapse dt) fun s => s.regWrite w.part (0x48 + 4 * n.val) value.toNat

/-- ERR_COUNT_READ (R11): returns the counts and clears them. -/
def execErrCountRead (dt : Nat) (w : Via) (s0 : State) : Host.Outcome State Fault Refusal :=
  hostReg w 0x0C (s0.elapse dt) fun s =>
    { s.clearErr w.part with out := { bytes := le 4 (s.regRead w.part 0x0C), poisoned := false } }

/-- IRQ_ENABLE_WRITE (R79). -/
def execIrqEnableWrite (dt : Nat) (w : Via) (value : W32) (s0 : State) : Host.Outcome State Fault Refusal :=
  hostReg w 0x2C (s0.elapse dt) fun s => s.regWrite w.part 0x2C value.toNat

/-- REGISTER_WRITE (R11, R78): a write to the control window. -/
def execRegisterWrite (dt : Nat) (w : Via) (offset : Nat) (bytes : List Byte) (s0 : State) :
    Host.Outcome State Fault Refusal :=
  .next ((s0.elapse dt).hostAccess
    { via := w, window := .control, offset := offset, phase := .write bytes, early := false })

/-- STORE_WINDOW_ACCESS (R128): one access to a window. -/
def execStoreWindowAccess (dt : Nat) (a : Access) (s0 : State) : Host.Outcome State Fault Refusal :=
  .next ((s0.elapse dt).hostAccess a)

/-! ### Links (R72) -/

/-- Starts a reset of every partition mapped to a link (R72). -/
def State.resetLink (s : State) (link : Port) : State :=
  (List.range 8).foldl (fun t p => if s.served p && s.portOf p = link then t.startReset p 3 else t) s

/-- The number of the PCIe function that is partition `p` on its link (R71): the partitions of the link count from 0 in
ascending order; none where the partition is not mapped to a PCIe link. -/
def State.functionOf (s : State) (p : Nat) : Option Nat :=
  if s.served p && portPcie (s.portOf p) then
    some ((List.range p).filter fun q => s.portOf q = s.portOf p).length
  else none

/-- What every function reports of itself (R71): Device ID, Revision ID, vendor ID, and a Subsystem ID that holds the
partition number in bits 2:0. -/
def functionIds (p : Nat) : Nat × Nat × Nat × Nat :=
  (0x3264, 0xB0, Config.vendorId, Config.subsystemHigh / 8 * 8 + p % 8)

/-- FUNCTION_LEVEL_RESET (R72) of the function that is partition `p`. -/
def execFunctionLevelReset (dt : Nat) (p : Fin 8) (s0 : State) : Host.Outcome State Fault Refusal :=
  let s := s0.elapse dt
  if (s.functionOf p).isSome && !s.linksDown.contains (s.portOf p) then .next (s.startReset p 2) else .next s

/-- HOT_RESET (R72). -/
def execHotReset (dt : Nat) (link : Port) (s0 : State) : Host.Outcome State Fault Refusal :=
  let s := s0.elapse dt
  if portPcie link && !s.linksDown.contains link then .next (s.resetLink link) else .next s

/-- LINK_DOWN (R72): the link has been down for more than 1 ms. -/
def execLinkDown (dt : Nat) (link : Port) (s0 : State) : Host.Outcome State Fault Refusal :=
  let s := s0.elapse dt
  if portPcie link && !s.linksDown.contains link && s.dev.mode ≠ .held then
    .next ({ s with linksDown := s.linksDown ++ [link] }.resetLink link)
  else .next s

/-- LINK_UP (R72): the link trains again. -/
def execLinkUp (dt : Nat) (link : Port) (s0 : State) : Host.Outcome State Fault Refusal :=
  let s := s0.elapse dt
  .next { s with linksDown := s.linksDown.filter (· ≠ link) }

end Sys2Proof.Machine
end

