-- ==== Sys2Proof/Machine/Management.lean ====
section
/-! DEFINITION. The management port: Block Reads (R437, Table 14.9) and the Alert Response Address (R438). -/
namespace Sys2Proof.Machine

/-- A Block Read returns bytes; out of reset only. A code that is not served returns a byte count of 0. -/
def State.blockRead (s : State) (bs : List Byte) : State :=
  if s.dev.mode = .held then s else { s with out := { bytes := bs, poisoned := false } }

/-- MG_ID (Table 14.9). -/
def execMgId (dt : Nat) (s0 : State) : Host.Outcome State Fault Refusal :=
  let s := s0.elapse dt
  .next (s.blockRead (le 2 0x3264 ++ le 1 0xB0 ++ le 1 (s.ifver 0)))

/-- MG_STATE (Table 14.9). -/
def execMgState (dt : Nat) (s0 : State) : Host.Outcome State Fault Refusal :=
  let s := s0.elapse dt
  .next (s.blockRead (le 1 s.dev.mode.code ++ le 1 s.keep.fails ++ le 1 s.dev.ruskReason ++ le 1 s.pinsByte ++
    le 2 s.keep.boot ++ zs 2))

/-- Bits of sources 0x000 to 0x0FF, or of 0x100 to 0x1FF. -/
def State.halfMap (s : State) (hi : Bool) (f : FRec → Bool) : List Byte :=
  let m := s.srcMap f
  if hi then m.drop 32 else m.take 32

/-- A read of MG_FAULT_LO or MG_FAULT_HI after the device's answer; once both have been read ALERT_N is released, or
driven low again for a reaction taken since (R438). -/
def State.alertRead (s : State) (hi : Bool) : State :=
  if !s.fc.alertAns || s.dev.mode = .held then s
  else
    let lo := s.fc.alertLo || !hi
    let up := s.fc.alertHi || hi
    if lo && up then
      { s with fc := { s.fc with alert := s.fc.alertAgain, alertAgain := false, alertAns := false, alertLo := false, alertHi := false } }
    else { s with fc := { s.fc with alertLo := lo, alertHi := up } }

/-- MG_FAULT_LO (R438). -/
def execMgFaultLo (dt : Nat) (s0 : State) : Host.Outcome State Fault Refusal :=
  let s := s0.elapse dt
  .next ((s.blockRead (s.halfMap false fun x => x.st = .fault)).alertRead false)

/-- MG_FAULT_HI (R438). -/
def execMgFaultHi (dt : Nat) (s0 : State) : Host.Outcome State Fault Refusal :=
  let s := s0.elapse dt
  .next ((s.blockRead (s.halfMap true fun x => x.st = .fault)).alertRead true)

/-- MG_LATCHED_LO (R437). -/
def execMgLatchedLo (dt : Nat) (s0 : State) : Host.Outcome State Fault Refusal :=
  let s := s0.elapse dt
  .next (s.blockRead (s.halfMap false fun x => x.latched))

/-- MG_LATCHED_HI (R437). -/
def execMgLatchedHi (dt : Nat) (s0 : State) : Host.Outcome State Fault Refusal :=
  let s := s0.elapse dt
  .next (s.blockRead (s.halfMap true fun x => x.latched))

/-- MG_MARGIN (R437): a byte count of 0 in Rusk mode. -/
def execMgMargin (dt : Nat) (s0 : State) : Host.Outcome State Fault Refusal :=
  let s := s0.elapse dt
  .next (s.blockRead (if s.dev.mode = .rusk then [] else s.ageHeader.take 32))

/-- Returns a log record and remembers it for MG_LOG_PREV; none is a byte count of 0. -/
def State.logBlock (s : State) (x : Option LogRec) : State :=
  match x with
  | some r =>
    if s.dev.mode = .held then s
    else { s with fc := { s.fc with mgLast := some r.seq } }.blockRead r.bytes
  | none => s.blockRead []

/-- MG_LOG_NEWEST (R437). -/
def execMgLogNewest (dt : Nat) (s0 : State) : Host.Outcome State Fault Refusal :=
  let s := s0.elapse dt
  .next (s.logBlock s.keep.log.getLast?)

/-- MG_LOG_PREV (R437): the record before the last one returned. -/
def execMgLogPrev (dt : Nat) (s0 : State) : Host.Outcome State Fault Refusal :=
  let s := s0.elapse dt
  .next (s.logBlock (s.fc.mgLast.bind fun q => s.keep.log.find? fun r => r.seq + 1 = q))

/-- ALERT_RESPONSE (R438): the device that drives ALERT_N answers with 0xB8 if it wins arbitration. -/
def execAlertResponse (dt : Nat) (wins : Bool) (s0 : State) : Host.Outcome State Fault Refusal :=
  let s := s0.elapse dt
  if s.fc.alert && !s.fc.alertAns && wins then
    .next ({ s with fc := { s.fc with alertAns := true } }.blockRead [0xB8])
  else .next (s.blockRead [])

end Sys2Proof.Machine
end

