-- ==== Sys2Proof/Machine/Pins.lean ====
section
/-! DEFINITION. The I/O rails and the test access port (R445, R458), and the levels of the output pins (Table 15.4). A
pin reads `none` while it is high impedance. -/
namespace Sys2Proof.Machine

/-- A 3.3 V output whose logic drives `level` and whose "PORST_N low" level is `idle`; `k` is its boundary cell (R445,
R458, Table 15.4). -/
def State.pin33 (s : State) (k : Nat) (idle level : Bool) : Option Bool :=
  if !s.dev.v33 then none
  else if s.dev.porst then some (if s.dev.v08 then level else idle)
  else match s.dev.tap with
    | .highz => none
    | .extest | .extestPulse | .extestTrain | .clamp => some (Config.boundaryCell k)
    | .bypass | .idcode | .samplePreload => some idle

/-- CTXD of channel `c`. -/
def State.ctxdPin (s : State) (c : Nat) : Option Bool := s.pin33 c true (s.chan c).ctxd
/-- CMODE of channel `c`. -/
def State.cmodePin (s : State) (c : Nat) : Option Bool := s.pin33 (32 + c) false (s.cmode c)
/-- CSTB of channel `c`. -/
def State.cstbPin (s : State) (c : Nat) : Option Bool := s.pin33 (64 + c) true (s.chan c).cstb

/-- SYNC_OUT `i`: high impedance until it is configured (R448). -/
def State.syncPin (s : State) (i : Nat) : Option Bool :=
  if (s.sync i).driven && s.dev.porst then s.pin33 (96 + i) false ((s.sync i).active != (s.par K.syncPolarity i = 1))
  else if s.dev.porst then none
  else match s.dev.tap with
    | .extest | .extestPulse | .extestTrain | .clamp => s.pin33 (96 + i) false false
    | .bypass | .idcode | .samplePreload | .highz => none

/-- FAULT_N, true where it is driven low (Table 12.10); an open drain that a missing rail releases. -/
def State.faultPin (s : State) : Option Bool := s.pin33 100 true s.faultN
/-- ALERT_N, true where it is driven low (R438). -/
def State.alertPin (s : State) : Option Bool := s.pin33 101 false s.fc.alert
/-- IRQ_N of a QSPI port on the 1.8 V rail, true where it is driven low (R75). -/
def State.irqPin (s : State) (port : Port) : Option Bool :=
  if !s.dev.v18 then none else some (s.dev.porst && s.irqN port)

/-- IO_RAIL_WINDOW_CHANGE (R445): the pins of the rail become high impedance, or return to their driven levels. -/
def execIoRailWindowChange (dt : Nat) (r : Rail) (inside : Bool) (s0 : State) : Host.Outcome State Fault Refusal :=
  let s := s0.elapse dt
  .next { s with dev := match r with
    | .v33 => { s.dev with v33 := inside }
    | .v18 => { s.dev with v18 := inside } }

/-- TAP_INSTRUCTION_UPDATE (R458): an instruction that drives pins acts as BYPASS while PORST_N is high. -/
def execTapInstructionUpdate (dt : Nat) (i : TapInstr) (s0 : State) : Host.Outcome State Fault Refusal :=
  let s := s0.elapse dt
  .next { s with dev := { s.dev with tap := if s.dev.porst && tapDrives i then .bypass else i } }

end Sys2Proof.Machine
end

