-- ==== Sys2Proof/Machine/Tick.lean ====
section
/-! DEFINITION. Host-to-device items and the dispatch tick (R136, R139, R140, R229, R235, R293, R294, R336, R342,
R343): what a data core does with an item of its queues, and the ordered work of one tick. -/
namespace Sys2Proof.Machine

/-! ### Checks of an item (R139, R140, R235, R293, R336) -/

/-- The entries of a SIG_WRITE payload (Table 9.9). -/
def sigEntries (bs : List Byte) : List (Nat × W64) :=
  (List.range (bs.length / 16)).map fun i => (rd bs (16 * i) 4, BitVec.ofNat 64 (rd bs (16 * i + 8) 8))

/-- The reserved bits of aux that an item type does not use (R139 step 4, Tables 7.6, 9.9, 10.5). -/
def auxReserved (ty : Nat) (aux : Nat) : Bool :=
  if ty = 0x0201 || ty = 0x0501 then aux / 2 ≠ 0 else aux ≠ 0

/-- The item types a data core handles on an H2D queue (Tables 4.6, 7.6, 9.9, 10.5). -/
def itemTypes : List Nat := [0x0001, 0x0201, 0x0202, 0x0301, 0x0501, 0x0601, 0x0602]

/-- The reason for which an OBJ_WRITE or OBJ_SEND item is discarded (R235). -/
def State.objItemBad (s : State) (it : InItem) : Option Nat :=
  let c := it.index / 128
  let o := it.index % 128
  let n := it.payload.length
  if 4096 ≤ it.index || s.par K.qOwner it.q ≠ s.chanOwner c || !s.objTx c o then some 2
  else if it.ty = 0x0201 && (s.opar K.objSize c o < n || (n = 0 && s.opar K.objFormat c o % 4 = 2)) then some 3
  else if it.ty = 0x0202 && n ≠ 0 then some 3
  else none

/-- The reason for which a SIG_WRITE item is discarded (R293). -/
def State.sigItemBad (s : State) (it : InItem) : Option Nat :=
  let es := sigEntries it.payload
  let n := it.payload.length
  if it.index ≠ 0 || (List.range (n / 16)).any fun i => 0x3FFFF < rd it.payload (16 * i) 4 || rd it.payload (16 * i + 4) 4 ≠ 0 then
    some 0
  else if es.any fun e => match s.sigOf e.1 with
      | some (c, g, d) => !g.tx || d.isAxis || s.chanOwner c ≠ s.par K.qOwner it.q
      | none => true then some 2
  else if n = 0 || n % 16 ≠ 0 then some 3
  else none

/-- The reason for which an AX_STREAM or AX_CMD item is discarded (R336, Table 10.6). -/
def State.axItemBad (s : State) (it : InItem) : Option Nat :=
  let a := it.index
  let n := it.payload.length
  let op := rd it.payload 0 1
  let cmd := it.ty = 0x0602
  if cmd && (rd it.payload 1 7 ≠ 0 || rd it.payload 16 16 ≠ 0 || (op ≠ 1 && rd it.payload 8 8 ≠ 0)) then some 0
  else if 127 < a || !s.axDefined a || s.par K.axOwner a ≠ s.par K.qOwner it.q then some 2
  else if cmd && (op = 0 || 3 < op) then some 2
  else if !cmd && !keysAscend (streamSamples it.payload) then some 2
  else if cmd && n ≠ 32 then some 3
  else if !cmd && (n = 0 || n % 16 ≠ 0) then some 3
  else none

/-- The reason for which an item is discarded by a check after the framing, in the order of R139. -/
def State.itemBad (s : State) (hdr : List Byte) (it : InItem) : Option Nat :=
  if !itemTypes.contains it.ty then some 2
  else if rd hdr 4 1 ≠ it.payload.length % 32 then some 1
  else if 2 ≤ rd hdr 5 1 || rd hdr 15 1 ≠ 0 || auxReserved it.ty it.aux.toNat then some 0
  else if it.ty = 0x0201 || it.ty = 0x0202 then s.objItemBad it
  else if it.ty = 0x0501 then s.sigItemBad it
  else if it.ty = 0x0601 || it.ty = 0x0602 then s.axItemBad it
  else none

/-! ### The effect of an item (R235, R294, R318, R321, R336) -/

/-- OBJ_WRITE: the payload is written, and SEND asks for transmission. -/
def State.applyObjWrite (s : State) (c o : Nat) (bs : List Byte) (send : Bool) : State :=
  if !s.objTx c o then s
  else
    let t := s.writePayload c o bs
    if send then t.requestSend c o else t

/-- OBJ_SEND. -/
def State.applyObjSend (s : State) (c o : Nat) : State := if !s.objTx c o then s else s.requestSend c o

/-- An AX_STREAM or AX_CMD item; one that is not ignored supplies the object of its context with new content (R111). -/
def State.applyAxItem (s : State) (it : InItem) : State :=
  let a := it.index
  let t := if it.ty = 0x0601 then s.axStreamItem a (streamSamples it.payload)
    else s.axCmdItem a (rd it.payload 0 1) (sgn 64 (rd it.payload 8 8))
  if (t.axis a).ignored ≠ (s.axis a).ignored then t else t.newPayload (s.par K.axChan a) (s.par K.axObj a)

/-- The data core that carries out an item for one object or context: that of its channel (R229). -/
def State.itemCore (s : State) (it : InItem) : Nat :=
  if it.ty = 0x0201 || it.ty = 0x0202 then s.coreOf (it.index / 128)
  else if it.ty = 0x0601 || it.ty = 0x0602 then s.coreOf (s.par K.axChan it.index)
  else s.qServer it.q

/-- Carries out an item that concerns one object, context or queue. -/
def State.applyOne (s : State) (it : InItem) : State :=
  if it.ty = 0x0201 then s.applyObjWrite (it.index / 128) (it.index % 128) it.payload (bitOf it.aux.toNat 0)
  else if it.ty = 0x0202 then s.applyObjSend (it.index / 128) (it.index % 128)
  else if it.ty = 0x0301 then s.telegram it.q it.payload
  else if it.ty = 0x0601 || it.ty = 0x0602 then s.applyAxItem it
  else s

/-- Core `core` takes an item in hand: it carries it out, or hands what another core serves to that core (R229, R294). -/
def State.handle (s : State) (core : Nat) (it : InItem) : State :=
  if it.ty = 0x0501 then
    let es := sigEntries it.payload
    let t := s.applySigWrite core es (bitOf it.aux.toNat 0)
    if es.any fun e => match s.sigOf e.1 with
        | some (c, _) => s.coreOf c ≠ core
        | none => false then { t with handoff := t.handoff ++ [.inn core it] }
    else t
  else if s.itemCore it = core then s.applyOne it
  else { s with handoff := s.handoff ++ [.inn core it] }

/-- An item that another core handed over is carried out (R229). -/
def State.handled (s : State) (src : Nat) (it : InItem) : State :=
  if it.ty = 0x0501 then
    (List.range 4).foldl (fun t k =>
      if k = src then t else t.applySigWrite k (sigEntries it.payload) (bitOf it.aux.toNat 0)) s
  else s.applyOne it

/-! ### Taking items (R136, R139 to R141) -/

/-- A discarded item (R139): counted in bad, reported on 0x026 and by Q_BAD_ITEM; `whole` discards up to the latched wr. -/
def State.badItem (s : State) (q : Nat) (at_ : W32) (ty reason : Nat) (whole : Bool) : State :=
  let p := s.par K.qOwner q
  let t := (s.modQueue q fun x => { x with rd := if whole then x.wr else x.rd, bad := x.bad + 1 }).refreshPage q 0x88
  (t.raiseU 0x26 0 1 q false p).event p 0x0702 q (le 4 at_.toNat ++ le 2 ty ++ le 1 reason)

/-- Queue `q` is an OPEN H2D queue with items to dispatch. -/
def State.hasItems (s : State) (q : Nat) : Bool :=
  let x := s.queue q
  x.isOpen && s.par K.qDir q = 0 && x.rd ≠ x.wr

/-- The store address of the item at the head of queue `q`. -/
def State.headAddr (s : State) (q : Nat) : Nat := (s.queue q).base + (s.queue q).rd.toNat % (s.queue q).bytes

/-- The type of the item at the head of queue `q`. -/
def State.headType (s : State) (q : Nat) : Nat := rd (s.storeRead (s.headAddr q) 2) 0 2

/-- The core that serves queue `q` takes the item at its head (R136, R139, R140). -/
def State.takeItem (s : State) (q : Nat) : State :=
  if !s.hasItems q then s
  else
    let x := s.queue q
    let core := s.qServer q
    let pos := x.rd.toNat % x.bytes
    let a := s.headAddr q
    let hdr := s.storeRead a 32
    let ty := rd hdr 0 2
    let n := rd hdr 2 2
    let ext := itemBytes n
    if s.poisoned a 32 then s.badItem q x.rd ty 5 true
    else if 2080 < n then s.badItem q x.rd ty 3 true
    else if (x.wr - x.rd).toNat < ext then s.badItem q x.rd ty 4 true
    else if x.bytes < pos + ext then s.badItem q x.rd ty 6 true
    else
      let it : InItem :=
        { q := q, rd := x.rd, ty := ty, index := rd hdr 6 2, payload := s.storeRead (a + 32) n,
          aux := BitVec.ofNat 64 (rd hdr 24 8) }
      let t := s.modQueue q fun y => { y with rd := y.rd + BitVec.ofNat 32 ext }
      if s.poisoned a ext then t.badItem q x.rd ty 5 false
      else match s.itemBad hdr it with
        | some why => t.badItem q x.rd ty why false
        | none =>
          if ty = 1 then t
          else (t.modQueue q fun y => { y with items := y.items + 1 }).handle core it

/-- Fires the notification of an H2D queue that has been dispatched up to its latched wr (R141). -/
def State.h2dDone (s : State) (q : Nat) : State :=
  if (s.queue q).rd = (s.queue q).wr && s.par K.qNotifyCount q ≠ 0 then s.fire q else s

/-- Takes up to `n` items of queue `q` (R136). -/
def State.takeItems (s : State) (q : Nat) : Nat → State
  | 0 => s
  | n + 1 => (s.takeItem q).takeItems q n

/-- The batch of queue `q` in one tick (R136). -/
def State.batch (s : State) (q : Nat) : State :=
  if s.hasItems q then ((s.takeItems q (s.par K.qBatch q)).refreshPage q 0x40).h2dDone q else s

/-- A row that dispatches one item: queue `q` has at its head an item of that type. -/
def itemRow (ty : Nat) (dt : Nat) (q : Fin 64) (s0 : State) : Host.Outcome State Fault Refusal :=
  let s := s0.elapse dt
  if s.dev.mode = .ready && s.hasItems q && s.headType q = ty then .next (((s.takeItem q).refreshPage q 0x40).h2dDone q)
  else .next s

/-- OBJ_WRITE (R235). -/
def execObjWrite (dt : Nat) (q : Fin 64) (s : State) : Host.Outcome State Fault Refusal := itemRow 0x0201 dt q s
/-- OBJ_SEND (R235, R236). -/
def execObjSend (dt : Nat) (q : Fin 64) (s : State) : Host.Outcome State Fault Refusal := itemRow 0x0202 dt q s
/-- SIG_WRITE (R293, R294). -/
def execSigWrite (dt : Nat) (q : Fin 64) (s : State) : Host.Outcome State Fault Refusal := itemRow 0x0501 dt q s
/-- AX_STREAM (R318). -/
def execAxStream (dt : Nat) (q : Fin 64) (s : State) : Host.Outcome State Fault Refusal := itemRow 0x0601 dt q s
/-- AX_CMD (R321). -/
def execAxCmd (dt : Nat) (q : Fin 64) (s : State) : Host.Outcome State Fault Refusal := itemRow 0x0602 dt q s
/-- ANGLE_TEL (R43). -/
def execAngleTel (dt : Nat) (q : Fin 64) (s : State) : Host.Outcome State Fault Refusal := itemRow 0x0301 dt q s

/-! ### The dispatch tick (R342, R343) -/

/-- Applies `f` to the state for each of the numbers below `n`, in ascending order. -/
def State.each (s : State) (n : Nat) (f : State → Nat → State) : State := (List.range n).foldl f s

/-- The data plane applies one update (R21, R24, R110, R111, R113). -/
def State.applyUpdate (s : State) (u : Update) : State :=
  match u with
  | .par num inst v => match pDesc num with
    | some d => s.setNow d inst v
    | none => s
  | .fallback p f true => s.fellBack p f
  | .fallback p f false => s.applyFallback p f
  | .handOver p q => s.handedOver p q
  | .resume p => s.fallbackOver p

/-- The commands that wait for updates the data plane has acknowledged complete (R21). -/
def State.answerUpdates (s : State) : State :=
  (s.longs.filter fun l => l.code = 0x10 && l.arg ≤ s.upd.acked).foldl (fun t l => t.finish l l.res 0 []) s

/-- The updates that wait in the control-to-data update ring are applied in order and acknowledged in the status area
(R21). -/
def State.tickUpdates (s : State) : State :=
  let t := s.upd.ring.foldl State.applyUpdate { s with upd := { s.upd with ring := [] } }
  { t with upd := { t.upd with acked := s.upd.posted } }.answerUpdates

/-- A channel that has passed its self-test returns to service at a tick boundary, once its twin has ended a frame of the
objects that return (R210). -/
def State.passTick (s : State) (c : Nat) : State :=
  match (s.chan c).passDue with
  | some (m, lo, hi) =>
    let busy := (s.chan c).err.byTwin && match (s.chan (c + 1)).txNow with
      | some (.object o) => s.homeOf (c + 1) o = c
      | some .arm | some .ref => s.schedHome (c + 1) = c
      | some .test | none => false
    if busy then s
    else
      let t := (s.requalPass c (modeOf m)).requalEvent c 0 lo hi
      match t.longs.find? fun l => l.code = 0x803 && l.res = c with
      | some l => t.finish l stOk 0 (le 1 0)
      | none => t
  | none => s

/-- Step 1: what falls on the tick boundary: the updates, the step of TIME, the CORE frequency, handovers and epoch switches
and the returns of re-qualified channels (R21, R28, R29, R57, R204, R210, R426). -/
def State.tickSwitch (s : State) : State :=
  let t := s.tickUpdates.stepTime.applyCore
  let t := t.each 32 fun u c => (if (u.chan c).err.handTick then u.handover c false else u).passTick c
  t.switchAll

/-- Step 2: the kept payload writes whose buffer is free (R237), then the batches of the H2D queues (R136). -/
def State.tickItems (s : State) : State :=
  let t := s.each 32 fun u c =>
    (u.chan c).objs.foldl (fun v kv => if kv.2.deferred.isSome then v.writeDeferred c kv.1 else v) u
  t.each 64 fun u q => u.batch q

/-- One piece of handed work that came from core `src` (R229). -/
def State.handedFrom (s : State) (src : Nat) (h : Handoff) : State :=
  match h with
  | .out k it => if k = src then s.writeOut it else s
  | .inn k it => if k = src then s.handled k it else s

/-- Step 3: what other cores handed over in the previous tick, by ascending source core and in the order handed over. -/
def State.tickHanded (s : State) (hs : List Handoff) : State :=
  s.each 4 fun u src => hs.foldl (fun v h => v.handedFrom src h) u

/-- Step 4: the batches of the channel rings (R218), and the latch records (R60). -/
def State.tickRings (s : State) : State :=
  (s.each 32 fun u c => u.takeEntries c (u.par K.chanFiltBatch c)).each 16 fun u i => u.latchDrain i

/-- Step 5: the arming of due occurrences (R255). -/
def State.tickArm (s : State) : State := s.each 32 fun u c => u.schedTick c

/-- The gateway work of the previous tick, the freshness checks and the feedback checks (R296, R301, R313). -/
def State.tickClose (s : State) : State :=
  ((s.gatewayDue).each 32 fun u c => u.staleCheck c).each 128 fun u a => u.fbCheck a

/-- The work of one dispatch tick (R343), after the grants of the start budget (R414). -/
def State.tickWork (s : State) : State :=
  let t := ({ s with dev := { s.dev with tick := s.tickAt } }).grantTick.tickSwitch
  let hs := t.handoff
  ((({ t with handoff := [] }.tickItems).tickHanded hs).tickRings.tickArm).tickClose

/-- DISPATCH_TICK (R342, R343): a tick boundary has come. A row that comes late does the work of one tick, the newest
(DESIGN CHOICE, log entry 141). -/
def execDispatchTick (dt : Nat) (s0 : State) : Host.Outcome State Fault Refusal :=
  let s := s0.elapse dt
  if s.dev.mode = .ready && s.tickDue then .next s.tickWork else .next s

end Sys2Proof.Machine
end

