-- ==== Sys2Proof/Machine/Dispatch.lean ====
section
/-! DEFINITION. One arm per command: a direct call of its meaning, or a rejection by name. -/
namespace Sys2Proof.Machine

/-- The effect of a command on everything but the queue. -/
def exec (i : Instr) (s : State) : Host.Outcome State Fault Refusal :=
  match i with
  | .getInfo dt m => Sys2Proof.Machine.execGetInfo dt m s
  | .partStatus dt m => Sys2Proof.Machine.execPartStatus dt m s
  | .partReset dt m => Sys2Proof.Machine.execPartReset dt m s
  | .rightsGrant dt m => Sys2Proof.Machine.execRightsGrant dt m s
  | .rightsRevoke dt m => Sys2Proof.Machine.execRightsRevoke dt m s
  | .rightsList dt m => Sys2Proof.Machine.execRightsList dt m s
  | .paramSet dt m => Sys2Proof.Machine.execParamSet dt m s
  | .paramGet dt m => Sys2Proof.Machine.execParamGet dt m s
  | .paramLookup dt m => Sys2Proof.Machine.execParamLookup dt m s
  | .epochCommit dt m => Sys2Proof.Machine.execEpochCommit dt m s
  | .epochStatus dt m => Sys2Proof.Machine.execEpochStatus dt m s
  | .epochCancel dt m => Sys2Proof.Machine.execEpochCancel dt m s
  | .stageDiscard dt m => Sys2Proof.Machine.execStageDiscard dt m s
  | .admitReport dt m => Sys2Proof.Machine.execAdmitReport dt m s
  | .chanOpen dt m => Sys2Proof.Machine.execChanOpen dt m s
  | .chanClose dt m => Sys2Proof.Machine.execChanClose dt m s
  | .chanConfig dt m => Sys2Proof.Machine.execChanConfig dt m s
  | .chanMode dt m => Sys2Proof.Machine.execChanMode dt m s
  | .chanStatus dt m => Sys2Proof.Machine.execChanStatus dt m s
  | .chanRecover dt m => Sys2Proof.Machine.execChanRecover dt m s
  | .chanRetire dt m => Sys2Proof.Machine.execChanRetire dt m s
  | .chanDiag dt m => Sys2Proof.Machine.execChanDiag dt m s
  | .chanCollideClear dt m => Sys2Proof.Machine.execChanCollideClear dt m s
  | .objDefine dt m => Sys2Proof.Machine.execObjDefine dt m s
  | .objRead dt m => Sys2Proof.Machine.execObjRead dt m s
  | .ruleStage dt m => Sys2Proof.Machine.execRuleStage dt m s
  | .ruleRead dt m => Sys2Proof.Machine.execRuleRead dt m s
  | .filtStatus dt m => Sys2Proof.Machine.execFiltStatus dt m s
  | .lcRead dt m => Sys2Proof.Machine.execLcRead dt m s
  | .lcStart dt m => Sys2Proof.Machine.execLcStart dt m s
  | .lcStop dt m => Sys2Proof.Machine.execLcStop dt m s
  | .lcSet dt m => Sys2Proof.Machine.execLcSet dt m s
  | .timeDiscipline dt m => Sys2Proof.Machine.execTimeDiscipline dt m s
  | .latStatus dt m => Sys2Proof.Machine.execLatStatus dt m s
  | .syncStatus dt m => Sys2Proof.Machine.execSyncStatus dt m s
  | .schedStage dt m => Sys2Proof.Machine.execSchedStage dt m s
  | .schedClear dt m => Sys2Proof.Machine.execSchedClear dt m s
  | .schedRead dt m => Sys2Proof.Machine.execSchedRead dt m s
  | .schedStatus dt m => Sys2Proof.Machine.execSchedStatus dt m s
  | .sigStage dt m => Sys2Proof.Machine.execSigStage dt m s
  | .sigClear dt m => Sys2Proof.Machine.execSigClear dt m s
  | .sigRead dt m => Sys2Proof.Machine.execSigRead dt m s
  | .sigStatus dt m => Sys2Proof.Machine.execSigStatus dt m s
  | .axDefine dt m => Sys2Proof.Machine.execAxDefine dt m s
  | .axStart dt m => Sys2Proof.Machine.execAxStart dt m s
  | .axStop dt m => Sys2Proof.Machine.execAxStop dt m s
  | .axStatus dt m => Sys2Proof.Machine.execAxStatus dt m s
  | .qOpen dt m => Sys2Proof.Machine.execQOpen dt m s
  | .qClose dt m => Sys2Proof.Machine.execQClose dt m s
  | .qFlush dt m => Sys2Proof.Machine.execQFlush dt m s
  | .qStatus dt m => Sys2Proof.Machine.execQStatus dt m s
  | .storeStatus dt m => Sys2Proof.Machine.execStoreStatus dt m s
  | .faultSummary dt m => Sys2Proof.Machine.execFaultSummary dt m s
  | .faultRead dt m => Sys2Proof.Machine.execFaultRead dt m s
  | .faultClear dt m => Sys2Proof.Machine.execFaultClear dt m s
  | .faultRequalify dt m => Sys2Proof.Machine.execFaultRequalify dt m s
  | .faultInject dt m => Sys2Proof.Machine.execFaultInject dt m s
  | .logRead dt m => Sys2Proof.Machine.execLogRead dt m s
  | .faultPinRelease dt m => Sys2Proof.Machine.execFaultPinRelease dt m s
  | .bootStatus dt m => Sys2Proof.Machine.execBootStatus dt m s
  | .bootRecords dt m => Sys2Proof.Machine.execBootRecords dt m s
  | .fwLoad dt m => Sys2Proof.Machine.execFwLoad dt m s
  | .fwSelect dt m => Sys2Proof.Machine.execFwSelect dt m s
  | .bootClearFailures dt m => Sys2Proof.Machine.execBootClearFailures dt m s
  | .devRestart dt m => Sys2Proof.Machine.execDevRestart dt m s
  | .budgetStatus dt m => Sys2Proof.Machine.execBudgetStatus dt m s
  | .ageReport dt m => Sys2Proof.Machine.execAgeReport dt m s
  | .ageHistory dt m => Sys2Proof.Machine.execAgeHistory dt m s
  | .ageClearHist dt m => Sys2Proof.Machine.execAgeClearHist dt m s
  | .mgId dt => Sys2Proof.Machine.execMgId dt s
  | .mgState dt => Sys2Proof.Machine.execMgState dt s
  | .mgFaultLo dt => Sys2Proof.Machine.execMgFaultLo dt s
  | .mgFaultHi dt => Sys2Proof.Machine.execMgFaultHi dt s
  | .mgLatchedLo dt => Sys2Proof.Machine.execMgLatchedLo dt s
  | .mgLatchedHi dt => Sys2Proof.Machine.execMgLatchedHi dt s
  | .mgMargin dt => Sys2Proof.Machine.execMgMargin dt s
  | .mgLogNewest dt => Sys2Proof.Machine.execMgLogNewest dt s
  | .mgLogPrev dt => Sys2Proof.Machine.execMgLogPrev dt s
  | .alertResponse dt wins => Sys2Proof.Machine.execAlertResponse dt wins s
  | .dbQueueH2d dt w q => Sys2Proof.Machine.execDbQueueH2d dt w q s
  | .dbQueueD2h dt w q => Sys2Proof.Machine.execDbQueueD2h dt w q s
  | .evtTailWrite dt w value => Sys2Proof.Machine.execEvtTailWrite dt w value s
  | .hbWrite dt w value => Sys2Proof.Machine.execHbWrite dt w value s
  | .presetKey dt w value => Sys2Proof.Machine.execPresetKey dt w value s
  | .apSelect dt w n value => Sys2Proof.Machine.execApSelect dt w n value s
  | .errCountRead dt w => Sys2Proof.Machine.execErrCountRead dt w s
  | .irqEnableWrite dt w value => Sys2Proof.Machine.execIrqEnableWrite dt w value s
  | .registerWrite dt w offset bytes => Sys2Proof.Machine.execRegisterWrite dt w offset bytes s
  | .storeWindowAccess dt a => Sys2Proof.Machine.execStoreWindowAccess dt a s
  | .powerOnReset dt straps o => Sys2Proof.Machine.execPowerOnReset dt straps o s
  | .porstNFall dt => Sys2Proof.Machine.execPorstNFall dt s
  | .powerFail dt => Sys2Proof.Machine.execPowerFail dt s
  | .deviceReset dt o => Sys2Proof.Machine.execDeviceReset dt o s
  | .readyTimeout dt => Sys2Proof.Machine.execReadyTimeout dt s
  | .watchdog dt core => Sys2Proof.Machine.execWatchdog dt core s
  | .functionLevelReset dt p => Sys2Proof.Machine.execFunctionLevelReset dt p s
  | .hotReset dt link => Sys2Proof.Machine.execHotReset dt link s
  | .linkDown dt link => Sys2Proof.Machine.execLinkDown dt link s
  | .partitionResetDone dt p => Sys2Proof.Machine.execPartitionResetDone dt p s
  | .hbLate dt p => Sys2Proof.Machine.execHbLate dt p s
  | .hbExpired dt p => Sys2Proof.Machine.execHbExpired dt p s
  | .dispatchTick dt => Sys2Proof.Machine.execDispatchTick dt s
  | .tokenRefill dt => Sys2Proof.Machine.execTokenRefill dt s
  | .objWrite dt q => Sys2Proof.Machine.execObjWrite dt q s
  | .objSend dt q => Sys2Proof.Machine.execObjSend dt q s
  | .sigWrite dt q => Sys2Proof.Machine.execSigWrite dt q s
  | .axStream dt q => Sys2Proof.Machine.execAxStream dt q s
  | .axCmd dt q => Sys2Proof.Machine.execAxCmd dt q s
  | .angleTel dt q => Sys2Proof.Machine.execAngleTel dt q s
  | .frameReceived dt c f => Sys2Proof.Machine.execFrameReceived dt c f s
  | .ringEntry dt c => Sys2Proof.Machine.execRingEntry dt c s
  | .signalUnpack dt unit => Sys2Proof.Machine.execSignalUnpack dt unit s
  | .signalPack dt c o => Sys2Proof.Machine.execSignalPack dt c o s
  | .deferredPayloadWrite dt c o => Sys2Proof.Machine.execDeferredPayloadWrite dt c o s
  | .txSuccess dt c e => Sys2Proof.Machine.execTxSuccess dt c e s
  | .arbitrationLost dt c what sof winner => Sys2Proof.Machine.execArbitrationLost dt c what sof winner s
  | .busError dt c e => Sys2Proof.Machine.execBusError dt c e s
  | .protocolException dt c => Sys2Proof.Machine.execProtocolException dt c s
  | .boffDelayExpired dt c => Sys2Proof.Machine.execBoffDelayExpired dt c s
  | .recoveryDone dt c => Sys2Proof.Machine.execRecoveryDone dt c s
  | .loneEnter dt c => Sys2Proof.Machine.execLoneEnter dt c s
  | .loneProbe dt c => Sys2Proof.Machine.execLoneProbe dt c s
  | .stuckDominant dt x => Sys2Proof.Machine.execStuckDominant dt x s
  | .loopDelayWindow dt c => Sys2Proof.Machine.execLoopDelayWindow dt c s
  | .pinReadback dt c pad => Sys2Proof.Machine.execPinReadback dt c pad s
  | .chanRetired dt c => Sys2Proof.Machine.execChanRetired dt c s
  | .twinHandover dt c => Sys2Proof.Machine.execTwinHandover dt c s
  | .requalifyDone dt r result loopMin loopMax => Sys2Proof.Machine.execRequalifyDone dt r result loopMin loopMax s
  | .sleepEnter dt c => Sys2Proof.Machine.execSleepEnter dt c s
  | .busWake dt c fell => Sys2Proof.Machine.execBusWake dt c fell s
  | .wakeTimeExpired dt c => Sys2Proof.Machine.execWakeTimeExpired dt c s
  | .integrationDone dt c => Sys2Proof.Machine.execIntegrationDone dt c s
  | .chanOpenTimeout dt c => Sys2Proof.Machine.execChanOpenTimeout dt c s
  | .modeChangeApplied dt c => Sys2Proof.Machine.execModeChangeApplied dt c s
  | .epochSwitch dt id => Sys2Proof.Machine.execEpochSwitch dt id s
  | .timingApplied dt c => Sys2Proof.Machine.execTimingApplied dt c s
  | .samplePointMove dt c => Sys2Proof.Machine.execSamplePointMove dt c s
  | .firingTargetUpdate dt c => Sys2Proof.Machine.execFiringTargetUpdate dt c s
  | .scheduledFire dt c sof blocker => Sys2Proof.Machine.execScheduledFire dt c sof blocker s
  | .armFire dt c sof readbackOk => Sys2Proof.Machine.execArmFire dt c sof readbackOk s
  | .refMessage dt c started readbackOk => Sys2Proof.Machine.execRefMessage dt c started readbackOk s
  | .occurrenceMissed dt c => Sys2Proof.Machine.execOccurrenceMissed dt c s
  | .schedReport dt c => Sys2Proof.Machine.execSchedReport dt c s
  | .encCount dt n e => Sys2Proof.Machine.execEncCount dt n e s
  | .indexPulse dt n => Sys2Proof.Machine.execIndexPulse dt n s
  | .ssiWord dt n r => Sys2Proof.Machine.execSsiWord dt n r s
  | .standstillTimeout dt n => Sys2Proof.Machine.execStandstillTimeout dt n s
  | .telegramTimeout dt n => Sys2Proof.Machine.execTelegramTimeout dt n s
  | .holdoverExpired dt n => Sys2Proof.Machine.execHoldoverExpired dt n s
  | .estimatorRecord dt n => Sys2Proof.Machine.execEstimatorRecord dt n s
  | .timeStep dt => Sys2Proof.Machine.execTimeStep dt s
  | .latchEdge dt k falling => Sys2Proof.Machine.execLatchEdge dt k falling s
  | .syncPulse dt k position backward wiringOk => Sys2Proof.Machine.execSyncPulse dt k position backward wiringOk s
  | .syncPulseEnd dt k => Sys2Proof.Machine.execSyncPulseEnd dt k s
  | .readTimeoutExpired dt q => Sys2Proof.Machine.execReadTimeoutExpired dt q s
  | .scrub dt errors passEnd => Sys2Proof.Machine.execScrub dt errors passEnd s
  | .faultOccurrence dt src o => Sys2Proof.Machine.execFaultOccurrence dt src o s
  | .invalidPair dt src => Sys2Proof.Machine.execInvalidPair dt src s
  | .faultLineClear dt src => Sys2Proof.Machine.execFaultLineClear dt src s
  | .graceExpired dt src => Sys2Proof.Machine.execGraceExpired dt src s
  | .quietTimeExpired dt src => Sys2Proof.Machine.execQuietTimeExpired dt src s
  | .chipReset dt => Sys2Proof.Machine.execChipReset dt s
  | .injectDone dt residual => Sys2Proof.Machine.execInjectDone dt residual s
  | .fwLoadDone dt => Sys2Proof.Machine.execFwLoadDone dt s
  | .aliveRenewal dt => Sys2Proof.Machine.execAliveRenewal dt s
  | .aliveRenewalMissed dt => Sys2Proof.Machine.execAliveRenewalMissed dt s
  | .monitorSample dt x => Sys2Proof.Machine.execMonitorSample dt x s
  | .plan dt => Sys2Proof.Machine.execPlan dt s
  | .coreFreqChange dt => Sys2Proof.Machine.execCoreFreqChange dt s
  | .historySummary dt => Sys2Proof.Machine.execHistorySummary dt s
  | .ksScan dt x => Sys2Proof.Machine.execKsScan dt x s
  | .pulseMissing dt n => Sys2Proof.Machine.execPulseMissing dt n s
  | .timeSlewDone dt => Sys2Proof.Machine.execTimeSlewDone dt s
  | .exclusiveWindowEnd dt c => Sys2Proof.Machine.execExclusiveWindowEnd dt c s
  | .schedBoundaryCrossed dt c => Sys2Proof.Machine.execSchedBoundaryCrossed dt c s
  | .estimatedDirectionChange dt n => Sys2Proof.Machine.execEstimatedDirectionChange dt n s
  | .linkUp dt link => Sys2Proof.Machine.execLinkUp dt link s
  | .ioRailWindowChange dt r inside => Sys2Proof.Machine.execIoRailWindowChange dt r inside s
  | .tapInstructionUpdate dt k => Sys2Proof.Machine.execTapInstructionUpdate dt k s

end Sys2Proof.Machine
end

