-- ==== Sys2Proof/Safety.lean ====
section
/-! DEFINITION. What the statements speak of: the invariant of every state that a step leaves, what a command leaves
alone, and when a mailbox command is served at once. -/
namespace Sys2Proof.Machine

/-! ### The invariant -/

/-- Events written to partition `p`'s ring and not yet read (R106). -/
def Part.unread (x : Part) : Nat := (x.evtHead - x.evtTail).toNat

/-- The invariant of a partition's window: the event ring holds no more than its 1,024 entries, so that no unread event is
overwritten (R106), and the mailbox page lists its bytes in the canonical form. -/
structure Part.Inv (x : Part) : Prop where
  events : x.unread ≤ 1024
  slots : Memory.wf x.slots = true

/-- The invariant of the machine: the store lists its bytes in the canonical form; the event log holds at most its
32,768 records (R386); every partition's window keeps its own; the fault records and the expert grants are listed in the canonical form. -/
structure State.Inv (s : State) : Prop where
  mem : Memory.wf s.store.mem = true
  log : s.keep.log.length ≤ 32768
  parts : ∀ p, (s.part p).Inv
  recs : SMap.wf FRec.reset s.fc.recs = true
  grants : SMap.wf 0 s.expert = true

/-- `t` follows from `s` without harm: the queue of waiting commands is the same, and the invariant is kept. -/
structure Safe (s t : State) : Prop where
  queue : t.pending = s.pending
  inv : s.Inv → t.Inv

/-- `t` grants no expert right (R96) that `s` does not grant. -/
def State.GrantsNoMore (s t : State) : Prop :=
  ∀ k p, bitOf (SMap.get 0 t.expert k) p = true → bitOf (SMap.get 0 s.expert k) p = true

/-- What no command changes but those that concern it: links (R72), expert rights, which none but RIGHTS_GRANT gives
(R96), the straps and pins that only PORST_N, the rails and the TAP set (R394 to R396, R445, R458), and the number of
starts (R404). -/
structure Quiet (s t : State) : Prop where
  links : t.linksDown = s.linksDown
  grants : SMap.wf 0 s.expert = true → SMap.wf 0 t.expert = true ∧ s.GrantsNoMore t
  straps : t.dev.straps = s.dev.straps
  porst : t.dev.porst = s.dev.porst
  rails : (t.dev.v08, t.dev.v18, t.dev.v33) = (s.dev.v08, s.dev.v18, s.dev.v33)
  tap : t.dev.tap = s.dev.tap
  boot : t.keep.boot = s.keep.boot

/-- `t` follows from `s` without harm and leaves alone what few commands change. -/
structure Keeps (s t : State) : Prop where
  safe : Safe s t
  quiet : Quiet s t

/-- The state that an outcome may leave is related to `s`. -/
def Leaves (R : State → State → Prop) (s : State) (o : Host.Outcome State Fault Refusal) : Prop :=
  ∀ t, o = .next t → R s t

/-- The state in an answer of a mailbox handler is related to `s`. -/
def Answer.Leaves (R : State → State → Prop) (s : State) (x : Answer) : Prop :=
  match x with
  | .refuse _ _ => True
  | .done _ _ t => R s t
  | .later _ t => R s t

/-! ### Serving a mailbox command (R81 to R88) -/

/-- The request `m` as the device holds it once it has taken it from its slot (R82). -/
def acceptedOf (code : Nat) (m : Mbox) : Accepted :=
  { slot := m.slot.val, code := code, rq := { m.rq with data := fit 496 m.rq.data } }

/-- The request `m` as its handler sees it. -/
def reqOf (code : Nat) (m : Mbox) : Req := (acceptedOf code m).req m.via.part.val

/-- `dt` cycles later the device holds the request `m`: it has accepted it already, or the host submits it now (R81). -/
def State.offered (s : State) (code dt : Nat) (m : Mbox) : State :=
  let t := s.elapse dt
  if t.holds m.via.part.val m.slot.val code m.rq then t else t.submit m.via.part.val m.slot.val code m.rq

/-- The control core has taken the request `m` in hand, and the turn has passed on (R87). -/
def State.inHand (s : State) (code dt : Nat) (m : Mbox) : State := (s.offered code dt m).takeRequest m.via.part.val

/-- The state in which the handler of the request `m` works: the control core has it in hand, and one whose data the
management plane holds has gone there (R20, steps 1 and 2). -/
def State.taken (s : State) (code dt : Nat) (m : Mbox) : State :=
  if managementCodes.contains code then (s.inHand code dt m).relayRequest m.via.part.val m.slot.val else s.inHand code dt m

/-- The response to `m` is written and DONE is set (R82, R84), once the completion of the management plane is read where its
data lie there (R20, steps 3 and 4); unknown codes behind it are then answered (R86). -/
def State.answered (t : State) (code : Nat) (m : Mbox) (st : Nat) (data : List Byte) : State :=
  ((if managementCodes.contains code then t.relayDone m.via.part.val m.slot.val else t).respond m.via.part.val m.slot.val
    code m.rq.tag st 0 data).drain m.via.part.val 16

/-- The command, in hand at instant `t0`, runs on: its record joins those in progress (R88). -/
def State.running (t : State) (t0 : Nat) (l : Long) (m : Mbox) : State :=
  { t with longs := t.longs ++ [{ l with t0 := t0 }] }.drain m.via.part.val 16

/-- The request `m` of a command with definition `d` is served `dt` cycles after `s`: the access reaches its partition,
the device holds that request and no other of the partition, the control core starts the partition's command next, which
no other command blocks and no unresolved lockstep fault holds (R25, R87, R88), and it passes the checks of R86. -/
structure Serves (d : CmdDef) (dt : Nat) (m : Mbox) (s : State) : Prop where
  reach : (s.elapse dt).reaches m.via = true
  front : ((s.offered d.code dt m).part m.via.part.val).accepted = [acceptedOf d.code m]
  turn : (s.offered d.code dt m).nextPart = some m.via.part.val
  checks : d.check (reqOf d.code m) (s.inHand d.code dt m) = none

/-! ### What a command leaves alone -/

/-- From `s` to `t` nothing changed but TIME, the log and the plane event rings on the way to it (R20, R22), the turn of
R87, and in the window of partition `p` the slots, the DONE bits, the sequence number and the interrupts. -/
structure AnswerOnly (p : Nat) (s t : State) : Prop where
  state : t = { s with
    clk := t.clk, parts := t.parts, rings := t.rings, dev := { s.dev with turn := t.dev.turn }
    keep := { s.keep with log := t.keep.log, logSeq := t.keep.logSeq, logLost := t.keep.logLost } }
  others : ∀ q, q ≠ p → t.part q = s.part q
  window : t.part p = { s.part p with
    slots := (t.part p).slots, done := (t.part p).done, seq := (t.part p).seq, accepted := (t.part p).accepted
    pba := (t.part p).pba, msiSent := (t.part p).msiSent }

/-- As `AnswerOnly`, and the store changed within `n` bytes from address `a`. -/
structure BulkOnly (p a n : Nat) (s t : State) : Prop where
  answer : AnswerOnly p s { t with store := s.store }
  store : t.store = { s.store with mem := t.store.mem, poison := t.store.poison }
  bytes : ∀ x, (x < a ∨ a + n ≤ x) → SMap.get 0 t.store.mem x = SMap.get 0 s.store.mem x

/-- As `AnswerOnly`, and the staged configuration of partition `p` changed; lanes of the configuration copies, which are
written anew, may be poisoned no more (R125). -/
structure StageOnly (p : Nat) (s t : State) : Prop where
  answer : AnswerOnly p s { t with stages := s.stages, store := s.store }
  stages : ∀ q, q ≠ p → t.stage q = s.stage q
  store : t.store = { s.store with poison := t.store.poison }
  healed : ∀ l, l ∈ t.store.poison → l ∈ s.store.poison
  others : ∀ l, confRegion l = false → l ∈ s.store.poison → l ∈ t.store.poison

/-! ### Taking an item of a host-to-device queue (R136, R139, R140) -/

/-- The item at the head of queue `q` is `it`, of type `ty`: the queue is OPEN and dispatches, its header and its payload
are not poisoned, it lies within what the host has made valid and within the ring, and the checks that follow the
framing find no fault with it. -/
structure GoodItem (t : State) (q ty : Nat) (it : InItem) : Prop where
  ready : t.dev.mode = .ready
  items : t.hasItems q = true
  clean : t.poisoned (t.headAddr q) 32 = false
  type : it.ty = ty ∧ rd (t.storeRead (t.headAddr q) 32) 0 2 = ty
  size : it.payload.length ≤ 2080
  valid : itemBytes it.payload.length ≤ ((t.queue q).wr - (t.queue q).rd).toNat
  ring : (t.queue q).rd.toNat % (t.queue q).bytes + itemBytes it.payload.length ≤ (t.queue q).bytes
  whole : t.poisoned (t.headAddr q) (itemBytes it.payload.length) = false
  item : it = { q := q, rd := (t.queue q).rd, ty := ty, index := rd (t.storeRead (t.headAddr q) 32) 6 2,
                payload := t.storeRead (t.headAddr q + 32) (rd (t.storeRead (t.headAddr q) 32) 2 2),
                aux := BitVec.ofNat 64 (rd (t.storeRead (t.headAddr q) 32) 24 8) }
  good : t.itemBad (t.storeRead (t.headAddr q) 32) it = none

/-- The item `it` has been taken from queue `q`: rd stands behind it, it is counted, and the core that serves the queue
has it in hand; a queue that this empties notifies its owner (R141). -/
def State.tookItem (t : State) (q : Nat) (it : InItem) : State :=
  (((t.modQueue q fun y =>
    { y with rd := y.rd + BitVec.ofNat 32 (itemBytes it.payload.length), items := y.items + 1 }).handle (t.qServer q)
      it).refreshPage q 0x40).h2dDone q

/-! ### The mailbox commands -/

end Sys2Proof.Machine

namespace Sys2Proof

open Sys2Proof.Machine in
/-- The definition, the cycles before it and the request of a mailbox command; none for every other command. -/
def Instr.request (i : Instr) : Option (CmdDef × Nat × Mbox) :=
  match i with
  | .getInfo dt m => some (cmdGetInfo, dt, m)
  | .partStatus dt m => some (cmdPartStatus, dt, m)
  | .partReset dt m => some (cmdPartReset, dt, m)
  | .rightsGrant dt m => some (cmdRightsGrant, dt, m)
  | .rightsRevoke dt m => some (cmdRightsRevoke, dt, m)
  | .rightsList dt m => some (cmdRightsList, dt, m)
  | .paramSet dt m => some (cmdParamSet, dt, m)
  | .paramGet dt m => some (cmdParamGet, dt, m)
  | .paramLookup dt m => some (cmdParamLookup, dt, m)
  | .epochCommit dt m => some (cmdEpochCommit, dt, m)
  | .epochStatus dt m => some (cmdEpochStatus, dt, m)
  | .epochCancel dt m => some (cmdEpochCancel, dt, m)
  | .stageDiscard dt m => some (cmdStageDiscard, dt, m)
  | .admitReport dt m => some (cmdAdmitReport, dt, m)
  | .chanOpen dt m => some (cmdChanOpen, dt, m)
  | .chanClose dt m => some (cmdChanClose, dt, m)
  | .chanConfig dt m => some (cmdChanConfig, dt, m)
  | .chanMode dt m => some (cmdChanMode, dt, m)
  | .chanStatus dt m => some (cmdChanStatus, dt, m)
  | .chanRecover dt m => some (cmdChanRecover, dt, m)
  | .chanRetire dt m => some (cmdChanRetire, dt, m)
  | .chanDiag dt m => some (cmdChanDiag, dt, m)
  | .chanCollideClear dt m => some (cmdChanCollideClear, dt, m)
  | .objDefine dt m => some (cmdObjDefine, dt, m)
  | .objRead dt m => some (cmdObjRead, dt, m)
  | .ruleStage dt m => some (cmdRuleStage, dt, m)
  | .ruleRead dt m => some (cmdRuleRead, dt, m)
  | .filtStatus dt m => some (cmdFiltStatus, dt, m)
  | .lcRead dt m => some (cmdLcRead, dt, m)
  | .lcStart dt m => some (cmdLcStart, dt, m)
  | .lcStop dt m => some (cmdLcStop, dt, m)
  | .lcSet dt m => some (cmdLcSet, dt, m)
  | .timeDiscipline dt m => some (cmdTimeDiscipline, dt, m)
  | .latStatus dt m => some (cmdLatStatus, dt, m)
  | .syncStatus dt m => some (cmdSyncStatus, dt, m)
  | .schedStage dt m => some (cmdSchedStage, dt, m)
  | .schedClear dt m => some (cmdSchedClear, dt, m)
  | .schedRead dt m => some (cmdSchedRead, dt, m)
  | .schedStatus dt m => some (cmdSchedStatus, dt, m)
  | .sigStage dt m => some (cmdSigStage, dt, m)
  | .sigClear dt m => some (cmdSigClear, dt, m)
  | .sigRead dt m => some (cmdSigRead, dt, m)
  | .sigStatus dt m => some (cmdSigStatus, dt, m)
  | .axDefine dt m => some (cmdAxDefine, dt, m)
  | .axStart dt m => some (cmdAxStart, dt, m)
  | .axStop dt m => some (cmdAxStop, dt, m)
  | .axStatus dt m => some (cmdAxStatus, dt, m)
  | .qOpen dt m => some (cmdQOpen, dt, m)
  | .qClose dt m => some (cmdQClose, dt, m)
  | .qFlush dt m => some (cmdQFlush, dt, m)
  | .qStatus dt m => some (cmdQStatus, dt, m)
  | .storeStatus dt m => some (cmdStoreStatus, dt, m)
  | .faultSummary dt m => some (cmdFaultSummary, dt, m)
  | .faultRead dt m => some (cmdFaultRead, dt, m)
  | .faultClear dt m => some (cmdFaultClear, dt, m)
  | .faultRequalify dt m => some (cmdFaultRequalify, dt, m)
  | .faultInject dt m => some (cmdFaultInject, dt, m)
  | .logRead dt m => some (cmdLogRead, dt, m)
  | .faultPinRelease dt m => some (cmdFaultPinRelease, dt, m)
  | .bootStatus dt m => some (cmdBootStatus, dt, m)
  | .bootRecords dt m => some (cmdBootRecords, dt, m)
  | .fwLoad dt m => some (cmdFwLoad, dt, m)
  | .fwSelect dt m => some (cmdFwSelect, dt, m)
  | .bootClearFailures dt m => some (cmdBootClearFailures, dt, m)
  | .devRestart dt m => some (cmdDevRestart, dt, m)
  | .budgetStatus dt m => some (cmdBudgetStatus, dt, m)
  | .ageReport dt m => some (cmdAgeReport, dt, m)
  | .ageHistory dt m => some (cmdAgeHistory, dt, m)
  | .ageClearHist dt m => some (cmdAgeClearHist, dt, m)
  | .mgId _ | .mgState _ | .mgFaultLo _ | .mgFaultHi _ | .mgLatchedLo _ | .mgLatchedHi _ | .mgMargin _ |
    .mgLogNewest _ | .mgLogPrev _ | .alertResponse _ _ | .dbQueueH2d _ _ _ | .dbQueueD2h _ _ _ | .evtTailWrite _ _ _ |
    .hbWrite _ _ _ | .presetKey _ _ _ | .apSelect _ _ _ _ | .errCountRead _ _ | .irqEnableWrite _ _ _ |
    .registerWrite _ _ _ _ | .storeWindowAccess _ _ | .powerOnReset _ _ _ | .porstNFall _ | .powerFail _ |
    .deviceReset _ _ | .readyTimeout _ | .watchdog _ _ | .functionLevelReset _ _ | .hotReset _ _ | .linkDown _ _ |
    .partitionResetDone _ _ | .hbLate _ _ | .hbExpired _ _ | .dispatchTick _ | .tokenRefill _ | .objWrite _ _ |
    .objSend _ _ | .sigWrite _ _ | .axStream _ _ | .axCmd _ _ | .angleTel _ _ | .frameReceived _ _ _ |
    .ringEntry _ _ | .signalUnpack _ _ | .signalPack _ _ _ | .deferredPayloadWrite _ _ _ | .txSuccess _ _ _ |
    .arbitrationLost _ _ _ _ _ | .busError _ _ _ | .protocolException _ _ | .boffDelayExpired _ _ |
    .recoveryDone _ _ | .loneEnter _ _ | .loneProbe _ _ | .stuckDominant _ _ | .loopDelayWindow _ _ |
    .pinReadback _ _ _ | .chanRetired _ _ | .twinHandover _ _ | .requalifyDone _ _ _ _ _ | .sleepEnter _ _ |
    .busWake _ _ _ | .wakeTimeExpired _ _ | .integrationDone _ _ | .chanOpenTimeout _ _ | .modeChangeApplied _ _ |
    .epochSwitch _ _ | .timingApplied _ _ | .samplePointMove _ _ | .firingTargetUpdate _ _ | .scheduledFire _ _ _ _ |
    .armFire _ _ _ _ | .refMessage _ _ _ _ | .occurrenceMissed _ _ | .schedReport _ _ | .encCount _ _ _ |
    .indexPulse _ _ | .ssiWord _ _ _ | .standstillTimeout _ _ | .telegramTimeout _ _ | .holdoverExpired _ _ |
    .estimatorRecord _ _ | .timeStep _ | .latchEdge _ _ _ | .syncPulse _ _ _ _ _ | .syncPulseEnd _ _ |
    .readTimeoutExpired _ _ | .scrub _ _ _ | .faultOccurrence _ _ _ | .invalidPair _ _ | .faultLineClear _ _ |
    .graceExpired _ _ | .quietTimeExpired _ _ | .chipReset _ | .injectDone _ _ | .fwLoadDone _ | .aliveRenewal _ |
    .aliveRenewalMissed _ | .monitorSample _ _ | .plan _ | .coreFreqChange _ | .historySummary _ | .ksScan _ _ |
    .pulseMissing _ _ | .timeSlewDone _ | .exclusiveWindowEnd _ _ | .schedBoundaryCrossed _ _ |
    .estimatedDirectionChange _ _ | .linkUp _ _ | .ioRailWindowChange _ _ _ | .tapInstructionUpdate _ _ => none

end Sys2Proof
end

