-- ==== Sys2Proof/Certificates/Slice0/Obligations.lean ====
section
/-! DEFINITION. The statements about the block. Where a clause rests on a choice of the model, its text names the log
entry. -/

open Sys2Proof Sys2Proof.Machine

/-- A step on a state whose queue has `c` in front is `exec c` on the state with the queue's rest; on an empty queue
the block idles (the model's choice: log entry 1). -/
def Obligations.StepRunsFront : Prop :=
  (∀ (c : Instr) (s : State), step { s with pending := c :: s.pending } = exec c s) ∧
    ∀ s : State, s.pending = [] → step s = .next s

/-- The state right after reset meets the invariant: its store, fault records, expert grants and mailbox pages are
listed in the canonical form, the log holds no more than its 32,768 records and no event ring more than its 1,024
entries. -/
def Obligations.InvReset : Prop :=
  State.reset.Inv

/-- From every state that meets the invariant, whether or not a run reaches it, every step that answers a next state
answers one that meets it: no command overwrites an unread event, lets the event log outgrow its records, or breaks
the canonical form of the store, the mailbox pages, the fault records or the expert grants. -/
def Obligations.InvStep : Prop :=
  ∀ s t : State, s.Inv → step s = .next t → t.Inv

/-- Whatever a command does, the queue of the commands that still wait is afterwards what it was: the queue is the
sender's (log entry 1). -/
def Obligations.ExecLeavesQueue : Prop :=
  ∀ (i : Instr) (s t : State), exec i s = .next t → t.pending = s.pending

/-- No command ever ends in a fault or a refusal of the model: what the spec refuses is refused by a status, a count
or a fault source of the device, which are state. -/
def Obligations.EveryCommandAnswers : Prop :=
  ∀ (i : Instr) (s : State), ∃ t, exec i s = .next t

/-- In a state whose grants are in canonical form, every command except RIGHTS_GRANT leaves no partition with an
expert grant that it did not hold before. -/
def Obligations.GrantsOnlyByRightsGrant : Prop :=
  ∀ (i : Instr) (s t : State), (∀ dt m, i ≠ .rightsGrant dt m) → SMap.wf 0 s.expert = true → exec i s = .next t →
    s.GrantsNoMore t

/-- Every command leaves the list of PCIe links that are down as it was, but for LINK_DOWN, LINK_UP, POWER_ON_RESET,
PORST_N_FALL, POWER_FAIL and DEVICE_RESET. -/
def Obligations.LinksChangeOnlyByLinkRows : Prop :=
  ∀ (i : Instr) (s t : State), (∀ dt l, i ≠ .linkDown dt l) → (∀ dt l, i ≠ .linkUp dt l) →
    (∀ dt b o, i ≠ .powerOnReset dt b o) → (∀ dt, i ≠ .porstNFall dt) → (∀ dt, i ≠ .powerFail dt) →
    (∀ dt o, i ≠ .deviceReset dt o) → exec i s = .next t → t.linksDown = s.linksDown

/-- The straps in force change only with POWER_ON_RESET; the level of PORST_N only with POWER_ON_RESET and
PORST_N_FALL. A device reset of another origin keeps both. -/
def Obligations.StrapsChangeOnlyAtPowerOn : Prop :=
  ∀ (i : Instr) (s t : State), (∀ dt b o, i ≠ .powerOnReset dt b o) → exec i s = .next t →
    t.dev.straps = s.dev.straps ∧ ((∀ dt, i ≠ .porstNFall dt) → t.dev.porst = s.dev.porst)

/-- Every command except POWER_ON_RESET and DEVICE_RESET leaves the number of starts in the keep store as it was; the
store outlives PORST_N_FALL and POWER_FAIL. -/
def Obligations.StartsAreCounted : Prop :=
  ∀ (i : Instr) (s t : State), (∀ dt b o, i ≠ .powerOnReset dt b o) → (∀ dt o, i ≠ .deviceReset dt o) →
    exec i s = .next t → t.keep.boot = s.keep.boot

/-- After reset TIME is 0, every queue is CLOSED, every channel CLOSED, every coordinate in NO_SOURCE, every fault
record empty, every partition window at the values of its tables, and the device is held in reset with FAULT_N low.
That the device waits for its first rise of PORST_N, and that no slot holds firmware, is the model's choice (log
entries 2 and 3). -/
def Obligations.ResetState : Prop :=
  State.reset.clk.time = 0 ∧ State.reset.dev.mode = .held ∧ State.reset.faultN = true ∧ State.reset.alive = .low ∧
    (∀ q, (State.reset.queue q).isOpen = false) ∧ (∀ c, (State.reset.chan c).st = .closed) ∧
    (∀ n, (State.reset.lc n).st = .noSource ∧ (State.reset.lc n).speed = 0) ∧ (∀ k, State.reset.frec k = FRec.reset) ∧
    (∀ p, State.reset.part p = Part.reset) ∧ (∀ a, State.reset.axis a = Axis.reset) ∧ State.reset.commits = [] ∧
    State.reset.longs = [] ∧ State.reset.store.mem = [] ∧ State.reset.expert = []

/-- For each of the 69 mailbox commands, once its request is the one that the control core starts next: the first check of R86 that fails gives the
status and detail of the response, and nothing else of the state changes. The order is R86's: a length above 496; a
command that Rusk mode does not serve; a form the command does not have; non-zero flags; a non-zero reserved byte; a
length other than the command defines; a bulk range beyond the region; a bulk offset off its alignment. -/
def Obligations.RefusedRequestsHaveNoEffect : Prop :=
  ∀ (i : Instr) (d : CmdDef) (dt : Nat) (m : Mbox) (s : State), i.request = some (d, dt, m) →
    (s.elapse dt).reaches m.via = true → ((s.offered d.code dt m).part m.via.part.val).accepted = [acceptedOf d.code m] →
    (s.offered d.code dt m).nextPart = some m.via.part.val →
    let r := reqOf d.code m
    let t := s.inHand d.code dt m
    let refused := fun (st detail : Nat) => Host.Outcome.next
      ((t.respond m.via.part.val m.slot.val d.code m.rq.tag st detail []).drain m.via.part.val 16)
    (496 < r.length → exec i s = refused stBadLength 4) ∧
    (r.length ≤ 496 → t.dev.mode = .rusk → d.rusk = false → exec i s = refused stUnsupported 0) ∧
    (r.length ≤ 496 → (t.dev.mode ≠ .rusk ∨ d.rusk = true) →
      ((1 < r.form ∨ (r.form = 1 ∧ d.expert = false)) → exec i s = refused stUnsupported 6) ∧
      (r.form ≤ 1 → (r.form = 1 → d.expert = true) →
        (r.flags ≠ 0 → exec i s = refused stRange 7) ∧
        (r.flags = 0 →
          (∀ o, d.badByte r = some o → exec i s = refused stRange (d.detail r o)) ∧
          (d.badByte r = none →
            (r.length ≠ d.len r → exec i s = refused stBadLength 4) ∧
            (r.length = d.len r →
              ((r.bulkLen = 0xFFFFFFFF ∨ t.bulkSize r.part < r.bulkOff + r.bulkLen) →
                exec i s = refused stBadLength 12) ∧
              (r.bulkLen ≠ 0xFFFFFFFF → r.bulkOff + r.bulkLen ≤ t.bulkSize r.part → r.bulkOff % 32 ≠ 0 →
                exec i s = refused stRange 8))))))

/-- The doorbell of a free slot of a served partition that is not in reset makes the slot device-owned, clears its
DONE bit and copies the request, whole, as the bytes of Table 3.18 lie in the slot. The premise on the page's
canonical form is a part of the invariant (InvStep). -/
def Obligations.FreshRequestIsAccepted : Prop :=
  ∀ (code dt : Nat) (m : Mbox) (s : State), code < 65536 →
    let u := s.elapse dt
    let p := m.via.part.val
    u.served p = true → (u.part p).resetting = none → u.slotHeld p m.slot.val = false → (u.part p).accepted = [] →
    Memory.wf (u.part p).slots = true →
    ((s.offered code dt m).part p).accepted = [acceptedOf code m] ∧
      ((s.offered code dt m).part p).done = (u.part p).done &&& ~~~(BitVec.ofNat 16 (2 ^ m.slot.val)) ∧
      (s.offered code dt m).slotHeld p m.slot.val = true

/-- The response overwrites the request: code and tag echoed, the length of its data, the status, a zero byte, the
detail, the partition's completed commands, the data, zero-padded; then the slot's DONE bit is set. No other slot's
bytes change. -/
def Obligations.ResponseLayout : Prop :=
  ∀ (s : State) (p slot code : Nat) (tag : W16) (st detail : Nat) (data : List Byte), p < 8 → slot < 16 →
    data.length ≤ 496 → Memory.wf (s.part p).slots = true →
    let t := s.respond p slot code tag st detail data
    let x := t.part p
    memRead x.slots (0x200 * slot) 2 = le 2 code ∧ memRead x.slots (0x200 * slot + 2) 2 = le 2 tag.toNat ∧
      memRead x.slots (0x200 * slot + 4) 2 = le 2 data.length ∧ memRead x.slots (0x200 * slot + 6) 2 = le 1 st ++ [0] ∧
      memRead x.slots (0x200 * slot + 8) 4 = le 4 detail ∧
      memRead x.slots (0x200 * slot + 12) 4 = le 4 ((s.part p).seq + 1).toNat ∧
      memRead x.slots (0x200 * slot + 16) 496 = data ++ zs (496 - data.length) ∧
      x.done = (s.part p).done ||| BitVec.ofNat 16 (2 ^ slot) ∧
      (∀ a, (a < 0x200 * slot ∨ 0x200 * slot + 512 ≤ a) → SMap.get 0 x.slots a = SMap.get 0 (s.part p).slots a) ∧
      ∀ q, q ≠ p → t.part q = s.part q

/-- While a command of the partition that is not long-running has not completed, while another partition's command comes
before it in turn, or while the lockstep fault of the control core (for the five commands of the management plane also
that of the supervisor core) is unresolved, a mailbox command only hands its request in: it has no other effect. -/
def Obligations.HeldRequestWaits : Prop :=
  ∀ (i : Instr) (d : CmdDef) (dt : Nat) (m : Mbox) (s : State), i.request = some (d, dt, m) →
    (s.elapse dt).reaches m.via = true → ((s.offered d.code dt m).part m.via.part.val).accepted = [acceptedOf d.code m] →
    ((s.offered d.code dt m).blocked m.via.part.val = true ∨
      (∃ q, (s.offered d.code dt m).nextPart = some q ∧ q ≠ m.via.part.val) ∨
      ((s.offered d.code dt m).frec 0x100).current = true ∨
      (d.code ∈ managementCodes ∧ ((s.offered d.code dt m).frec 0x101).current = true)) →
    exec i s = .next (s.offered d.code dt m)

/-- A mailbox command or a doorbell of a port to which the partition is not mapped changes nothing but the fault
source 0x040 to 0x043 of that port; on a link that is down, or with the device in reset, it changes nothing. -/
def Obligations.UnreachedPortOnlyReports : Prop :=
  ∀ (i : Instr) (d : CmdDef) (dt : Nat) (m : Mbox) (s : State), i.request = some (d, dt, m) →
    (s.elapse dt).reaches m.via = false →
    exec i s = .next
      (let u := s.elapse dt
       if u.dev.mode = .held ∨ m.via.port = .none ∨ m.via.port ∈ u.linksDown then u
       else u.raise (0x40 + portIndex m.via.port) 0 1 (viaAddr m.via 0 (0x1000 + 0x200 * m.slot.val)) false 0)

/-- A served GET_INFO, PART_STATUS (of its own partition, or by P0), RIGHTS_LIST, EPOCH_STATUS or PARAM_LOOKUP
completes with OK and the bytes of its response table, and changes nothing else. -/
def Obligations.ReportsComplete : Prop :=
  (∀ (dt : Nat) (m : Mbox) (s : State), Serves cmdGetInfo dt m s →
      let t := s.taken cmdGetInfo.code dt m
      let r := reqOf cmdGetInfo.code m
      exec (.getInfo dt m) s = .next (
        t.answered cmdGetInfo.code m stOk (le 4 (t.ifver r.part) ++ le 4 (t.stateReg r.part) ++
        le 1 (portNat (t.portOf r.part)) ++ le 1 (if t.dev.mode = .rusk then 0 else (t.part r.part).hb.code) ++ zs 2 ++
        le 4 (t.bulkSize r.part) ++ ((if t.dev.mode = .rusk then List.replicate 10 0 else
          [t.par K.partRuleQuota r.part, t.ruleUse (some r.part) 32 none, t.par K.partSigQuota r.part,
           (t.sigUse (some r.part) []).1, t.par K.partGrpQuota r.part, (t.sigUse (some r.part) []).2.1,
           t.par K.partSlotQuota r.part, t.slotUse (some r.part) [], t.par K.partQQuota r.part,
           t.queueUse r.part]).map (le 4)).flatten ++ zs 8))) ∧
  (∀ (dt : Nat) (m : Mbox) (s : State), Serves cmdPartStatus dt m s →
      let t := s.taken cmdPartStatus.code dt m
      let r := reqOf cmdPartStatus.code m
      ∀ p, p = r.u 0 1 → p ≤ 7 → (r.part = 0 ∨ r.part = p) →
      exec (.partStatus dt m) s = .next (
        t.answered cmdPartStatus.code m stOk
        (let ids := (t.commits.filter (·.part = p)).map fun (k : Commit) => k.id.toNat
         le 1 p ++ le 1 (t.part p).hb.code ++ le 2 (t.hbAge p) ++ le 4 (t.stateReg p) ++ le 4 (t.part p).errCount ++
           le 2 (sat 0xFFFF ids.length) ++ le 1 (min ids.length 120) ++ zs 1 ++
           ((ids.take (min ids.length 120)).map (le 4)).flatten))) ∧
  (∀ (dt : Nat) (m : Mbox) (s : State), Serves cmdRightsList dt m s →
      let t := s.taken cmdRightsList.code dt m
      let r := reqOf cmdRightsList.code m
      ∀ c n, resOfClass (r.u 0 1) = some (c, n) → r.u 2 2 < n →
      exec (.rightsList dt m) s = .next (
        t.answered cmdRightsList.code m stOk
        (le 1 (r.u 0 1) ++ le 1 (t.ownerOf c (r.u 2 2)) ++ le 2 (r.u 2 2) ++
          le 1 ((List.range 8).map fun p => flag p (t.expertOn p c (r.u 2 2))).sum ++ zs 3))) ∧
  (∀ (dt : Nat) (m : Mbox) (s : State), Serves cmdEpochStatus dt m s →
      let t := s.taken cmdEpochStatus.code dt m
      let r := reqOf cmdEpochStatus.code m
      exec (.epochStatus dt m) s = .next (
        t.answered cmdEpochStatus.code m stOk (le 1 (t.part r.part).commits.length ++ zs 7 ++
        ((t.part r.part).commits.map fun (x : CommitRec) => le 4 x.id.toNat ++ le 1 x.state ++ le 1 x.lc ++
          le 1 x.gen.toNat ++ zs 1 ++ le 8 x.time.toNat ++ le 8 x.coord.toNat).flatten))) ∧
  (∀ (dt : Nat) (m : Mbox) (s : State), Serves cmdParamLookup dt m s →
      let t := s.taken cmdParamLookup.code dt m
      let r := reqOf cmdParamLookup.code m
      ∀ d, pNamed (String.ofList ((r.data.takeWhile (· ≠ 0)).map fun b => Char.ofNat b.toNat)) = some d →
      exec (.paramLookup dt m) s = .next (
        t.answered cmdParamLookup.code m stOk
        (le 4 (keyId d.num 0) ++ le 1 (if d.expert then 1 else 0) ++ le 1 d.commit ++ le 1 d.ty ++ zs 1 ++
          le 2 (pSize d.ty) ++ zs 6)))

/-- PART_RESET by P0 of a mapped partition that is not in reset runs on as a long-running command: STATE.PART reads
RESETTING, the accepted commands of the partition are discarded and the responses of its running ones too.
PARTITION_RESET_DONE within the 10 ms of R89 takes the steps of R112: it discards what is staged, flushes the queues of
the partition, sets its registers to their reset values, arms the heartbeat, ends the fallback of the reset, tells the
partition and answers the PART_RESET OK; every slot is then empty and host-owned. Later, a PART_RESET that runs answers
TIMEOUT, and only what held the partition in reset ends (log entry 136). Neither changes TIME, the coordinates or the
parameters. -/
def Obligations.PartResetStarts : Prop :=
  (∀ (dt : Nat) (m : Mbox) (s : State), Serves cmdPartReset dt m s →
      let t := s.taken cmdPartReset.code dt m
      let r := reqOf cmdPartReset.code m
      r.u 0 1 ≠ 0 →
      r.u 0 1 ≤ 7 →
      r.part = 0 →
      t.portOf (r.u 0 1) ≠ .none →
      (t.part (r.u 0 1)).resetting = none →
      exec (.partReset dt m) s = .next ((t.startReset (r.u 0 1) 1).running t.now (r.long (r.u 0 1) 0 false) m)) ∧
  (∀ (s : State) (p origin : Nat), p < 8 → (s.part p).resetting = none →
    ((s.startReset p origin).part p).resetting = some origin ∧ ((s.startReset p origin).part p).accepted = [] ∧
      ∀ l ∈ (s.startReset p origin).longs, l.part = p → l.discard = true) ∧
  (∀ (dt : Nat) (p : Fin 8) (s : State) (origin : Nat),
    let u := s.elapse dt
    (u.part p).resetting = some origin →
    u.resetLate p = false →
    exec (.partitionResetDone dt p) s = .next
      (let v := (List.range 64).foldl (fun (v : State) q => if u.par K.qOwner q = p then v.flush q 2 true else v)
         (u.modStage p fun _ => Stage.empty)
       let v := v.modPart p fun x =>
         { Part.reset with
           fallback := x.fallback, commits := x.commits, resetting := none
           msix := if origin = 2 ∨ origin = 3 then [] else x.msix
           pba := if origin = 2 ∨ origin = 3 then 0 else x.pba
           msiSent := x.msiSent }
       ((((v.hbArm p).endFallback p).irqCause p 5).event p 0x0006 p (le 1 origin)).answerReset p stOk)) ∧
  (∀ (dt : Nat) (p : Fin 8) (s : State) (origin : Nat),
    let u := s.elapse dt
    (u.part p).resetting = some origin →
    u.resetLate p = true →
    exec (.partitionResetDone dt p) s = .next
      (let v := u.modPart p fun x => { x with resetting := none }
       (if (u.part p).hb = .expired then v else v.endFallback p).answerReset p stTimeout)) ∧
  (∀ (dt : Nat) (p : Fin 8) (s : State), ∃ t, exec (.partitionResetDone dt p) s = .next t ∧
    t.params = s.params ∧ (t.clk.time, t.lcs) = ((s.elapse dt).clk.time, s.lcs) ∧
    (((s.elapse dt).part p).resetting = none → t = s.elapse dt) ∧
    (((s.elapse dt).part p).resetting ≠ none → (t.part p).resetting = none) ∧
    (((s.elapse dt).part p).resetting ≠ none → (s.elapse dt).resetLate p = false →
      (t.part p).accepted = [] ∧ t.stage p = Stage.empty ∧ (t.part p).refused = 0 ∧ (t.part p).irqEnable = 0))

/-- A change of the right of a partition other than P0, by P0 or the owner, takes effect, is told to the partition and
to the owner, and the command answers OK; afterwards the partition holds the right, or holds it no more. An owner other
than P0 that names itself is denied: it grants to others, and removes only what it may grant (R96; log entry 36). -/
def Obligations.RightsCommandsComplete : Prop :=
  (∀ (dt : Nat) (m : Mbox) (s : State), Serves cmdRightsGrant dt m s →
      let t := s.taken cmdRightsGrant.code dt m
      let r := reqOf cmdRightsGrant.code m
      ∀ c k p i, resOfClass (r.u 0 1) = some (c, k) → p = r.u 1 1 → i = r.u 2 2 → p ≤ 7 → i < k → t.mayOperate r.part c i = true →
      ¬(p = t.ownerOf c i ∧ r.part ≠ 0) →
      p ≠ 0 →
      t.expertOn p c i = false →
      exec (.rightsGrant dt m) s = .next (
        (let u := (t.setRights c i p true).event p 0x0008 i (le 1 (r.u 0 1) ++ le 1 p ++ le 1 1)
         if t.ownerOf c i = p then u
         else u.event (t.ownerOf c i) 0x0008 i (le 1 (r.u 0 1) ++ le 1 p ++ le 1 1)).answered cmdRightsGrant.code m stOk [])) ∧
  (∀ (dt : Nat) (m : Mbox) (s : State), Serves cmdRightsRevoke dt m s →
      let t := s.taken cmdRightsRevoke.code dt m
      let r := reqOf cmdRightsRevoke.code m
      ∀ c k p i, resOfClass (r.u 0 1) = some (c, k) → p = r.u 1 1 → i = r.u 2 2 → p ≤ 7 → i < k → t.mayOperate r.part c i = true →
      ¬(p = t.ownerOf c i ∧ r.part ≠ 0) →
      p ≠ 0 →
      t.expertOn p c i = true →
      exec (.rightsRevoke dt m) s = .next (
        (let u := (t.setRights c i p false).event p 0x0008 i (le 1 (r.u 0 1) ++ le 1 p ++ le 1 0)
         if t.ownerOf c i = p then u
         else u.event (t.ownerOf c i) 0x0008 i (le 1 (r.u 0 1) ++ le 1 p ++ le 1 0)).answered cmdRightsRevoke.code m stOk [])) ∧
  (∀ (dt : Nat) (m : Mbox) (s : State), Serves cmdRightsGrant dt m s →
      let t := s.taken cmdRightsGrant.code dt m
      let r := reqOf cmdRightsGrant.code m
      ∀ c k p i, resOfClass (r.u 0 1) = some (c, k) → p = r.u 1 1 → i = r.u 2 2 → p ≤ 7 → i < k → t.mayOperate r.part c i = true →
      p = t.ownerOf c i →
      r.part ≠ 0 →
      exec (.rightsGrant dt m) s = .next ((t.respond m.via.part.val m.slot.val cmdRightsGrant.code m.rq.tag stDenied 17 []).drain
        m.via.part.val 16)) ∧
  (∀ (dt : Nat) (m : Mbox) (s : State), Serves cmdRightsRevoke dt m s →
      let t := s.taken cmdRightsRevoke.code dt m
      let r := reqOf cmdRightsRevoke.code m
      ∀ c k p i, resOfClass (r.u 0 1) = some (c, k) → p = r.u 1 1 → i = r.u 2 2 → p ≤ 7 → i < k → t.mayOperate r.part c i = true →
      p = t.ownerOf c i →
      r.part ≠ 0 →
      exec (.rightsRevoke dt m) s = .next ((t.respond m.via.part.val m.slot.val cmdRightsRevoke.code m.rq.tag stDenied 17 []).drain
        m.via.part.val 16)) ∧
  (∀ (s : State) (c : PRes) (i p : Nat) (on : Bool), p ≠ 0 → p ≤ 7 → SMap.wf 0 s.expert = true →
    SMap.wf 0 s.revoked = true → (s.setRights c i p on).expertOn p c i = on)

/-- R32: a served RIGHTS_REVOKE of a right that the partition holds leaves every parameter in force as it was, and
every signal set, rule list and schedule; from then on PARAM_SET denies that partition the EXPERT parameters of the
resource, and the entries it denied only for that reason are EXPERT ones. -/
def Obligations.RevocationChangesNoValue : Prop :=
  (∀ (dt : Nat) (m : Mbox) (s u : State), exec (.rightsRevoke dt m) s = .next u →
    u.params = s.params ∧ u.chans = s.chans ∧ u.axes = s.axes ∧ u.lcs = s.lcs) ∧
  (∀ (s : State) (c : PRes) (i p : Nat), p ≠ 0 → p ≤ 7 → SMap.wf 0 s.expert = true → SMap.wf 0 s.revoked = true →
    ∀ (e : PEntry) (d : PDesc), pDesc e.num = some d → resKey d.res e.inst = resKey c i →
      s.ownerOf d.res e.inst = s.ownerOf c i → s.entryBad p e = none →
      (s.setRights c i p false).entryBad p e = if d.expert then some stDenied else none)

/-- A PARAM_SET none of whose entries is at fault, inline or in an unpoisoned bulk range of the entries' length,
applies each entry at its commit point; the status is STAGED where a parameter with commit point EPOCH is among them,
else OK. It answers at once, or, where values go to the data plane through the update ring, once these are acknowledged:
the record of the command that waits holds the status and the number of updates posted (which keys these are: log entry
139). With an entry at fault it answers that entry's status and index and changes nothing else. -/
def Obligations.ParamSetCompletes : Prop :=
  (∀ (dt : Nat) (m : Mbox) (s : State), Serves cmdParamSet dt m s →
      let t := s.taken cmdParamSet.code dt m
      let r := reqOf cmdParamSet.code m
      ∀ bs, bs = (if r.bulkLen ≠ 0 then t.bulkIn r else r.data.drop 8) →
      (r.bulkLen ≠ 0 → r.bulkLen = entriesEnd bs (r.u 0 2) 0 ∧
        t.poisoned (t.bulkBase r.part + r.bulkOff) r.bulkLen = false) →
      firstEntry (t.entryBad r.part) (entriesAt bs (r.u 0 2) 0) = none →
      t.setBad (entriesAt bs (r.u 0 2) 0) (stageEntries (entriesAt bs (r.u 0 2) 0) (t.stage r.part)) = none →
      ∀ u st, u = (entriesAt bs (r.u 0 2) 0).foldl (State.applyEntry r.part) t →
      st = (if (entriesAt bs (r.u 0 2) 0).any fun e => (pDesc e.num).any fun d => d.commit = 1 then stStaged else stOk) →
      (u.upd.posted = t.upd.posted → exec (.paramSet dt m) s = .next (u.answered cmdParamSet.code m st [])) ∧
      (u.upd.posted ≠ t.upd.posted →
        exec (.paramSet dt m) s = .next (u.running t.now (r.long st u.upd.posted true) m))) ∧
  (∀ (dt : Nat) (m : Mbox) (s : State), Serves cmdParamSet dt m s →
      let t := s.taken cmdParamSet.code dt m
      let r := reqOf cmdParamSet.code m
      ∀ bs i st, bs = (if r.bulkLen ≠ 0 then t.bulkIn r else r.data.drop 8) →
      (r.bulkLen ≠ 0 → r.bulkLen = entriesEnd bs (r.u 0 2) 0 ∧
        t.poisoned (t.bulkBase r.part + r.bulkOff) r.bulkLen = false) →
      firstEntry (t.entryBad r.part) (entriesAt bs (r.u 0 2) 0) = some (i, st) →
      exec (.paramSet dt m) s = .next ((t.respond r.part r.slot cmdParamSet.code m.rq.tag st i []).drain r.part 16))

/-- A PARAM_GET whose entries name existing keys answers their values, the active ones or (which = 1) the staged ones,
inline where they fit and without a bulk range, else in the bulk range with the number of bytes written. -/
def Obligations.ParamGetCompletes : Prop :=
  (∀ (dt : Nat) (m : Mbox) (s : State), Serves cmdParamGet dt m s →
      let t := s.taken cmdParamGet.code dt m
      let r := reqOf cmdParamGet.code m
      r.u 2 1 ≤ 1 →
      r.bulkLen = 0 →
      ∀ es out, es = entriesBare (r.data.drop 8) (r.u 0 2) → firstEntry (fun e => e.keyBad true) es = none →
      out = (es.map (t.entryOut (decide (r.u 2 1 = 1)))).flatten →
      8 + out.length ≤ 496 →
      exec (.paramGet dt m) s = .next (t.answered cmdParamGet.code m stOk (le 2 (r.u 0 2) ++ zs 6 ++ out))) ∧
  (∀ (dt : Nat) (m : Mbox) (s : State), Serves cmdParamGet dt m s →
      let t := s.taken cmdParamGet.code dt m
      let r := reqOf cmdParamGet.code m
      r.u 2 1 ≤ 1 →
      r.bulkLen ≠ 0 →
      8 * r.u 0 2 ≤ r.bulkLen →
      t.poisoned (t.bulkBase r.part + r.bulkOff) (8 * r.u 0 2) = false →
      ∀ es out, es = entriesBare (t.bulkIn r) (r.u 0 2) → firstEntry (fun e => e.keyBad true) es = none →
      out = (es.map (t.entryOut (decide (r.u 2 1 = 1)))).flatten →
      out.length ≤ r.bulkLen →
      exec (.paramGet dt m) s = .next ((t.storeWrite (t.bulkBase r.part + r.bulkOff) out).answered cmdParamGet.code m stOk (le 4 out.length)))

/-- EPOCH_COMMIT of nothing staged answers OK with commit 0. A commit that overlaps no pending one and that the
admission check accepts becomes a pending commit, with a record in EPOCH_STATUS, and takes what was staged with it;
with DRY_RUN the check alone decides, and nothing changes. EPOCH_CANCEL of the partition's own pending commit drops it, marks its record
CANCELLED and gives the staged configuration back. STAGE_DISCARD empties what the partition has staged. EPOCH_SWITCH
at a tick boundary whose tick has not begun makes a due commit active. -/
def Obligations.EpochCommandsComplete : Prop :=
  (∀ (dt : Nat) (m : Mbox) (s : State), Serves cmdEpochCommit dt m s →
      let t := s.taken cmdEpochCommit.code dt m
      let r := reqOf cmdEpochCommit.code m
      (t.stage r.part).any = false →
      exec (.epochCommit dt m) s = .next (t.answered cmdEpochCommit.code m stOk (commitReply 0 0 0xFF 0))) ∧
  (∀ (dt : Nat) (m : Mbox) (s : State), Serves cmdEpochCommit dt m s →
      let t := s.taken cmdEpochCommit.code dt m
      let r := reqOf cmdEpochCommit.code m
      (t.stage r.part).any = true →
      t.admission (t.stage r.part) none = 0 →
      bitOf (r.u 0 1) 0 = true →
      exec (.epochCommit dt m) s = .next (t.answered cmdEpochCommit.code m stOk (commitReply 0 0 0xFF 0))) ∧
  (∀ (dt : Nat) (m : Mbox) (s : State), Serves cmdEpochCommit dt m s →
      let t := s.taken cmdEpochCommit.code dt m
      let r := reqOf cmdEpochCommit.code m
      (t.stage r.part).any = true →
      t.commits.all (fun k => !t.overlap k.chans (t.stage r.part) k.stage) = true →
      t.admission (t.stage r.part) none = 0 →
      bitOf (r.u 0 1) 0 = false →
      ∀ (lc : Nat) (b : W64) (id : W32),
        lc = (match t.boundaryOf (t.stage r.part) with | some (some n) => n | _ => 0xFF) →
      b = (if lc = 0xFF then 0 else BitVec.ofNat 64 (t.par K.lcEpochAt lc)) →
      id = BitVec.ofNat 32 t.dev.nextCommit →
      exec (.epochCommit dt m) s = .next (
        (let k : Commit :=
          { id := id, part := r.part, stage := t.stage r.part, lc := lc, boundary := b, hit := none,
            chans := t.affects (t.stage r.part), seen := if lc = 0xFF then 0 else t.lcVal lc }
         let x : CommitRec := { id := id, state := 0, lc := lc, gen := 0, time := 0, coord := b }
         let u : State :=
          { t with
            commits := t.commits ++ [k]
            dev := { t.dev with nextCommit := if t.dev.nextCommit = 0xFFFFFFFF then 1 else t.dev.nextCommit + 1 } }
         (u.modStage r.part fun _ => Stage.empty).modPart r.part fun p =>
           { p with commits := (p.commits ++ [x]).drop (p.commits.length + 1 - 16) }).answered cmdEpochCommit.code m
          stStaged (commitReply id (if lc = 0xFF then 2 else 1) lc b))) ∧
  (∀ (dt : Nat) (m : Mbox) (s : State), Serves cmdEpochCancel dt m s →
      let t := s.taken cmdEpochCancel.code dt m
      let r := reqOf cmdEpochCancel.code m
      ∀ id k, id = BitVec.ofNat 32 (r.u 0 4) → t.commits.find? (fun k => k.id = id) = some k →
      k.part = r.part →
      exec (.epochCancel dt m) s = .next (
        (({ t with commits := t.commits.filter fun (x : Commit) => x.id ≠ id }.modStage r.part fun g =>
          g.giveBack k.stage).modPart r.part fun p =>
            { p with commits := p.commits.map fun (x : CommitRec) => if x.id = id && x.state = 0 then { x with state := 2 } else x }).answered cmdEpochCancel.code m stOk [])) ∧
  (∀ (dt : Nat) (m : Mbox) (s : State), Serves cmdStageDiscard dt m s →
      let t := s.taken cmdStageDiscard.code dt m
      let r := reqOf cmdStageDiscard.code m
      exec (.stageDiscard dt m) s = .next ((t.modStage r.part fun _ => Stage.empty).answered cmdStageDiscard.code m stOk [])) ∧
  (∀ (dt : Nat) (id : W32) (s : State), s.dev.mode = .ready →
      (s.elapse dt).tickDue = true →
      exec (.epochSwitch dt id) s = .next ((s.elapse dt).seekAll.switchIf id))

/-- ADMIT_REPORT of the active configuration, or of a staged one that exists, into a bulk range of at least 1,072
bytes writes the report there and answers its length and check. -/
def Obligations.AdmitReportCompletes : Prop :=
  (∀ (dt : Nat) (m : Mbox) (s : State), Serves cmdAdmitReport dt m s →
      let t := s.taken cmdAdmitReport.code dt m
      let r := reqOf cmdAdmitReport.code m
      r.u 0 1 ≤ 1 →
      (r.u 0 1 = 1 → (t.stage r.part).any = true) →
      1072 ≤ r.bulkLen →
      ∀ bs, bs = t.admitReport (if r.u 0 1 = 1 then t.stage r.part else Stage.empty) →
      exec (.admitReport dt m) s = .next ((t.storeWrite (t.bulkBase r.part + r.bulkOff) bs).answered cmdAdmitReport.code m stOk (le 4 1072 ++ [bs[6]?.getD 0] ++ zs 3)))

/-- For a channel of the sender (or by P0) that is not RETIRED and that no long-running command uses: CHAN_OPEN of a
CLOSED channel with a legal timing, whose bounds hold, waits for its standby release and runs on; CHAN_CLOSE closes a
channel that no active configuration uses; CHAN_MODE notes the mode of an OPEN channel for the next bus idle, and
wakes a sleeping one; CHAN_RECOVER starts the recovery of a channel held bus-off; CHAN_RETIRE gives an open or
sleeping channel the cause COMMAND and completes with its retirement. -/
def Obligations.ChannelCommandsComplete : Prop :=
  (∀ (dt : Nat) (m : Mbox) (s : State), Serves cmdChanOpen dt m s →
      let t := s.taken cmdChanOpen.code dt m
      let r := reqOf cmdChanOpen.code m
      ∀ c, c = r.u 0 1 → c ≤ 31 → t.mayOperate r.part .chan c = true → t.retired c = false →
      r.u 1 1 ≤ 4 →
      t.chanInUse c = false →
      (t.chan c).st = .closed →
      (t.cfg c).timingOk = true →
      t.admitOpen c = 0 →
      exec (.chanOpen dt m) s = .next ((t.wantRelease c (modeOf (r.u 1 1)) 1).running t.now (r.long c (r.u 1 1) false) m)) ∧
  (∀ (dt : Nat) (m : Mbox) (s : State), Serves cmdChanClose dt m s →
      let t := s.taken cmdChanClose.code dt m
      let r := reqOf cmdChanClose.code m
      ∀ c, c = r.u 0 1 → c ≤ 31 → t.mayOperate r.part .chan c = true → t.retired c = false →
      t.chanInUse c = false →
      (t.chan c).st ≠ .closed →
      t.chanUsed c false = false →
      exec (.chanClose dt m) s = .next ((t.closeChan c).answered cmdChanClose.code m stOk [])) ∧
  (∀ (dt : Nat) (m : Mbox) (s : State), Serves cmdChanMode dt m s →
      let t := s.taken cmdChanMode.code dt m
      let r := reqOf cmdChanMode.code m
      ∀ c, c = r.u 0 1 → c ≤ 31 → t.mayOperate r.part .chan c = true → t.retired c = false →
      t.chanInUse c = false →
      r.u 1 1 ≤ 5 →
      (t.chan c).st = .opened →
      (r.u 1 1 = 5 → t.chanUsed c true = false) →
      exec (.chanMode dt m) s = .next (
        (t.modChan c fun ch =>
        { ch with wantMode := if r.u 1 1 = 5 then none else some (modeOf (r.u 1 1), 0), wantSleep := decide (r.u 1 1 = 5) }).answered cmdChanMode.code m stOk [])) ∧
  (∀ (dt : Nat) (m : Mbox) (s : State), Serves cmdChanMode dt m s →
      let t := s.taken cmdChanMode.code dt m
      let r := reqOf cmdChanMode.code m
      ∀ c, c = r.u 0 1 → c ≤ 31 → t.mayOperate r.part .chan c = true → t.retired c = false →
      t.chanInUse c = false →
      r.u 1 1 ≤ 5 →
      (t.chan c).st = .sleep →
      exec (.chanMode dt m) s = .next ((if r.u 1 1 = 5 then (t.dropRelease c).pinsIdle c else t.wantRelease c (modeOf (r.u 1 1)) 0).answered cmdChanMode.code m stOk [])) ∧
  (∀ (dt : Nat) (m : Mbox) (s : State), Serves cmdChanRecover dt m s →
      let t := s.taken cmdChanRecover.code dt m
      let r := reqOf cmdChanRecover.code m
      ∀ c, c = r.u 0 1 → c ≤ 31 → t.mayOperate r.part .chan c = true → t.retired c = false →
      t.chanInUse c = false →
      (t.chan c).err.st = .busOffHeld →
      (t.chan c).st = .opened →
      exec (.chanRecover dt m) s = .next ((t.errState c .busOff).answered cmdChanRecover.code m stOk [])) ∧
  (∀ (dt : Nat) (m : Mbox) (s : State), Serves cmdChanRetire dt m s →
      let t := s.taken cmdChanRetire.code dt m
      let r := reqOf cmdChanRetire.code m
      ∀ c, c = r.u 0 1 → c ≤ 31 → t.mayOperate r.part .chan c = true → t.retired c = false →
      t.chanInUse c = false →
      (t.chan c).st ≠ .closed →
      exec (.chanRetire dt m) s = .next ((t.addCause c 0x20).running t.now (r.long c 0 true) m))

/-- CHAN_STATUS of any channel, a RETIRED one too, answers its record. CHAN_DIAG writes the record of each of the
sender's channels to the bulk range and clears the counters where it is told to. CHAN_COLLIDE_CLEAR clears the
collision state of one transmit object or of all. AGE_CLEAR_HIST empties the edge histograms of a channel that is not
CLOSED. -/
def Obligations.ChannelReportsComplete : Prop :=
  (∀ (dt : Nat) (m : Mbox) (s : State), Serves cmdChanStatus dt m s →
      let t := s.taken cmdChanStatus.code dt m
      let r := reqOf cmdChanStatus.code m
      r.u 0 1 ≤ 31 →
      exec (.chanStatus dt m) s = .next (t.answered cmdChanStatus.code m stOk (t.chanStatus (r.u 0 1)))) ∧
  (∀ (dt : Nat) (m : Mbox) (s : State), Serves cmdChanDiag dt m s →
      let t := s.taken cmdChanDiag.code dt m
      let r := reqOf cmdChanDiag.code m
      64 * (t.myChans r.part).length ≤ r.bulkLen →
      exec (.chanDiag dt m) s = .next (
        (let u := t.storeWrite (t.bulkBase r.part + r.bulkOff) ((t.myChans r.part).map t.diagRecord).flatten
         if bitOf (r.u 0 1) 0 then (t.myChans r.part).foldl (fun u c => u.modDiag c fun _ => Diag.reset) u else u).answered cmdChanDiag.code m
          stOk (le 1 (t.myChans r.part).length ++ zs 7))) ∧
  (∀ (dt : Nat) (m : Mbox) (s : State), Serves cmdChanCollideClear dt m s →
      let t := s.taken cmdChanCollideClear.code dt m
      let r := reqOf cmdChanCollideClear.code m
      ∀ c, c = r.u 0 1 → c ≤ 31 → t.mayOperate r.part .chan c = true → t.retired c = false →
      t.chanInUse c = false →
      r.u 1 1 = 0xFF →
      exec (.chanCollideClear dt m) s = .next (((t.txObjs c).foldl (fun u o => u.collideClear c o) t).answered cmdChanCollideClear.code m stOk [])) ∧
  (∀ (dt : Nat) (m : Mbox) (s : State), Serves cmdChanCollideClear dt m s →
      let t := s.taken cmdChanCollideClear.code dt m
      let r := reqOf cmdChanCollideClear.code m
      ∀ c, c = r.u 0 1 → c ≤ 31 → t.mayOperate r.part .chan c = true → t.retired c = false →
      t.chanInUse c = false →
      r.u 1 1 ≤ 127 →
      t.objTx c (r.u 1 1) = true →
      exec (.chanCollideClear dt m) s = .next ((t.collideClear c (r.u 1 1)).answered cmdChanCollideClear.code m stOk [])) ∧
  (∀ (dt : Nat) (m : Mbox) (s : State), Serves cmdAgeClearHist dt m s →
      let t := s.taken cmdAgeClearHist.code dt m
      let r := reqOf cmdAgeClearHist.code m
      ∀ c, c = r.u 0 1 → c ≤ 31 → t.mayOperate r.part .chan c = true → t.retired c = false →
      t.chanInUse c = false →
      (t.chan c).st ≠ .closed →
      exec (.ageClearHist dt m) s = .next ((t.modChan c fun ch => { ch with age := { ch.age with histA := [], histD := [] } }).answered cmdAgeClearHist.code m stOk []))

/-- A CHAN_CONFIG whose values are in range, in the EXPERT form by a partition with expert rights, on a channel on
which nobody else has staged anything and no commit is pending, and whose bit timing is legal, stages its keys and
answers STAGED: no active value changes. -/
def Obligations.ChanConfigStages : Prop :=
  (∀ (dt : Nat) (m : Mbox) (s : State), Serves cmdChanConfig dt m s →
      let t := s.taken cmdChanConfig.code dt m
      let r := reqOf cmdChanConfig.code m
      ∀ c, c = r.u 0 1 → c ≤ 31 → t.mayOperate r.part .chan c = true → t.retired c = false →
      t.chanInUse c = false →
      (chanConfigKeys r).all (fun k => valueOk k.1 k.2.1) = true →
      (r.form = 1 → t.expertOn r.part .chan c = true) →
      t.stageBusy r.part (0x10000 + c) = false →
      ∀ g, g = (chanConfigKeys r).foldl (fun (g : Stage) k => g.write k.1 c k.2.1) (t.stage r.part) →
      ChanCfg.timingOk (fun num => t.viewOf g num c) = true →
      exec (.chanConfig dt m) s = .next ((t.restage r.part fun _ => g).answered cmdChanConfig.code m stStaged []))

/-- An OBJ_DEFINE that passes the checks of R242 stages its entries. OBJ_READ of a defined object answers its record
with the payload, inline up to 432 bytes and else in the bulk range, and clears NEW and OVERWRITE where told to.
FILT_STATUS answers the record of the channel's ring, re-arms RING_DROP and starts the high-water mark anew. -/
def Obligations.ObjectCommandsComplete : Prop :=
  (∀ (dt : Nat) (m : Mbox) (s : State), Serves cmdObjDefine dt m s →
      let t := s.taken cmdObjDefine.code dt m
      let r := reqOf cmdObjDefine.code m
      t.objRefused r = none →
      exec (.objDefine dt m) s = .next ((t.restage r.part fun _ => t.objStage r).answered cmdObjDefine.code m stStaged [])) ∧
  (∀ (dt : Nat) (m : Mbox) (s : State), Serves cmdObjRead dt m s →
      let t := s.taken cmdObjRead.code dt m
      let r := reqOf cmdObjRead.code m
      ∀ c, c = r.u 0 1 → c ≤ 31 → t.mayOperate r.part .chan c = true → t.retired c = false →
      ∀ o, o = r.u 1 1 → o ≤ 127 → t.objDir c o ≠ 0 →
      ((t.chan c).obj o).payload.length ≤ 432 →
      exec (.objRead dt m) s = .next (
        (if bitOf (r.u 2 1) 0 then t.modObj c o fun y => { y with new := false, overwrite := false } else t).answered cmdObjRead.code m stOk
        (t.objRecord c o ++ ((t.chan c).obj o).payload))) ∧
  (∀ (dt : Nat) (m : Mbox) (s : State), Serves cmdObjRead dt m s →
      let t := s.taken cmdObjRead.code dt m
      let r := reqOf cmdObjRead.code m
      ∀ c, c = r.u 0 1 → c ≤ 31 → t.mayOperate r.part .chan c = true → t.retired c = false →
      ∀ o, o = r.u 1 1 → o ≤ 127 → t.objDir c o ≠ 0 →
      432 < ((t.chan c).obj o).payload.length →
      ((t.chan c).obj o).payload.length ≤ r.bulkLen →
      exec (.objRead dt m) s = .next (
        ((if bitOf (r.u 2 1) 0 then t.modObj c o fun y => { y with new := false, overwrite := false } else t).storeWrite
        (t.bulkBase r.part + r.bulkOff) ((t.chan c).obj o).payload).answered cmdObjRead.code m stOk
          (le 4 ((t.chan c).obj o).payload.length ++ t.objRecord c o))) ∧
  (∀ (dt : Nat) (m : Mbox) (s : State), Serves cmdFiltStatus dt m s →
      let t := s.taken cmdFiltStatus.code dt m
      let r := reqOf cmdFiltStatus.code m
      ∀ c, c = r.u 0 1 → c ≤ 31 → t.mayOperate r.part .chan c = true → t.retired c = false →
      exec (.filtStatus dt m) s = .next ((t.modRing c fun y => { y with dropTold := false, high := y.used }).answered cmdFiltStatus.code m stOk (t.filtStatus c)))

/-- A RULE_STAGE whose table passes the checks of R223 stages its rule list for the channel. RULE_READ writes the
active or the staged list of the channel to the bulk range, as a table that R221 lays out, and answers its length. -/
def Obligations.RuleCommandsComplete : Prop :=
  (∀ (dt : Nat) (m : Mbox) (s : State), Serves cmdRuleStage dt m s →
      let t := s.taken cmdRuleStage.code dt m
      let r := reqOf cmdRuleStage.code m
      ∀ l, t.rulesOf r = .ok l →
      exec (.ruleStage dt m) s = .next ((t.restage r.part fun g => { g with rules := putAssoc g.rules (r.u 0 1) l }).answered cmdRuleStage.code m stStaged [])) ∧
  (∀ (dt : Nat) (m : Mbox) (s : State), Serves cmdRuleRead dt m s →
      let t := s.taken cmdRuleRead.code dt m
      let r := reqOf cmdRuleRead.code m
      ∀ c, c = r.u 0 1 → c ≤ 31 → t.mayOperate r.part .chan c = true → t.retired c = false →
      r.u 1 1 = 0 →
      ∀ bs, bs = (t.chan c).rules.bytes c → bs.length ≤ r.bulkLen →
      r.bulkLen ≠ 0 →
      exec (.ruleRead dt m) s = .next ((t.storeWrite (t.bulkBase r.part + r.bulkOff) bs).answered cmdRuleRead.code m stOk (le 4 bs.length))) ∧
  (∀ (dt : Nat) (m : Mbox) (s : State), Serves cmdRuleRead dt m s →
      let t := s.taken cmdRuleRead.code dt m
      let r := reqOf cmdRuleRead.code m
      ∀ c, c = r.u 0 1 → c ≤ 31 → t.mayOperate r.part .chan c = true → t.retired c = false →
      r.u 1 1 = 1 →
      ∀ l bs, t.stagedRules c = some l → bs = l.bytes c → bs.length ≤ r.bulkLen →
      r.bulkLen ≠ 0 →
      exec (.ruleRead dt m) s = .next ((t.storeWrite (t.bulkBase r.part + r.bulkOff) bs).answered cmdRuleRead.code m stOk (le 4 bs.length)))

/-- A Wafer that passes the checks of R251 is staged, section by section, and so is the one section of a BASIC
request. SCHED_CLEAR stages the removal of a channel's schedule. SCHED_READ writes the sender's active or staged
schedules as one Wafer to the bulk range. SCHED_STATUS answers the channel's record; with CLEAR, by the owner or P0,
it sets the counters to 0. -/
def Obligations.ScheduleCommandsComplete : Prop :=
  (∀ (dt : Nat) (m : Mbox) (s : State), Serves cmdSchedStage dt m s →
      let t := s.taken cmdSchedStage.code dt m
      let r := reqOf cmdSchedStage.code m
      r.form = 1 →
      t.waferRefused r = none →
      exec (.schedStage dt m) s = .next ((t.restage r.part fun g => g.withSections (t.waferOf r)).answered cmdSchedStage.code m stStaged [])) ∧
  (∀ (dt : Nat) (m : Mbox) (s : State), Serves cmdSchedStage dt m s →
      let t := s.taken cmdSchedStage.code dt m
      let r := reqOf cmdSchedStage.code m
      r.form = 0 →
      t.basicRefused r = none →
      exec (.schedStage dt m) s = .next ((t.restage r.part fun g => g.withSections [t.basicSection r]).answered cmdSchedStage.code m stStaged [])) ∧
  (∀ (dt : Nat) (m : Mbox) (s : State), Serves cmdSchedClear dt m s →
      let t := s.taken cmdSchedClear.code dt m
      let r := reqOf cmdSchedClear.code m
      ∀ c, c = r.u 0 1 → c ≤ 31 → t.mayOperate r.part .chan c = true → t.retired c = false →
      t.stageBusy r.part (0x10000 + c) = false →
      exec (.schedClear dt m) s = .next ((t.restage r.part fun g => { g with scheds := putAssoc g.scheds c none }).answered cmdSchedClear.code m stStaged [])) ∧
  (∀ (dt : Nat) (m : Mbox) (s : State), Serves cmdSchedRead dt m s →
      let t := s.taken cmdSchedRead.code dt m
      let r := reqOf cmdSchedRead.code m
      r.u 0 1 ≤ 1 →
      ∀ bs, bs = waferBytes ((t.myChans r.part).filterMap fun c =>
        (if r.u 0 1 = 0 then (t.chan c).sched else (t.stagedSched c).getD none).map fun d => (c, d)) →
      bs.length ≤ r.bulkLen →
      r.bulkLen ≠ 0 →
      exec (.schedRead dt m) s = .next ((t.storeWrite (t.bulkBase r.part + r.bulkOff) bs).answered cmdSchedRead.code m stOk (le 4 bs.length))) ∧
  (∀ (dt : Nat) (m : Mbox) (s : State), Serves cmdSchedStatus dt m s →
      let t := s.taken cmdSchedStatus.code dt m
      let r := reqOf cmdSchedStatus.code m
      ∀ c, c = r.u 0 1 → c ≤ 31 → t.retired c = false →
      (bitOf (r.u 1 1) 0 = true → t.mayOperate r.part .chan c = true) →
      exec (.schedStatus dt m) s = .next (
        (if bitOf (r.u 1 1) 0 then t.modRt c fun y =>
          { y with fired := 0, missed := 0, late := 0, blocked := 0, empty := 0, refSent := 0, refMissed := 0, revFired := 0,
                   errMax := 0, refFailed := 0 } else t).answered cmdSchedStatus.code m stOk (t.schedStatus c)))

/-- A signal map that passes the checks of R285 and R286 is staged for the channels it names. SIG_CLEAR stages an
empty set. SIG_READ writes the sender's active sets, or the staged ones of which there is one, as a map to the bulk
range. SIG_STATUS answers the channel's counters; with CLEAR, by the owner or P0, it sets them to 0. -/
def Obligations.SignalCommandsComplete : Prop :=
  (∀ (dt : Nat) (m : Mbox) (s : State), Serves cmdSigStage dt m s →
      let t := s.taken cmdSigStage.code dt m
      let r := reqOf cmdSigStage.code m
      t.sigMapBad r = none →
      exec (.sigStage dt m) s = .next (
      (let b := t.bulkIn r
       let new := (chansOf (rd b 4 4)).map fun c => (c, mapSet b (rd b 8 4) (rd b 12 4) c)
       (t.restage r.part fun g => { g with sigs := new.foldl (fun m x => putAssoc m x.1 x.2) g.sigs }).answered cmdSigStage.code m stStaged []))) ∧
  (∀ (dt : Nat) (m : Mbox) (s : State), Serves cmdSigClear dt m s →
      let t := s.taken cmdSigClear.code dt m
      let r := reqOf cmdSigClear.code m
      ∀ c, c = r.u 0 1 → c ≤ 31 → t.mayOperate r.part .chan c = true → t.retired c = false →
      t.stageBusy r.part (0x10000 + c) = false →
      exec (.sigClear dt m) s = .next ((t.restage r.part fun g => { g with sigs := putAssoc g.sigs c SigSet.empty }).answered cmdSigClear.code m stStaged [])) ∧
  (∀ (dt : Nat) (m : Mbox) (s : State), Serves cmdSigRead dt m s →
      let t := s.taken cmdSigRead.code dt m
      let r := reqOf cmdSigRead.code m
      r.u 0 1 = 0 →
      ∀ bs, bs = mapBytes ((t.myChans r.part).map fun c => (c, (t.chan c).sigs)) → bs.length ≤ r.bulkLen →
      r.bulkLen ≠ 0 →
      exec (.sigRead dt m) s = .next ((t.storeWrite (t.bulkBase r.part + r.bulkOff) bs).answered cmdSigRead.code m stOk (le 4 bs.length))) ∧
  (∀ (dt : Nat) (m : Mbox) (s : State), Serves cmdSigRead dt m s →
      let t := s.taken cmdSigRead.code dt m
      let r := reqOf cmdSigRead.code m
      r.u 0 1 = 1 →
      ∀ sets, sets = (t.myChans r.part).filterMap (fun c => (t.stagedSigs c).map fun x => (c, x)) → sets.isEmpty = false →
      (mapBytes sets).length ≤ r.bulkLen →
      r.bulkLen ≠ 0 →
      exec (.sigRead dt m) s = .next ((t.storeWrite (t.bulkBase r.part + r.bulkOff) (mapBytes sets)).answered cmdSigRead.code m stOk (le 4 (mapBytes sets).length))) ∧
  (∀ (dt : Nat) (m : Mbox) (s : State), Serves cmdSigStatus dt m s →
      let t := s.taken cmdSigStatus.code dt m
      let r := reqOf cmdSigStatus.code m
      ∀ c, c = r.u 0 1 → c ≤ 31 → t.retired c = false →
      (bitOf (r.u 1 1) 0 = true → t.mayOperate r.part .chan c = true) →
      exec (.sigStatus dt m) s = .next (
        (if bitOf (r.u 1 1) 0 then t.modSigStat c fun _ =>
          { rxUpdates := 0, txPacks := 0, short := 0, sat := 0, staleEntries := 0 } else t).answered cmdSigStatus.code m stOk (t.sigStatus c)))

/-- AX_DEFINE with values in range stages the definition. AX_START of a defined context that is neither in TRACK,
TARGET nor STOPPING, nor INACTIVE by a changed `sp_sig` or `io_frac`, starts at the position that init names (the feedback signal, the request, or the last position)
and enters TRACK, or TARGET towards the position of the request. AX_STOP stops one context, or all the sender owns.
AX_STATUS answers the record; with ACK, by the owner or P0, it clears flags and the largest deviation. -/
def Obligations.AxisCommandsComplete : Prop :=
  (∀ (dt : Nat) (m : Mbox) (s : State), Serves cmdAxDefine dt m s →
      let t := s.taken cmdAxDefine.code dt m
      let r := reqOf cmdAxDefine.code m
      ∀ a, a = r.u 0 1 → a ≤ 127 → (r.u 1 1 ≤ 31 ∨ r.u 1 1 = 0xFF) → r.u 2 1 ≤ 127 → (r.u 3 1 ≤ 127 ∨ r.u 3 1 = 0xFF) →
      r.u 4 1 ≤ 32 →
      r.u 8 4 ≤ 0x3FFFF →
      (r.u 12 4 ≤ 0x3FFFF ∨ r.u 12 4 = 0xFFFFFFFF) →
      (r.form = 1 → r.u 16 4 ≤ 0x3FFFF ∨ r.u 16 4 = 0xFFFFFFFF) →
      t.mayOperate r.part .axis a = true →
      (r.form = 1 → t.expertOn r.part .axis a = true) →
      t.stageBusy r.part (resKey .axis a) = false →
      exec (.axDefine dt m) s = .next (
        (t.restage r.part fun g => [(K.axChan, r.u 1 1), (K.axObj, r.u 2 1), (K.axDisableObj, r.u 3 1),
        (K.axIoFrac, r.u 4 1), (K.axSpSig, r.u 8 4), (K.axFbSig, r.u 12 4),
        (K.axVffSig, if r.form = 1 then r.u 16 4 else 0xFFFFFFFF)].foldl (fun h e => h.setPar e.1 a e.2) g).answered cmdAxDefine.code m stStaged [])) ∧
  (∀ (dt : Nat) (m : Mbox) (s : State), Serves cmdAxStart dt m s →
      let t := s.taken cmdAxStart.code dt m
      let r := reqOf cmdAxStart.code m
      ∀ a, a = r.u 0 1 → a ≤ 127 → (r.u 1 1 = 1 ∨ r.u 1 1 = 2) → r.u 2 1 ≤ 2 → t.mayOperate r.part .axis a = true →
      t.axDefined a = true →
      (t.axis a).st ≠ .track →
      (t.axis a).st ≠ .target →
      (t.axis a).st ≠ .stopping →
      ((t.axis a).st = .inactive → (t.axis a).redefined = false) →
      (r.u 2 1 = 0 → t.par K.axFbSig a ≠ 0xFFFFFFFF ∧ (t.sigRec (t.par K.axFbSig a)).valid = true) →
      (r.u 2 1 = 2 → (t.axis a).st ≠ .inactive ∨ (t.axis a).ran = true) →
      ∀ p : Int, p = (if r.u 2 1 = 0 then (sat64 ((t.sigRec (t.par K.axFbSig a)).value.toInt * 2 ^ (32 - t.par K.axIoFrac a))).1
        else if r.u 2 1 = 1 then sgn 64 (r.u 8 8) else (t.axis a).p) →
      exec (.axStart dt m) s = .next (
        (let u := ((t.axSat a (flag 3 (r.u 2 1 = 0 &&
            (sat64 ((t.sigRec (t.par K.axFbSig a)).value.toInt * 2 ^ (32 - t.par K.axIoFrac a))).2))).modAxis a fun y =>
          { y with p := p, v := 0, a := 0, reaction := 0, misses := 0, freezes := 0, devs := 0, fbSeen := false,
                   supervised := false, due := [], tPrev := t.clk.time, disableDue := false, release := false,
                   plan := [], clock := 0 }).axLimits a
         if r.u 1 1 = 1 then (u.modAxis a (·.setCond 0 false)).axState a .track 1
         else u.axTarget a (sgn 64 (r.u 16 8)) 1).answered cmdAxStart.code m stOk [])) ∧
  (∀ (dt : Nat) (m : Mbox) (s : State), Serves cmdAxStop dt m s →
      let t := s.taken cmdAxStop.code dt m
      let r := reqOf cmdAxStop.code m
      r.u 0 1 = 0xFF →
      exec (.axStop dt m) s = .next (
        ((List.range 128).foldl (fun u k =>
        if t.par K.axOwner k = r.part then u.axStopCmd k (bitOf (r.u 1 1) 0) else u) t).answered cmdAxStop.code m stOk [])) ∧
  (∀ (dt : Nat) (m : Mbox) (s : State), Serves cmdAxStop dt m s →
      let t := s.taken cmdAxStop.code dt m
      let r := reqOf cmdAxStop.code m
      r.u 0 1 ≤ 127 →
      t.mayOperate r.part .axis (r.u 0 1) = true →
      exec (.axStop dt m) s = .next ((t.axStopCmd (r.u 0 1) (bitOf (r.u 1 1) 0)).answered cmdAxStop.code m stOk [])) ∧
  (∀ (dt : Nat) (m : Mbox) (s : State), Serves cmdAxStatus dt m s →
      let t := s.taken cmdAxStatus.code dt m
      let r := reqOf cmdAxStatus.code m
      r.u 0 1 ≤ 127 →
      (bitOf (r.u 1 1) 0 = true → t.mayOperate r.part .axis (r.u 0 1) = true) →
      exec (.axStatus dt m) s = .next (
        (if bitOf (r.u 1 1) 0 then t.modAxis (r.u 0 1) fun y => { y with flags := 0, devMax := 0 } else t).answered cmdAxStatus.code m stOk
        (t.axStatus (r.u 0 1))))

/-- Q_OPEN of a CLOSED queue that its owner's quota and the queue memory hold allocates its ring at a base the
allocator gives, sets wr and rd to 0, writes an IDLE header there and opens it. Q_CLOSE closes an OPEN queue that no
configuration names. Q_FLUSH flushes an OPEN queue. Q_STATUS answers the queue's record, STORE_STATUS the store's,
whose layout the spec does not give (free bytes: log entry 9). -/
def Obligations.QueueCommandsComplete : Prop :=
  (∀ (dt : Nat) (m : Mbox) (s : State), Serves cmdQOpen dt m s →
      let t := s.taken cmdQOpen.code dt m
      let r := reqOf cmdQOpen.code m
      ∀ q, q = r.u 0 1 → q ≤ 63 → t.mayOperate r.part .queue q = true →
      (t.queue q).isOpen = false →
      t.queueUse (t.par K.qOwner q) + t.par K.qSize q ≤ t.par K.partQQuota (t.par K.qOwner q) →
      ∀ b, t.allocBlock (t.par K.qSize q) = some b →
      exec (.qOpen dt m) s = .next (
        ((t.modQueue q fun y =>
          { y with isOpen := true, base := b, bytes := t.par K.qSize q, hostWord := 0, wr := 0, rd := 0, items := 0, lost := 0,
                   fired := false, timer := none, high := 0, dropTold := false, ends := [] }).storeWrite b (zs 32)
          |>.refreshPage q 0 |>.refreshPage q 0x40 |>.refreshPage q 0x80).answered cmdQOpen.code m stOk [])) ∧
  (∀ (dt : Nat) (m : Mbox) (s : State), Serves cmdQClose dt m s →
      let t := s.taken cmdQClose.code dt m
      let r := reqOf cmdQClose.code m
      ∀ q, q = r.u 0 1 → q ≤ 63 → t.mayOperate r.part .queue q = true →
      (t.queue q).isOpen = true →
      t.queueNamed q = false →
      exec (.qClose dt m) s = .next (((t.modQueue q fun y => { y with isOpen := false, ends := [], timer := none }).refreshPage q 0x84).answered cmdQClose.code m stOk [])) ∧
  (∀ (dt : Nat) (m : Mbox) (s : State), Serves cmdQFlush dt m s →
      let t := s.taken cmdQFlush.code dt m
      let r := reqOf cmdQFlush.code m
      ∀ q, q = r.u 0 1 → q ≤ 63 → t.mayOperate r.part .queue q = true →
      (t.queue q).isOpen = true →
      exec (.qFlush dt m) s = .next ((t.flush q 0 false).answered cmdQFlush.code m stOk [])) ∧
  (∀ (dt : Nat) (m : Mbox) (s : State), Serves cmdQStatus dt m s →
      let t := s.taken cmdQStatus.code dt m
      let r := reqOf cmdQStatus.code m
      ∀ q, q = r.u 0 1 → q ≤ 63 → t.mayOperate r.part .queue q = true →
      exec (.qStatus dt m) s = .next (t.answered cmdQStatus.code m stOk (t.queueStatus q))) ∧
  (∀ (dt : Nat) (m : Mbox) (s : State), Serves cmdStoreStatus dt m s →
      let t := s.taken cmdStoreStatus.code dt m
      exec (.storeStatus dt m) s = .next (t.answered cmdStoreStatus.code m stOk ((Config.storeStatusBytes t.storeStatusValues).take 496)))

/-- LC_READ answers the four coordinates. LC_START of a source that has not been started, with the widths and the
hysteresis that its source demands, enters ACQUIRE. LC_STOP of a coordinate that nothing uses freezes it in NO_SOURCE
and ends its condition. LC_SET of one that nothing uses sets it at once, or keeps the value for the next index pulse
or edge of the latch input named. LAT_STATUS and SYNC_STATUS answer the counters. Commands on a coordinate are for its
owner and P0. -/
def Obligations.CoordinateCommandsComplete : Prop :=
  (∀ (dt : Nat) (m : Mbox) (s : State), Serves cmdLcRead dt m s →
      let t := s.taken cmdLcRead.code dt m
      exec (.lcRead dt m) s = .next (t.answered cmdLcRead.code m stOk t.lcReport)) ∧
  (∀ (dt : Nat) (m : Mbox) (s : State), Serves cmdLcStart dt m s →
      let t := s.taken cmdLcStart.code dt m
      let r := reqOf cmdLcStart.code m
      ∀ n, n = r.u 0 1 → n ≤ 3 → t.mayOperate r.part .lc n = true →
      (t.lc n).started = false →
      t.par K.lcSource n ≠ 0 →
      (t.par K.lcSource n = 2 → t.par K.lcSsiTurnBits n ≤ t.par K.lcSsiBits n ∧
        t.par K.lcSsiBits n ≤ t.par K.lcSsiTurnBits n + 32) →
      (t.par K.lcSource n = 1 → 2 * t.par K.lcCntDen n * 0x100000000 ≤ t.par K.lcDirHyst n * t.par K.lcCntNum n) →
      exec (.lcStart dt m) s = .next ((t.lcAcquire n).answered cmdLcStart.code m stOk [])) ∧
  (∀ (dt : Nat) (m : Mbox) (s : State), Serves cmdLcStop dt m s →
      let t := s.taken cmdLcStop.code dt m
      let r := reqOf cmdLcStop.code m
      ∀ n, n = r.u 0 1 → n ≤ 3 → t.mayOperate r.part .lc n = true →
      t.lcUsed n = false →
      exec (.lcStop dt m) s = .next (((t.lcFreeze n .noSource).condOff (0x50 + n) 0 0).answered cmdLcStop.code m stOk [])) ∧
  (∀ (dt : Nat) (m : Mbox) (s : State), Serves cmdLcSet dt m s →
      let t := s.taken cmdLcSet.code dt m
      let r := reqOf cmdLcSet.code m
      ∀ n, n = r.u 0 1 → n ≤ 3 → t.mayOperate r.part .lc n = true →
      r.u 1 1 = 0 →
      t.lcUsed n = false →
      exec (.lcSet dt m) s = .next (((t.lcPut n (BitVec.ofNat 64 (r.u 8 8))).modLc n fun l => { l with set := none }).answered cmdLcSet.code m stOk [])) ∧
  (∀ (dt : Nat) (m : Mbox) (s : State), Serves cmdLcSet dt m s →
      let t := s.taken cmdLcSet.code dt m
      let r := reqOf cmdLcSet.code m
      ∀ n, n = r.u 0 1 → n ≤ 3 → t.mayOperate r.part .lc n = true →
      (r.u 1 1 = 1 ∨ (r.u 1 1 = 2 ∧ r.u 2 1 ≤ 15)) →
      t.lcUsed n = false →
      exec (.lcSet dt m) s = .next ((t.modLc n fun l => { l with set := some (r.u 1 1, r.u 2 1, BitVec.ofNat 64 (r.u 8 8)) }).answered cmdLcSet.code m stOk [])) ∧
  (∀ (dt : Nat) (m : Mbox) (s : State), Serves cmdLatStatus dt m s →
      let t := s.taken cmdLatStatus.code dt m
      let r := reqOf cmdLatStatus.code m
      ∀ i, i = r.u 0 1 → i ≤ 15 → t.mayOperate r.part .latch i = true →
      exec (.latStatus dt m) s = .next (
        t.answered cmdLatStatus.code m stOk (le 4 (t.lat i).captured.toNat ++ le 4 (t.lat i).outside.toNat ++
        le 4 (t.lat i).lost.toNat ++ le 2 (t.lat i).seq.toNat ++ zs 2))) ∧
  (∀ (dt : Nat) (m : Mbox) (s : State), Serves cmdSyncStatus dt m s →
      let t := s.taken cmdSyncStatus.code dt m
      let r := reqOf cmdSyncStatus.code m
      ∀ i, i = r.u 0 1 → i ≤ 3 → t.mayOperate r.part .sync i = true →
      exec (.syncStatus dt m) s = .next (
        t.answered cmdSyncStatus.code m stOk (le 4 (t.sync i).pulses.toNat ++ le 4 (t.sync i).merged.toNat ++
        le 4 (t.sync i).skipped.toNat ++ zs 4)))

/-- An offset from the owner of TIME that is within time.step_threshold, or any while steps are disabled, is slewed:
the rest to slew is the offset, and with steps disabled an offset above 1 s raises 0x58. A larger one where steps are
enabled waits for the next TIME step. A new command takes the place of what the last one left (log entry 84). The
response holds free bytes, for the spec gives no layout (log entry 19). -/
def Obligations.TimeDisciplineSlewsOrSteps : Prop :=
  (∀ (dt : Nat) (m : Mbox) (s : State), Serves cmdTimeDiscipline dt m s →
      let t := s.taken cmdTimeDiscipline.code dt m
      let r := reqOf cmdTimeDiscipline.code m
      r.u 0 1 ≤ 1 →
      t.par K.timeOwner 0 = r.part →
      ∀ o : Int, o = (if r.u 0 1 = 0 then sgn 64 (r.u 24 8)
        else (BitVec.ofNat 64 (r.u 16 8) - BitVec.ofNat 64 (r.u 8 8) : W64).toInt) →
      (t.par K.timeStepEnable 0 = 0 ∨ o.natAbs ≤ t.par K.timeStepThreshold 0) →
      exec (.timeDiscipline dt m) s = .next (
        (let u := { t with clk := { t.clk with slewing := decide (o ≠ 0), slewLeft := o, slewAcc := 0, step := none } }
         let u := if t.par K.timeStepEnable 0 = 0 ∧ 1000000000 < o.natAbs then u.raiseU 0x58 0 1 0 false (t.par K.timeOwner 0) else u
         u.answered cmdTimeDiscipline.code m stOk ((Config.disciplineBytes 0 (divRound (1000 * o.natAbs) (t.par K.timeSlewMax 0)).toNat).take 496)))) ∧
  (∀ (dt : Nat) (m : Mbox) (s : State), Serves cmdTimeDiscipline dt m s →
      let t := s.taken cmdTimeDiscipline.code dt m
      let r := reqOf cmdTimeDiscipline.code m
      r.u 0 1 ≤ 1 →
      t.par K.timeOwner 0 = r.part →
      ∀ o : Int, o = (if r.u 0 1 = 0 then sgn 64 (r.u 24 8)
        else (BitVec.ofNat 64 (r.u 16 8) - BitVec.ofNat 64 (r.u 8 8) : W64).toInt) →
      t.par K.timeStepEnable 0 ≠ 0 →
      t.par K.timeStepThreshold 0 < o.natAbs →
      exec (.timeDiscipline dt m) s = .next (
        (let u := { t with clk := { t.clk with slewing := false, slewLeft := 0, slewAcc := 0, step := some o } }
         u.answered cmdTimeDiscipline.code m stOk ((Config.disciplineBytes 1 0).take 496))))

/-- FAULT_SUMMARY answers the four maps over the 512 sources, the pins, whether an injection runs, and the newest and
the lost records of the log. FAULT_READ of a source that is defined, by a partition that may read it, answers its
record; with ACK the record's latched part is cleared. LOG_READ writes the records from the sequence number given that
the sender may read to the bulk range. -/
def Obligations.FaultReportsComplete : Prop :=
  (∀ (dt : Nat) (m : Mbox) (s : State), Serves cmdFaultSummary dt m s →
      let t := s.taken cmdFaultSummary.code dt m
      exec (.faultSummary dt m) s = .next (
        t.answered cmdFaultSummary.code m stOk (t.srcMap (fun x => x.st = .fault) ++ t.srcMap (fun x => x.st = .grace) ++ t.srcMap (fun x => x.current) ++
        t.srcMap (fun x => x.latched) ++ le 1 t.pinsByte ++ le 1 (if t.fc.inject.isSome then 1 else 0) ++ zs 2 ++
        le 4 t.logNewest ++ le 4 t.keep.logLost ++ zs 4))) ∧
  (∀ (dt : Nat) (m : Mbox) (s : State), Serves cmdFaultRead dt m s →
      let t := s.taken cmdFaultRead.code dt m
      let r := reqOf cmdFaultRead.code m
      ∀ k, k = r.u 0 2 → sourceDefined k = true → t.mayReadSrc r.part k = true →
      exec (.faultRead dt m) s = .next ((if bitOf (r.u 2 1) 0 then t.modRec k t.ackRec else t).answered cmdFaultRead.code m stOk (t.faultRecord k))) ∧
  (∀ (dt : Nat) (m : Mbox) (s : State), Serves cmdLogRead dt m s →
      let t := s.taken cmdLogRead.code dt m
      let r := reqOf cmdLogRead.code m
      32 * r.u 4 2 ≤ r.bulkLen →
      ∀ xs, xs = (t.keep.log.filter fun x => 0 ≤ (x.seq - BitVec.ofNat 32 (r.u 0 4)).toInt && t.mayReadLog r.part x).take (r.u 4 2) →
      exec (.logRead dt m) s = .next (
        (t.storeWrite (t.bulkBase r.part + r.bulkOff) (xs.map LogRec.bytes).flatten).answered cmdLogRead.code m stOk
        (le 4 xs.length ++ le 4 ((t.keep.log.head?.map fun x => x.seq.toNat).getD 0) ++ le 4 t.logNewest ++
          le 4 t.keep.logLost)))

/-- FAULT_CLEAR by P0 ends the fault of a source that is in FAULT and no longer current, but for channels and gateway
units. FAULT_REQUALIFY of a RETIRED channel that would open, or by P0 of a gateway unit that is out of use, starts a
qualification. FAULT_INJECT by P0 with no other injection in progress starts one. FAULT_PIN_RELEASE by P0 ends the
holding of the pin where nothing forces it, and logs it. -/
def Obligations.FaultCommandsComplete : Prop :=
  (∀ (dt : Nat) (m : Mbox) (s : State), Serves cmdFaultClear dt m s →
      let t := s.taken cmdFaultClear.code dt m
      let r := reqOf cmdFaultClear.code m
      ∀ k, k = r.u 0 2 → sourceDefined k = true → r.part = 0 → 0x20 ≤ k → k ≠ 0x72 → k ≠ 0x73 →
      (t.frec k).st = .fault →
      (t.frec k).current = false →
      exec (.faultClear dt m) s = .next ((t.leaveFault k 1).answered cmdFaultClear.code m stOk [])) ∧
  (∀ (dt : Nat) (m : Mbox) (s : State), Serves cmdFaultRequalify dt m s →
      let t := s.taken cmdFaultRequalify.code dt m
      let r := reqOf cmdFaultRequalify.code m
      ∀ c, c = r.u 0 2 → c < 0x20 → r.u 2 1 ≤ 4 → t.mayOperate r.part .chan c = true →
      (t.longs.any fun l => l.code = 0x803 && l.res = c) = false →
      t.chanInUse c = false →
      (t.chan c).st = .retired →
      t.admitOpen c = 0 →
      exec (.faultRequalify dt m) s = .next ((t.wantRelease c (modeOf (r.u 2 1)) 4).running t.now (r.long c (r.u 2 1) false) m)) ∧
  (∀ (dt : Nat) (m : Mbox) (s : State), Serves cmdFaultRequalify dt m s →
      let t := s.taken cmdFaultRequalify.code dt m
      let r := reqOf cmdFaultRequalify.code m
      ∀ u, u = r.u 0 2 → (u = 0x72 ∨ u = 0x73) → r.u 2 1 = 0 → r.part = 0 →
        (t.longs.any fun l => l.code = 0x803 && l.res = u) = false →
      t.unitOk (u % 2) = false →
      exec (.faultRequalify dt m) s = .next (t.running t.now (r.long u 0 false) m)) ∧
  (∀ (dt : Nat) (m : Mbox) (s : State), Serves cmdFaultInject dt m s →
      let t := s.taken cmdFaultInject.code dt m
      let r := reqOf cmdFaultInject.code m
      ∀ k, k = r.u 0 2 → sourceDefined k = true → k ≤ 0x15F → (checkCase k (r.u 2 1) = true ∨ 5 ≤ r.u 2 1) →
      (checkCase k (r.u 2 1) = true → (k = 0x27 → 1 ≤ r.u 4 1 ∧ r.u 4 1 ≤ 7) ∧ (k = 0x20 ∨ k = 0x21 → r.u 4 1 ≤ 15)) →
      r.part = 0 →
      t.fc.inject = none →
      exec (.faultInject dt m) s = .next ({ t with fc := { t.fc with inject := some (k, r.u 2 1, r.u 3 1, r.u 4 1, t.now) } }.running t.now (r.long k 0 false) m)) ∧
  (∀ (dt : Nat) (m : Mbox) (s : State), Serves cmdFaultPinRelease dt m s →
      let t := s.taken cmdFaultPinRelease.code dt m
      let r := reqOf cmdFaultPinRelease.code m
      r.part = 0 →
      t.pinForce = false →
      exec (.faultPinRelease dt m) s = .next ((({ t with fc := { t.fc with pinHeld := false } }.pinSettle t).log 0x07 0 0 0 0 0).answered cmdFaultPinRelease.code m stOk []))

/-- BOOT_STATUS answers the state of the start. BOOT_RECORDS writes the newest records to the bulk range. FW_LOAD by
P0 into the slot that is not running starts to write the image where it passes the checks of R417, and ends INTEGRITY
with the place of the first check that fails where it does not. FW_SELECT by P0 prefers a slot whose firmware was
found good. BOOT_CLEAR_FAILURES by P0 sets the failure count to 0. DEV_RESTART by P0 restarts the device 1 ms later.
FW_SELECT and BOOT_CLEAR_FAILURES log records of their own. -/
def Obligations.BootCommandsComplete : Prop :=
  (∀ (dt : Nat) (m : Mbox) (s : State), Serves cmdBootStatus dt m s →
      let t := s.taken cmdBootStatus.code dt m
      exec (.bootStatus dt m) s = .next (
        (let d := t.dev
         let k := t.keep
         let ver := fun (res n : Nat) => if res = 0 then le 1 (k.slot n).major ++ le 1 (k.slot n).minor else zs 2
         let build := fun (res n : Nat) => if res = 0 then (k.slot n).build else 0
         t.answered cmdBootStatus.code m stOk (le 1 d.mode.code ++ le 1 d.straps.toNat ++ le 1 k.fails ++ le 1 d.ruskReason ++ t.failReasons ++
           le 1 k.pref ++ le 1 d.runSlot ++ le 1 (flag 0 d.fallback) ++ le 1 d.resultA ++ le 1 d.resultB ++
           ver d.resultA 1 ++ ver d.resultB 2 ++ le 4 (build d.resultA 1) ++ le 4 (build d.resultB 2) ++ le 2 k.boot ++
           zs 6 ++ le 8 d.tEnd.toNat ++ zs 8)))) ∧
  (∀ (dt : Nat) (m : Mbox) (s : State), Serves cmdBootRecords dt m s →
      let t := s.taken cmdBootRecords.code dt m
      let r := reqOf cmdBootRecords.code m
      ∀ n, n = r.u 0 1 → 1 ≤ n → n ≤ 64 → 32 * n ≤ r.bulkLen →
      ∀ xs, xs = t.keep.recs.drop (t.keep.recs.length - n) →
      exec (.bootRecords dt m) s = .next ((t.storeWrite (t.bulkBase r.part + r.bulkOff) (xs.map BootRec.bytes).flatten).answered cmdBootRecords.code m stOk (le 1 xs.length ++ zs 7))) ∧
  (∀ (dt : Nat) (m : Mbox) (s : State), Serves cmdFwLoad dt m s →
      let t := s.taken cmdFwLoad.code dt m
      let r := reqOf cmdFwLoad.code m
      ∀ n, n = r.u 0 1 → (n = 1 ∨ n = 2) → r.part = 0 → t.loading = false → t.dev.runSlot ≠ n → 512 ≤ r.bulkLen →
        t.poisoned (t.bulkBase r.part + r.bulkOff) r.bulkLen = false →
      512 + rd (t.bulkIn r) 12 4 ≤ r.bulkLen →
      ∀ f : FwSlot, f = { code := 0, mboxVer := rd (t.bulkIn r) 11 1, major := rd (t.bulkIn r) 9 1, minor := rd (t.bulkIn r) 10 1, build := rd (t.bulkIn r) 16 4 } →
      exec (.fwLoad dt m) s = .next (
        match imageCheck (t.bulkIn r) with
        | none => { t with keep := { t.keep with writing := some (n, f) } }.running (s.inHand cmdFwLoad.code dt m).now (r.long n 0 false) m
        | some (_, off) => ((s.inHand cmdFwLoad.code dt m).respond r.part r.slot r.code r.tag stIntegrity off []).drain r.part 16)) ∧
  (∀ (dt : Nat) (m : Mbox) (s : State), Serves cmdFwSelect dt m s →
      let t := s.taken cmdFwSelect.code dt m
      let r := reqOf cmdFwSelect.code m
      ∀ n, n = r.u 0 1 → (n = 1 ∨ n = 2) → r.part = 0 → (if n = 1 then t.dev.resultA else t.dev.resultB) = 0 →
      (t.keep.writing.any fun w => w.1 = n) = false →
      exec (.fwSelect dt m) s = .next (({ t with keep := { t.keep with pref := n } }.log 0x23 0 n 0 0 0).answered cmdFwSelect.code m stOk [])) ∧
  (∀ (dt : Nat) (m : Mbox) (s : State), Serves cmdBootClearFailures dt m s →
      let t := s.taken cmdBootClearFailures.code dt m
      let r := reqOf cmdBootClearFailures.code m
      r.part = 0 →
      exec (.bootClearFailures dt m) s = .next (({ t with keep := { t.keep with fails := 0 } }.log 0x24 0 0 0 0 t.keep.fails).answered cmdBootClearFailures.code m stOk [])) ∧
  (∀ (dt : Nat) (m : Mbox) (s : State), Serves cmdDevRestart dt m s →
      let t := s.taken cmdDevRestart.code dt m
      let r := reqOf cmdDevRestart.code m
      ∀ n, n = r.u 0 1 → n ≤ 2 → r.part = 0 → t.loading = false →
      exec (.devRestart dt m) s = .next (
        { t with
        keep := { t.keep with pref := if bitOf (r.u 1 1) 0 && n ≠ 0 then n else t.keep.pref }
        dev := { t.dev with restartSlot := n, restartAt := some (t.now + 1000000) } }.answered cmdDevRestart.code m stOk []))

/-- BUDGET_STATUS answers the start budget; with CLEAR, by P0, it sets the counters to 0. AGE_REPORT writes the report
of 1,712 bytes, AGE_HISTORY the records of the ring named, to the bulk range. AGE_CLEAR_HIST of a channel that is not
CLOSED empties its histograms. -/
def Obligations.AgeAndBudgetCommandsComplete : Prop :=
  (∀ (dt : Nat) (m : Mbox) (s : State), Serves cmdBudgetStatus dt m s →
      let t := s.taken cmdBudgetStatus.code dt m
      let r := reqOf cmdBudgetStatus.code m
      (bitOf (r.u 0 1) 0 = true → r.part = 0) →
      exec (.budgetStatus dt m) s = .next (
        (if bitOf (r.u 0 1) 0 then
          { t with budget := { t.budget with granted := 0, deferred := 0, withdrawn := 0, waitMax := 0 } } else t).answered cmdBudgetStatus.code m stOk
        (let b := t.budget
         let stb := (b.waiting.filter (·.obj.isNone)).length
         le 2 b.tokens ++ le 2 b.waiting.length ++ le 4 b.granted.toNat ++ le 4 b.deferred.toNat ++
           le 4 b.withdrawn.toNat ++ le 4 b.waitMax ++ le 2 stb ++ le 2 (b.waiting.length - stb) ++ zs 8))) ∧
  (∀ (dt : Nat) (m : Mbox) (s : State), Serves cmdAgeReport dt m s →
      let t := s.taken cmdAgeReport.code dt m
      let r := reqOf cmdAgeReport.code m
      1712 ≤ r.bulkLen →
      exec (.ageReport dt m) s = .next ((t.storeWrite (t.bulkBase r.part + r.bulkOff) t.ageReport).answered cmdAgeReport.code m stOk (le 4 1712))) ∧
  (∀ (dt : Nat) (m : Mbox) (s : State), Serves cmdAgeHistory dt m s →
      let t := s.taken cmdAgeHistory.code dt m
      let r := reqOf cmdAgeHistory.code m
      r.u 0 1 ≤ 1 →
      32 * r.u 2 2 ≤ r.bulkLen →
      ∀ xs, xs = (if r.u 0 1 = 0 then t.keep.daily else t.keep.long) →
      ∀ ys, ys = (xs.filter fun x => 0 ≤ (x.seq - BitVec.ofNat 32 (r.u 4 4)).toInt).take (r.u 2 2) →
      exec (.ageHistory dt m) s = .next (
        (t.storeWrite (t.bulkBase r.part + r.bulkOff) (ys.map Hist.bytes).flatten).answered cmdAgeHistory.code m stOk
        (le 4 ys.length ++ le 4 ((xs.head?.map fun x => x.seq.toNat).getD 0) ++
          le 4 ((xs.getLast?.map fun x => x.seq.toNat).getD 0)))) ∧
  (∀ (dt : Nat) (m : Mbox) (s : State), Serves cmdAgeClearHist dt m s →
      let t := s.taken cmdAgeClearHist.code dt m
      let r := reqOf cmdAgeClearHist.code m
      ∀ c, c = r.u 0 1 → c ≤ 31 → t.mayOperate r.part .chan c = true →
      t.retired c = false →
      t.chanInUse c = false →
      (t.chan c).st ≠ .closed →
      exec (.ageClearHist dt m) s = .next ((t.modChan c fun ch => { ch with age := { ch.age with histA := [], histD := [] } }).answered cmdAgeClearHist.code m stOk []))

/-- A valid count of a started INC coordinate adds `cnt_den` / `cnt_num` turns to it, with the remainder of that
ratio kept exactly; an edge that comes with another in one sample, or less than 40 ns after the last, is a
quadrature error instead. A standstill time without an edge sets speed and acceleration to 0. An index pulse applies
a set that waits for it, or acts under z_mode, or is the pulse of a PULSE_SPEED coordinate. A pulse that is missing
for a revolution leads to HOLDOVER. An SSI word whose parity fails, that finds SSI_DAT low or that implies too high
a speed is counted, and the limit of such words in TRACK leads to HOLDOVER; every other word is taken: in TRACK and
ACQUIRE the coordinate follows it, from HOLDOVER it is blended to it. A telegram timeout in TRACK leads to HOLDOVER,
the end of HOLDOVER to LOST. The estimator records the coordinate; a change of direction of an estimated coordinate
sets the flag. What a standstill drops, and what a set does to a pulse, are the model's choices (log entries 86 and
90). -/
def Obligations.CoordinateRowsComplete : Prop :=
  (∀ (n : Fin 4) (e : EncEdge) (s : State), 0 < s.par K.lcCntNum n →
      let num : Int := s.par K.lcCntNum n
      let step : Int := s.par K.lcCntDen n * 2 ^ 32
      let up : Prop := e.up = true ↔ s.par K.lcDirInvert n ≠ 1
      ∃ k : Int, ((s.incCount n e).lc n).val = (s.lc n).val + BitVec.ofInt 64 k ∧
        (up → num * k + ((s.incCount n e).lc n).rem = (s.lc n).rem + step) ∧
        (¬up → num * k + ((s.incCount n e).lc n).rem = (s.lc n).rem - step) ∧
        0 ≤ ((s.incCount n e).lc n).rem ∧ ((s.incCount n e).lc n).rem < num) ∧
  (∀ (dt : Nat) (n : Fin 4) (e : EncEdge) (s : State),
      let t := s.elapse dt
      t.par K.lcSource n = 1 →
      (t.lc n).started = true →
      e.both = false →
      (0 < (t.lc n).inAt → (t.lc n).inAt + 39 ≤ t.now) →
      ∀ u, u = (t.modLc n fun l => { l with inAt := t.now + 1 }) →
      exec (.encCount dt n e) s = .next (((u.incCount n e).lcMoved n (t.lcVal n)).lcReady n)) ∧
  (∀ (dt : Nat) (n : Fin 4) (e : EncEdge) (s : State),
      let t := s.elapse dt
      t.par K.lcSource n = 1 →
      (t.lc n).started = true →
      (e.both = true ∨ (0 < (t.lc n).inAt ∧ t.now < (t.lc n).inAt + 39)) →
      exec (.encCount dt n e) s = .next ((t.modLc n fun l => { l with inAt := t.now + 1 }).incError n)) ∧
  (∀ (dt : Nat) (n : Fin 4) (s : State),
      let t := s.elapse dt
      t.par K.lcSource n = 1 →
      (t.lc n).started = true →
      (t.lc n).edgeAt + 1000 * t.par K.lcStandstillTime n ≤ t.now →
      exec (.standstillTimeout dt n) s =
        .next (((t.modLc n fun x => { x with speed := 0, accel := 0 }).lcMoved n (t.lcVal n)).lcReady n)) ∧
  (∀ (dt : Nat) (n : Fin 4) (s : State),
      let t := s.elapse dt
      (t.par K.lcSource n = 1 ∨ t.par K.lcSource n = 2) →
      ∀ v, (t.lc n).setIndex = some v →
      exec (.indexPulse dt n) s = .next (((t.lcPut n v).modLc n fun l =>
        { l with set := none, aligned := if t.par K.lcZMode n = 2 then true else l.aligned }).lcReady n)) ∧
  (∀ (dt : Nat) (n : Fin 4) (s : State),
      let t := s.elapse dt
      (t.par K.lcSource n = 1 ∨ t.par K.lcSource n = 2) →
      (t.lc n).setIndex = none →
      (t.lc n).started = true →
      exec (.indexPulse dt n) s = .next ((t.indexMode n).lcReady n)) ∧
  (∀ (dt : Nat) (n : Fin 4) (s : State),
      let t := s.elapse dt
      t.par K.lcSource n = 3 →
      (t.lc n).setIndex = none →
      exec (.indexPulse dt n) s = .next ((t.pulseEdge n none).lcMoved n (t.lcVal n))) ∧
  (∀ (dt : Nat) (n : Fin 4) (s : State),
      let t := s.elapse dt
      t.par K.lcSource n = 3 →
      ∀ v, (t.lc n).setIndex = some v →
      exec (.indexPulse dt n) s =
        .next (((t.pulseEdge n (some v)).modLc n fun l => { l with set := none }).lcSpeed n)) ∧
  (∀ (dt : Nat) (n : Fin 4) (s : State),
      let t := s.elapse dt
      ∀ w, t.turnTime n = some w → t.par K.lcSource n = 3 → (t.lc n).st = .track → (t.lc n).pulseAt + w ≤ t.now →
      t.pulseOff n = true →
      exec (.pulseMissing dt n) s = .next ((t.lcHold n).modLc n fun x => { x with pulseAt := x.pulseAt + w })) ∧
  (∀ (dt : Nat) (n : Fin 4) (x : SsiRead) (s : State),
      let t := s.elapse dt
      ∀ code, code = t.ssiCode n x.bits.toNat →
      t.par K.lcSource n = 2 →
      (t.lc n).started = true →
      (x.startHigh = false ∨ t.ssiParityOk n x = false ∨ t.ssiFast n code = true) →
      exec (.ssiWord dt n x) s = .next (t.ssiInvalid n (t.ssiFast n code))) ∧
  (∀ (dt : Nat) (n : Fin 4) (x : SsiRead) (s : State),
      let t := s.elapse dt
      ∀ code, code = t.ssiCode n x.bits.toNat →
      t.par K.lcSource n = 2 →
      (t.lc n).started = true →
      x.startHigh = true →
      t.ssiParityOk n x = true →
      t.ssiFast n code = false →
      exec (.ssiWord dt n x) s = .next ((t.ssiTake n code x).lcReady n)) ∧
  (∀ (dt : Nat) (n : Fin 4) (s : State),
      let t := s.elapse dt
      3 ≤ t.par K.lcSource n →
      (t.lc n).st = .track →
      (t.lc n).telAt + 1000 * t.par K.lcTelTimeout n ≤ t.now →
      exec (.telegramTimeout dt n) s = .next (t.lcHold n)) ∧
  (∀ (dt : Nat) (n : Fin 4) (s : State),
      let t := s.elapse dt
      (t.lc n).st = .holdover →
      (t.lc n).holdAt + 1000 * t.par K.lcHoldover n ≤ t.now →
      exec (.holdoverExpired dt n) s = .next (t.lcLose n)) ∧
  (∀ (dt : Nat) (n : Fin 4) (s : State),
      let t := s.elapse dt
      exec (.estimatorRecord dt n) s = .next (t.lcMoved n (t.lcVal n))) ∧
  (∀ (dt : Nat) (n : Fin 4) (s : State),
      let t := s.elapse dt
      2 ≤ t.par K.lcSource n →
      (t.lc n).started = true →
      exec (.estimatedDirectionChange dt n) s = .next (t.lcTurn n))

/-- TIME_STEP applies the step that waits. TIME_SLEW_DONE ends a slew with nothing left. An enabled edge inside the
capture window is captured in the FIFO of its input with TIME and the four coordinates; a full FIFO loses it; outside
the window it is only counted. A sync pulse on a valid coordinate raises its output for its width, and a pulse
meanwhile is counted as merged; on a coordinate that is not valid it is skipped. Its end lowers the output. -/
def Obligations.TimeAndLatchRowsComplete : Prop :=
  (∀ (dt : Nat) (s : State),
      let t := s.elapse dt
      exec (.timeStep dt) s = .next t.stepTime) ∧
  (∀ (dt : Nat) (s : State),
      let t := s.elapse dt
      t.clk.slewing = true →
      t.clk.slewLeft = 0 →
      exec (.timeSlewDone dt) s = .next { t with clk := { t.clk with slewing := false } }) ∧
  (∀ (dt : Nat) (k : Fin 16) (falling : Bool) (s : State),
      let t := s.elapse dt
      t.dev.mode = .ready →
      t.par K.latEnable k = 1 →
      (t.par K.latEdge k = 0 → falling = false) →
      (t.par K.latEdge k = 1 → falling = true) →
      t.inCapture k = true →
      (t.lat k).fifo.length < 4 →
      ∀ x : LatchRec, x =
        { time := t.clk.time, lcs := t.lcAll, lcState := t.lcStates, gen := t.clk.gen,
          flags := flag 0 falling + flag 1 ((t.lat k).lostDue ≠ 0) + flag 2 ((List.range 4).any fun n => ((t.lc n).setAt k).isSome),
          seq := ((t.lat k).seq + 1).toNat, lost := (t.lat k).lostDue } →
      exec (.latchEdge dt k falling) s = .next ((t.modLat k fun y =>
        { y with fifo := y.fifo ++ [x], captured := y.captured + 1, lostDue := 0, seq := y.seq + 1 }).latchSets k)) ∧
  (∀ (dt : Nat) (k : Fin 16) (falling : Bool) (s : State),
      let t := s.elapse dt
      t.dev.mode = .ready →
      t.par K.latEnable k = 1 →
      (t.par K.latEdge k = 0 → falling = false) →
      (t.par K.latEdge k = 1 → falling = true) →
      t.inCapture k = true →
      4 ≤ (t.lat k).fifo.length →
      exec (.latchEdge dt k falling) s = .next (t.latchLost k)) ∧
  (∀ (dt : Nat) (k : Fin 16) (falling : Bool) (s : State),
      let t := s.elapse dt
      t.dev.mode = .ready →
      t.par K.latEnable k = 1 →
      (t.par K.latEdge k = 0 → falling = false) →
      (t.par K.latEdge k = 1 → falling = true) →
      t.inCapture k = false →
      exec (.latchEdge dt k falling) s = .next (t.modLat k fun l => { l with outside := l.outside + 1 })) ∧
  (∀ (dt : Nat) (k : Fin 4) (position : W64) (backward wiringOk : Bool) (s : State),
      let t := s.elapse dt
      ∀ (u : State) (n : Nat) (past : Int), u = t.syncRearm k → n = u.par K.syncLc k →
        past = u.syncDiff k (u.lcVal n + BitVec.ofInt 64 (dispOf (BitVec.ofInt 64 (u.lcSpd n)) 0 (u.par K.syncLead k))) position →
      u.dev.mode = .ready →
      u.syncPos k position = true →
      (backward = true → u.par K.syncDir k ≠ 0) →
      (if backward then past ≤ 0 else 0 ≤ past) →
      ((u.sync k).spent.any fun e => decide (u.syncDiff k e.1 position = 0)) = false →
      ((u.lc n).st = .track ∨ (u.lc n).st = .holdover) →
      ∀ w, w = (u.modSync k fun x =>
        if x.active then { x with merged := x.merged + 1 }
        else { x with active := true, until_ := u.now + u.par K.syncWidth k, pulses := x.pulses + 1,
                      spent := x.spent ++ [(position, backward)] }) →
      exec (.syncPulse dt k position backward wiringOk) s = .next (if wiringOk then w else w.raiseU 0x5A 0 2 k false (u.par K.syncOwner k))) ∧
  (∀ (dt : Nat) (k : Fin 4) (position : W64) (backward wiringOk : Bool) (s : State),
      let t := s.elapse dt
      ∀ (u : State) (n : Nat) (past : Int), u = t.syncRearm k → n = u.par K.syncLc k →
        past = u.syncDiff k (u.lcVal n + BitVec.ofInt 64 (dispOf (BitVec.ofInt 64 (u.lcSpd n)) 0 (u.par K.syncLead k))) position →
      u.dev.mode = .ready →
      u.syncPos k position = true →
      (backward = true → u.par K.syncDir k ≠ 0) →
      (if backward then past ≤ 0 else 0 ≤ past) →
      ((u.sync k).spent.any fun e => decide (u.syncDiff k e.1 position = 0)) = false →
      (u.lc n).st ≠ .track →
      (u.lc n).st ≠ .holdover →
      exec (.syncPulse dt k position backward wiringOk) s = .next (u.modSync k fun x => { x with skipped := x.skipped + 1 })) ∧
  (∀ (dt : Nat) (k : Fin 4) (s : State),
      let t := s.elapse dt
      (t.sync k).active = true →
      (t.sync k).until_ ≤ t.now →
      exec (.syncPulseEnd dt k) s = .next (t.modSync k fun x => { x with active := false }))

/-- A frame received on an OPEN, integrated channel is counted, enters the receive ring, and counts the receive error
counter down; a foreign reference message raises 0x68 and is told to the owner. A frame sent with the acknowledgement
its mode asks for is counted, recorded, ends its attempt, counts the transmit error counter down, and completes its
request, reference frame or probe; a test frame of a self-test is judged. A lost arbitration fails the attempt, and the
first one of a scheduled occurrence counts it as blocked. A bus error outside an attempt, or within one, is counted by
its kind, steps the error counters and ends a FAST phase. A protocol exception is counted and the engine integrates
again, or with `pex` OFF it is a form error. RING_ENTRY takes the next entry of the ring and tells of the transmissions
before it, DEFERRED_PAYLOAD_WRITE the payload that waits. The FAST phase within a frame, and a frame that left the
buffer while it was sent, are the model's choices (log entries 146 and 148). -/
def Obligations.FrameRowsComplete : Prop :=
  (∀ (dt : Nat) (c : Fin 32) (f : RxFrame) (s : State),
      let t := s.elapse dt
      t.dev.mode = .ready →
      (t.chan c).st = .opened →
      (t.chan c).mode ≠ .loopInt →
      (t.chan c).phase = .none →
      ∀ (fr : Frame) (exceeds : Bool), fr = t.stampFrame (RxFrame.frame f) f.sof →
        exceeds = (!declares (t.engCfg c K.chanFormats) (kindNat f.kind) || t.engCfg c K.chanMaxLen < fr.payload.length) →
      ∀ u : State, u = (((((((t.modStat c fun x =>
            { x with framesRx := x.framesRx + 1, overLen := if exceeds then x.overLen + 1 else x.overLen }).modChan c
          fun ch => { ch with fast := t.fastPhase c fr f.sof }).addEdgesA c f.edges).ringWrite c fr).heard c).bumpCounts c
            (fun n => n) recDown).blockedBy (t.schedHome c) f.sof (some f.id)) →
      exec (.frameReceived dt c f) s = .next (
        match (t.chan (t.schedHome c)).sched with
        | some d => if d.angle = false ∧ f.kind = .cc ∧ f.id.toNat = t.par K.chanRefId (t.schedHome c) then
            (u.raiseU 0x68 0 1 c false 0).event (t.chanOwner (t.schedHome c)) 0x0403 (t.schedHome c)
              (le 4 f.id.toNat ++ le 8 fr.time.toNat) else u
        | none => u)) ∧
  (∀ (dt : Nat) (c : Fin 32) (x : TxEnd) (s : State),
      let t := s.elapse dt
      t.testing c x.what x.sof = false →
      t.underWay c x.what x.sof = true →
      ((t.chan c).mode = .normal → x.acked = true) →
      ∀ (ended lost : Bool) (f : Frame), ended = t.attemptOver c x.what x.sof →
        lost = (match x.what with
          | .object o => ((t.chan (t.attemptHome c o x.what x.sof)).obj o).arbLost && !ended
          | .arm | .ref | .test => false) →
        f = { t.stampFrame { t.attemptFrame c x.what x.sof with arbLost := lost } x.sof with
              loss := (t.chan c).ring.lossDue } →
      ∀ (u v w : State),
        u = ((((t.endAttempt c x.what).modStat c fun y => { y with framesTx := y.framesTx + 1 }).modChan c fun ch =>
          { ch with fast := t.fastPhase c f x.sof }).ringWrite c f).bumpCounts c (fun n => n - 1) (fun n => n) →
        v = u.takeLoop c f.kind x.loop →
        w = (if f.kind ≠ .cc ∧ t.engCfg c K.chanTdc = 1 ∧ t.engCfg c K.chanFast = 0 then
          v.modChan c fun ch => { ch with age := { ch.age with histD := ch.age.histD ++ x.edges } } else v) →
      ∀ z : State, z = (match x.what with
          | .object o => w.objSent c (t.attemptHome c o x.what x.sof) o f ended (t.chan c).nowSched
          | .arm => w.modRt (t.schedHome c) fun r => { r with refSent := r.refSent + 1, armSeq := r.armSeq + 1 }
          | .ref => w.modRt (t.schedHome c) fun r => { r with refSent := r.refSent + 1, refGen := t.clk.gen }
          | .test => w) →
      exec (.txSuccess dt c x) s = .next ((if x.acked then z.heard c else z).refill c)) ∧
  (∀ (dt : Nat) (c : Fin 32) (x : TxEnd) (s : State),
      let t := s.elapse dt
      t.testing c x.what x.sof = true →
      exec (.txSuccess dt c x) s = .next (t.testSent c x)) ∧
  (∀ (dt : Nat) (c : Fin 32) (o : Fin 128) (sof : W64) (winner : W32) (s : State),
      let t := s.elapse dt
      t.underWay c (.object o) sof = true →
      ∀ (h : Nat) (u : State), h = t.attemptHome c o (.object o) sof →
        u = (if t.attemptOver c (.object o) sof then t else t.modObj h o fun y => { y with collCount := 0 }) →
      exec (.arbitrationLost dt c (.object o) sof winner) s = .next (
        ((match (t.chan h).rt.flying with
          | some a => if (t.chan c).nowSched = true ∧ a.retry = false ∧ a.blocked = false then
              u.modRt h fun r => { r with
                blocked := r.blocked + 1, repBlocked := r.repBlocked + 1, lastBlocker := winner,
                flying := some { a with blocked := true } } else u
          | none => u).modChan c fun ch => { ch with fast := none }).attemptFail c (.object o) 1 sof)) ∧
  (∀ (dt : Nat) (c : Fin 32) (what : TxWhat) (sof : W64) (winner : W32) (s : State),
      let t := s.elapse dt
      (∀ o, what ≠ .object o) →
      t.underWay c what sof = true →
      exec (.arbitrationLost dt c what sof winner) s = .next ((t.modChan c fun ch => { ch with fast := none }).attemptFail c what 1 sof)) ∧
  (∀ (dt : Nat) (c : Fin 32) (x : BusErr) (s : State),
      let t := s.elapse dt
      x.attempt = none →
      t.dev.mode = .ready →
      (t.chan c).st = .opened →
      (t.chan c).mode ≠ .loopInt →
      (t.chan c).phase = .none →
      exec (.busError dt c x) s = .next ((((t.modDiag c fun d => d.error x.kind).cutFast c).bumpCounts c (fun n => n)
        (· + BusErr.recStep x)).blockedBy (t.schedHome c) x.sof x.id)) ∧
  (∀ (dt : Nat) (c : Fin 32) (x : BusErr) (s : State),
      let t := s.elapse dt
      ∀ w, x.attempt = some w → t.underWay c w x.sof = true →
      ∀ (fr : Frame) (u v : State), fr = t.attemptFrame c w x.sof →
        u = (((t.modDiag c fun d => d.error x.kind).takeLoop c fr.kind x.loop).modChan c fun ch =>
          { ch with fast := t.fastPhase c fr x.sof }).cutFast c →
        v = (if x.kind = .ack then u.modErr c fun y => { y with ackErr := true } else u) →
      ∀ why : Nat, why = (if (t.chan c).mode.counts = true ∧ 255 < (t.chan c).err.tec + BusErr.tecStep x (t.chan c).err.st then 4
        else if x.kind = .ack then 3 else 2) →
      ∀ z : State, z = (match w with
          | .object o => if t.attemptOver c w x.sof then v.attemptFail c w why x.sof else
              (v.attemptFail c w why x.sof).collideCount c (t.attemptHome c o w x.sof) o fr x.kind x.field
          | .arm | .ref | .test => v.attemptFail c w why x.sof) →
      exec (.busError dt c x) s = .next (z.bumpCounts c (· + BusErr.tecStep x (t.chan c).err.st) (fun n => n))) ∧
  (∀ (dt : Nat) (c : Fin 32) (s : State),
      let t := s.elapse dt
      t.dev.mode = .ready →
      (t.chan c).st = .opened →
      (t.chan c).mode ≠ .loopInt →
      (t.chan c).phase = .none →
      exec (.protocolException dt c) s = .next (
        if t.engCfg c K.chanPex = 0 then
          ((t.displace c false).cutFast c).modChan c fun ch =>
            { ch with stat := { ch.stat with pex := ch.stat.pex + 1 }, phase := .integrating }
        else ((t.modDiag c fun d => d.error .form).cutFast c).bumpCounts c (fun n => n) (· + 1))) ∧
  (∀ (dt : Nat) (c : Fin 32) (s : State),
      let t := s.elapse dt
      exec (.ringEntry dt c) s = .next ((t.takeEntry c).tellDone c)) ∧
  (∀ (dt : Nat) (c : Fin 32) (o : Fin 128) (s : State),
      let t := s.elapse dt
      exec (.deferredPayloadWrite dt c o) s = .next (t.writeDeferred c o))

/-- BOFF_DELAY_EXPIRED and RECOVERY_DONE lead from bus-off back to error active. LONE_ENTER enters LONE, LONE_PROBE
sends a probe. STUCK_DOMINANT, a bad LOOP_DELAY_WINDOW and PIN_READBACK are causes of retirement; CHAN_RETIRED retires
the channel once no frame of it is in progress, with the other channel of a pair that is to retire too, and
TWIN_HANDOVER hands its work to the twin. SLEEP_ENTER puts the channel to sleep, BUS_WAKE reports a wake and may open
it, WAKE_TIME_EXPIRED and INTEGRATION_DONE open it, lead an OPEN one back to its bus or a self-test to its frames,
CHAN_OPEN_TIMEOUT ends an open in vain. MODE_CHANGE_APPLIED, TIMING_APPLIED and SAMPLE_POINT_MOVE take effect between
frames. -/
def Obligations.ChannelStateRowsComplete : Prop :=
  (∀ (dt : Nat) (c : Fin 32) (s : State),
      let t := s.elapse dt
      (t.chan c).err.st = .busOffHeld →
      (t.chan c).st = .opened →
      t.par K.chanBoffRecovery c = 0 →
      (t.chan c).err.offTimes.headD 0 + 1000000 * t.par K.chanBoffDelay c ≤ t.now →
      exec (.boffDelayExpired dt c) s = .next (t.errState c .busOff)) ∧
  (∀ (dt : Nat) (c : Fin 32) (s : State),
      let t := s.elapse dt
      (t.chan c).err.st = .busOff →
      (t.chan c).st = .opened →
      exec (.recoveryDone dt c) s = .next ((((t.modErr c fun e => { e with tec := 0, recv := 0 }).modDiag c fun d =>
        { d with recoveries := d.recoveries + 1 }).errState c .active).refill c)) ∧
  (∀ (dt : Nat) (c : Fin 32) (s : State),
      let t := s.elapse dt
      t.dev.mode = .ready →
      (t.chan c).st = .opened →
      (t.chan c).mode = .normal →
      (t.chan c).phase = .none →
      (t.chan c).err.lone = false →
      (t.chan c).err.ackErr = true →
      (t.chan c).err.heardAt + 1000000 * t.par K.chanLoneTime c ≤ t.now →
      ∀ u : State, u = ((t.displace c false).modChan c fun x => { x with
          err := { x.err with lone := true, probeAt := t.now }
          diag := { x.diag with loneEntries := x.diag.loneEntries + 1 } }) →
      exec (.loneEnter dt c) s = .next ((((u.settle t c).condOn c 3 0).raiseU c 3 1 c true (t.chanOwner c)).loneEvent c 1)) ∧
  (∀ (dt : Nat) (c : Fin 32) (s : State),
      let t := s.elapse dt
      (t.chan c).err.lone = true →
      t.probeRequest c = none →
      t.canSend c = true →
      (t.chan c).txNow = none →
      (t.chan c).err.probeAt + 1000000 * t.par K.chanLoneProbe c ≤ t.now →
      t.mayStart (t.schedHome c) t.clk.time ((t.cfg c).frameTime (kindNat (lowestKind (t.par K.chanFormats c))) true 1 false) = true →
      exec (.loneProbe dt c) s = .next ((t.takeOff c .test false (t.probeFrame c) t.clk.time).modErr c fun x =>
        { x with probes := x.probes + 1, probeAt := t.now })) ∧
  (∀ (dt : Nat) (c : Fin 32) (s : State),
      let t := s.elapse dt
      ∀ (h : Nat) (o : Fin 128) (u : State), t.probeRequest c = some (h, o.val) → u = t.checkBuffer h o →
        u.probeRequest c = some (h, o.val) → h = u.homeOf c o →
      (t.chan c).err.lone = true →
      (u.chan c).err.lone = true →
      u.canSend c = true →
      (u.chan c).txNow = none →
      (u.chan c).err.probeAt + 1000000 * u.par K.chanLoneProbe c ≤ u.now →
      u.mayStart (u.schedHome c) u.clk.time (u.objDuration h o) = true →
      exec (.loneProbe dt c) s = .next (((u.takeOff c (.object o) false (u.formFrame c h o ((u.chan h).obj o).payload)
        u.clk.time).modErr c fun x => { x with probes := x.probes + 1, probeAt := u.now }).prefetch h o)) ∧
  (∀ (dt : Nat) (c : Fin 32) (low : Nat) (s : State),
      let t := s.elapse dt
      t.dev.mode = .ready →
      (t.chan c).st = .opened →
      1000000 * t.par K.chanStuckTime c ≤ low →
      (t.chan c).openAt + 1000000 * t.par K.chanStuckTime c ≤ t.now →
      (t.par K.chanTwin (c - c % 2) ≠ 1 ∨ (t.chan (partner c)).st = .retired) →
      exec (.stuckDominant dt { chan := c, low := low }) s = .next (t.addCause c 0x11)) ∧
  (∀ (dt : Nat) (c : Fin 32) (low : Nat) (s : State),
      let t := s.elapse dt
      t.dev.mode = .ready →
      (t.chan c).st = .opened →
      1000000 * t.par K.chanStuckTime c ≤ low →
      (t.chan c).openAt + 1000000 * t.par K.chanStuckTime c ≤ t.now →
      t.par K.chanTwin (c - c % 2) = 1 →
      (t.chan (partner c)).st ≠ .retired →
      exec (.stuckDominant dt { chan := c, low := low }) s = .next ((((t.addCause c 0x11).addCause (partner c) 0x11).modErr c fun e => { e with bothRetire := true }).modErr (partner c)
        fun e => { e with bothRetire := true })) ∧
  (∀ (dt : Nat) (c : Fin 32) (s : State),
      let t := s.elapse dt
      t.dev.mode = .ready →
      (t.chan c).st = .opened →
      ∀ (e : ChErr) (w : Nat), e = (t.chan c).err → w = 1000000 * t.par K.chanTdcWindow c → e.winAt + w ≤ t.now →
      ∀ u : State, u = (t.modErr c fun x => { x with winAt := x.winAt + w, winCount := 0, winBad := 0 }) →
      exec (.loopDelayWindow dt c) s = .next (if t.par K.chanTdcWindowFrames c ≤ e.winCount ∧ e.winBad = e.winCount then u.addCause c 0x12 else u)) ∧
  (∀ (dt : Nat) (c : Fin 32) (pad : Pad) (s : State),
      let t := s.elapse dt
      t.dev.mode = .ready →
      exec (.pinReadback dt c pad) s = .next (t.addCause c 0x14)) ∧
  (∀ (dt : Nat) (c : Fin 32) (s : State),
      let t := s.elapse dt
      (t.chan c).err.causes.isEmpty = false →
      (t.chan c).st ≠ .retired →
      (t.chan c).txNow = none →
      ∀ u, u = t.retireNow c →
      exec (.chanRetired dt c) s = .next (
        if (u.chan (partner c)).err.bothRetire = true ∧ (u.chan (partner c)).err.causes.isEmpty = false ∧
          (u.chan (partner c)).st ≠ .retired ∧ (u.chan (partner c)).txNow = none then u.retireNow (partner c) else u)) ∧
  (∀ (dt : Nat) (c : Fin 32) (s : State),
      let t := s.elapse dt
      (t.chan c).err.handTick = true →
      exec (.twinHandover dt c) s = .next (t.handover c false)) ∧
  (∀ (dt : Nat) (c : Fin 32) (s : State),
      let t := s.elapse dt
      (t.chan c).wantSleep = true →
      (t.chan c).st = .opened →
      (t.chan c).txNow = none →
      ∀ u : State, u = (((t.pinsIdle c).loneDrop c).modChan c fun x =>
        { x with st := .sleep, phase := .none, wantSleep := false, txBuf := none, bufSched := false, bufKept := none,
                 displaced := [], timingDue := none, timingOld := [] }) →
      exec (.sleepEnter dt c) s = .next ((((u.settle t c).chanEvent c 0x0101 (le 1 (t.chan c).mode.code ++ le 1 5 ++ le 1 0)).schedUpdate c).schedUpdate (c - 1))) ∧
  (∀ (dt : Nat) (c : Fin 32) (fell : W64) (s : State),
      let t := s.elapse dt
      t.dev.mode = .ready →
      (t.chan c).st = .sleep →
      1000 * (t.par K.chanWakeFilter c : Int) ≤ (t.clk.time - fell).toInt →
      ∀ u, u = t.chanEvent c 0x0104 (le 8 fell.toNat ++ le 1 (t.par K.chanWakeAction c)) →
      exec (.busWake dt c fell) s = .next (if t.par K.chanWakeAction c = 1 then u.wantRelease c (t.chan c).mode 2 else u)) ∧
  (∀ (dt : Nat) (c : Fin 32) (s : State),
      let t := s.elapse dt
      (t.chan c).phase = .releasing →
      (t.chan c).phaseAt + 1000 * t.par K.chanWakeTime c ≤ t.now →
      exec (.wakeTimeExpired dt c) s = .next (t.modChan c fun x => { x with phase := .integrating })) ∧
  (∀ (dt : Nat) (c : Fin 32) (s : State),
      let t := s.elapse dt
      (t.chan c).phase = .integrating →
      exec (.integrationDone dt c) s = .next (
        match (t.chan c).st with
        | .closed | .sleep => t.opened c
        | .opened => (t.modChan c fun x => { x with phase := .none }).refill c
        | .retired => t.modChan c fun x =>
            { x with phase := .testing, test := some { sent := 0, loMin := 0xFFFF, loMax := 0, bad := false } })) ∧
  (∀ (dt : Nat) (c : Fin 32) (s : State),
      let t := s.elapse dt
      ∀ l, (t.longs.find? fun l => l.code = 0x100 && l.res = c.val) = some l →
        ((t.chan c).phase = .releasing ∨ (t.chan c).phase = .integrating) → (t.chan c).phaseAt + 100000000 ≤ t.now →
      exec (.chanOpenTimeout dt c) s = .next (((t.pinsIdle c).modChan c fun x => { x with phase := .none }).finish l stTimeout 0 [])) ∧
  (∀ (dt : Nat) (c : Fin 32) (s : State),
      let t := s.elapse dt
      (t.chan c).st = .opened →
      (t.chan c).txNow = none →
      exec (.modeChangeApplied dt c) s = .next (t.applyMode c)) ∧
  (∀ (dt : Nat) (c : Fin 32) (s : State),
      let t := s.elapse dt
      ∀ b, (t.chan c).timingDue = some b → (t.chan c).txNow = none →
      ∀ (fits : Bool) (u : State), fits = (match (t.chan c).txBuf with
          | some w => declares (t.par K.chanFormats c) (kindNat (t.attemptFrame c w t.clk.time).kind) &&
              decide ((t.attemptFrame c w t.clk.time).payload.length ≤ t.par K.chanMaxLen c)
          | none => true) →
        u = (t.modChan c fun ch => { ch with
          timingDue := none, timingOld := [], displaced := []
          phase := if ch.mode = .loopInt then ch.phase else .integrating }) →
      exec (.timingApplied dt c) s = .next (
        ((if fits then u else u.dropBuffered c).timingEvent c 0 (if fits then 0 else 1)).refill c)) ∧
  (∀ (dt : Nat) (c : Fin 32) (s : State),
      let t := s.elapse dt
      (t.chan c).spMoveDue = true →
      (t.chan c).st = .opened →
      (t.chan c).txNow = none →
      ∀ (a : ChAge) (u : State), a = (t.chan c).age → u = (t.modChan c fun x => { x with
          spMoveDue := false
          age := { x.age with
            spA := (a.moveA.map (·.1)).getD a.spA, ssp := (a.moveD.map (·.1)).getD a.ssp
            sjwCut := (t.cfg c).sjwCut ((a.moveA.map (·.1)).getD a.spA)
            histA := if a.moveA.isSome then [] else a.histA, histD := if a.moveD.isSome then [] else a.histD
            moveA := none, moveD := none } }) →
      exec (.samplePointMove dt c) s = .next (((u.decideMove c 2 a.spA a.moveA).decideMove c 3 a.ssp a.moveD).timingEvent c 1 0))

/-- FIRING_TARGET_UPDATE recomputes the target of the armed occurrence until it is within 1,000 ns. SCHEDULED_FIRE
starts the armed occurrence at or after its target, or one that flies and has not started, as long as it is in time
and the engine is free. ARM_FIRE spends the ARM frame and sends it where it starts within one t_bitA of its target and
the engine is free; once that time has passed it is missed. REF_MESSAGE starts the next cycle of a TIME schedule that is due, and sends its reference message, or
counts it as missed and raises 0x64. OCCURRENCE_MISSED, SCHED_REPORT, EXCLUSIVE_WINDOW_END and SCHED_BOUNDARY_CROSSED
act on the schedule. -/
def Obligations.ScheduleRowsComplete : Prop :=
  (∀ (dt : Nat) (c : Fin 32) (s : State),
      let t := s.elapse dt
      ∀ (d : Sched) (x : Armed), (t.chan c).sched = some d → (t.chan c).rt.armed = some x → x.fixed = false →
      exec (.firingTargetUpdate dt c) s = .next (t.modRt c fun r =>
        { r with armed := some { x with
            target := t.targetOf d x.coord x.back,
            fixed := match t.targetOf d x.coord x.back with
              | some v => decide ((v - t.clk.time).toInt < 1000)
              | none => false
            arm := x.arm.map fun a =>
              if a.fixed ∨ a.spent then a
              else { a with target := t.targetOf d a.coord x.back, fixed := t.targetFixed (t.targetOf d a.coord x.back) } } })) ∧
  (∀ (dt : Nat) (c : Fin 32) (sof : W64) (blocker : Option W32) (s : State),
      let t := (s.elapse dt).schedHush c
      ∀ (d : Sched) (x : Armed), (t.chan c).sched = some d → (t.chan c).rt.flying = some x → x.started = false →
      (0 < ahead x.back (startLimit x) (t.schedPosAt d sof) ∨ x.target = some sof) →
      (t.chan c).passDue = none →
      t.canSend (t.engineOf c) = true →
      (t.chan c).rt.st ≠ .suspended →
      (t.chan (t.engineOf c)).txNow = none →
      ∀ go : Armed → State → State, go = (fun x v =>
        if h : x.slot.object < 128 then
          v.takeOff (t.engineOf c) (.object ⟨x.slot.object, h⟩) true (t.slotFrame (t.engineOf c) c x.slot.object sof) sof
        else v) →
      exec (.scheduledFire dt c sof blocker) s = .next (go x (t.modRt c fun r => { r with flying := some { x with started := true } }))) ∧
  (∀ (dt : Nat) (c : Fin 32) (sof : W64) (blocker : Option W32) (s : State),
      let t := (s.elapse dt).schedHush c
      ∀ (d : Sched) (x : Armed) (at_ : W64), (t.chan c).sched = some d → (t.chan c).rt.flying = none → (t.chan c).rt.armed = some x →
        x.target = some at_ → 0 ≤ (busTime sof - at_).toInt →
      (0 < ahead x.back (startLimit x) (t.schedPosAt d sof) ∨ x.target = some sof) →
      (t.chan c).passDue = none →
      t.canSend (t.engineOf c) = true →
      (t.chan c).rt.st ≠ .suspended →
      (t.chan (t.engineOf c)).txNow = none →
      ∀ go : Armed → State → State, go = (fun x v =>
        if h : x.slot.object < 128 then
          v.takeOff (t.engineOf c) (.object ⟨x.slot.object, h⟩) true (t.slotFrame (t.engineOf c) c x.slot.object sof) sof
        else v) →
      exec (.scheduledFire dt c sof blocker) s = .next (go x (t.fireFirst c d x sof blocker))) ∧
  (∀ (dt : Nat) (c : Fin 32) (sof : W64) (readbackOk : Bool) (s : State),
      let t := s.elapse dt
      ∀ (x : Armed) (a : ArmMsg) (at_ : W64), (t.chan c).rt.armed = some x → x.arm = some a → a.spent = false →
        a.target = some at_ → 0 ≤ (busTime sof - at_).toInt →
        16 * (sof - at_).toInt ≤ ((t.engCfg c).bitA + 320 : Int) →
      t.canSend (t.engineOf c) = true →
      (t.chan c).rt.st ≠ .suspended →
      (t.chan (t.engineOf c)).txNow = none →
      (t.chan c).passDue = none →
      ∀ u, u = (t.modRt c fun r => { r with armed := some { x with arm := some { a with spent := true } } }) →
      exec (.armFire dt c (some sof) readbackOk) s = .next ((if readbackOk then u else u.raiseU 0x67 0 2 c false 0).takeOff
        (t.engineOf c) .arm true (t.armFrame c a.payload) sof)) ∧
  (∀ (dt : Nat) (c : Fin 32) (sof : Option W64) (readbackOk : Bool) (s : State),
      let t := s.elapse dt
      ∀ (x : Armed) (a : ArmMsg) (at_ : W64), (t.chan c).rt.armed = some x → x.arm = some a → a.spent = false →
        a.target = some at_ → 0 ≤ (busTime (sof.getD t.clk.time) - at_).toInt →
        ((t.engCfg c).bitA + 320 : Int) < 16 * (sof.getD t.clk.time - at_).toInt →
      ∀ u, u = (t.modRt c fun r =>
        { r with armed := some { x with arm := some { a with spent := true } }, refMissed := r.refMissed + 1 }) →
      exec (.armFire dt c sof readbackOk) s = .next (if readbackOk then u else u.raiseU 0x67 0 2 c false 0)) ∧
  (∀ (dt : Nat) (c : Fin 32) (started readbackOk : Bool) (s : State),
      let t := s.elapse dt
      ∀ (d : Sched) (r : SchedRt) (due : W64), (t.chan c).sched = some d → r = (t.chan c).rt →
        due = (if r.last.isNone then r.cycleAt else r.cycleAt + BitVec.ofNat 64 d.cycle) → d.angle = false → r.st ≠ .idle →
        0 ≤ (t.clk.time - due).toInt →
      ∀ ok : Bool, ok = (started && readbackOk && t.canSend (t.engineOf c) && (t.chan (t.engineOf c)).txNow.isNone &&
        (t.chan c).passDue.isNone) →
      ∀ u : State, u = (t.modRt c fun y => { y with
          cycleAt := due, cycleCount := if y.last.isNone then 0 else (y.cycleCount + 1) % d.matrix,
          last := some (match y.last with
            | some l => if 0 < (l - due).toInt then l else due
            | none => due),
          refMissed := if ok then y.refMissed else y.refMissed + 1 }) →
      exec (.refMessage dt c started readbackOk) s = .next (if ok then u.takeOff (t.engineOf c) .ref true (t.refFrame c) t.clk.time else u.raiseU 0x64 0 1 c false 0)) ∧
  (∀ (dt : Nat) (c : Fin 32) (s : State),
      let t := s.elapse dt
      exec (.occurrenceMissed dt c) s = .next (t.schedExpire c)) ∧
  (∀ (dt : Nat) (c : Fin 32) (s : State),
      let t := s.elapse dt
      ∀ r, r = (t.chan c).rt → (r.repMissed ≠ 0 ∨ r.repBlocked ≠ 0) →
      (r.reportAt = 0 ∨ r.reportAt + 1000000 * t.par K.schedReportInterval 0 ≤ t.now) →
      exec (.schedReport dt c) s = .next ((t.modRt c fun y => { y with repMissed := 0, repBlocked := 0, reportAt := t.now }).event (t.chanOwner c) 0x0401 c
        (le 4 r.repMissed.toNat ++ le 4 r.repBlocked.toNat ++ le 4 r.lastBlocker.toNat ++ zs 4 ++ le 8 r.lastMiss.toNat))) ∧
  (∀ (dt : Nat) (c : Fin 32) (s : State),
      let t := s.elapse dt
      ∀ d, (t.chan c).sched = some d → t.inWindow c (t.schedPos d) = false →
      exec (.exclusiveWindowEnd dt c) s = .next (t.refill (t.engineOf c))) ∧
  (∀ (dt : Nat) (c : Fin 32) (s : State),
      let t := s.elapse dt
      exec (.schedBoundaryCrossed dt c) s = .next (t.schedCross c))

/-- A doorbell of the owner of an OPEN queue latches wr or rd. An item at the head of a host-to-device queue that
passes the checks of R139, R140 and its own rule is taken: rd advances past it, it is counted, and the core that
serves the queue has it in hand, for each of the six item types. The read timer of a device-to-host queue fires its
notification. A tick that is due does the work of R343. SIGNAL_UNPACK serves a gateway unit up to its next unpack,
SIGNAL_PACK up to the pack of an event object. SCRUB, once the store is in use, deals with every error it finds and, at
the end of a pass that has lasted its period, starts the next. -/
def Obligations.QueueRowsComplete : Prop :=
  (∀ (dt : Nat) (w : Via) (q : Fin 64) (s : State),
      let t := s.elapse dt
      t.reaches w = true →
      t.dev.mode = .ready →
      (t.part w.part).resetting = none →
      (t.queue q).isOpen = true →
      t.par K.qOwner q = w.part.val →
      t.par K.qDir q = 0 →
      exec (.dbQueueH2d dt w q) s = .next (t.ringH2d w.part q)) ∧
  (∀ (dt : Nat) (w : Via) (q : Fin 64) (s : State),
      let t := s.elapse dt
      t.reaches w = true →
      t.dev.mode = .ready →
      (t.part w.part).resetting = none →
      (t.queue q).isOpen = true →
      t.par K.qOwner q = w.part.val →
      t.par K.qDir q ≠ 0 →
      exec (.dbQueueD2h dt w q) s = .next (t.ringD2h w.part q)) ∧
  (∀ (dt : Nat) (q : Fin 64) (it : InItem) (s : State),
      let t := s.elapse dt
      GoodItem t q 0x0201 it →
      exec (.objWrite dt q) s = .next (t.tookItem q it)) ∧
  (∀ (dt : Nat) (q : Fin 64) (it : InItem) (s : State),
      let t := s.elapse dt
      GoodItem t q 0x0202 it →
      exec (.objSend dt q) s = .next (t.tookItem q it)) ∧
  (∀ (dt : Nat) (q : Fin 64) (it : InItem) (s : State),
      let t := s.elapse dt
      GoodItem t q 0x0501 it →
      exec (.sigWrite dt q) s = .next (t.tookItem q it)) ∧
  (∀ (dt : Nat) (q : Fin 64) (it : InItem) (s : State),
      let t := s.elapse dt
      GoodItem t q 0x0601 it →
      exec (.axStream dt q) s = .next (t.tookItem q it)) ∧
  (∀ (dt : Nat) (q : Fin 64) (it : InItem) (s : State),
      let t := s.elapse dt
      GoodItem t q 0x0602 it →
      exec (.axCmd dt q) s = .next (t.tookItem q it)) ∧
  (∀ (dt : Nat) (q : Fin 64) (it : InItem) (s : State),
      let t := s.elapse dt
      GoodItem t q 0x0301 it →
      exec (.angleTel dt q) s = .next (t.tookItem q it)) ∧
  (∀ (dt : Nat) (q : Fin 64) (s : State),
      let t := s.elapse dt
      ∀ t0, (t.queue q).timer = some t0 → t0 + 1000 * t.par K.qReadTimeout q ≤ t.now →
      exec (.readTimeoutExpired dt q) s = .next (t.fire q)) ∧
  (∀ (dt : Nat) (s : State),
      let t := s.elapse dt
      t.dev.mode = .ready →
      t.dev.tick < t.tickAt →
      exec (.dispatchTick dt) s = .next t.tickWork) ∧
  (∀ (dt : Nat) (k : Fin 2) (s : State),
      let t := s.elapse dt
      exec (.signalUnpack dt k) s = .next (t.unpackNext k)) ∧
  (∀ (dt : Nat) (c : Fin 32) (o : Fin 128) (s : State),
      let t := s.elapse dt
      exec (.signalPack dt c o) s = .next (t.packNext c o)) ∧
  (∀ (dt : Nat) (errors : List LaneError) (s : State),
      let t := s.elapse dt
      t.live = true →
      exec (.scrub dt errors false) s = .next (errors.foldl State.laneError t)) ∧
  (∀ (dt : Nat) (errors : List LaneError) (s : State),
      let t := s.elapse dt
      t.live = true →
      t.store.scrubAt + 1000000000 * t.par K.storeScrubPeriod 0 ≤ t.now →
      ∀ u, u = errors.foldl State.laneError t →
      exec (.scrub dt errors true) s = .next
        { u with store := { u.store with lanePrev := u.store.laneNow, laneNow := [], scrubAt := t.now } })

/-- An occurrence of a defined source is latched with its class, detail and owner, and the entry of a crossing FIFO with a
parity error is a poisoned lane; a raise that waits is taken. An
invalid pair is latched as the wire fault. A line that clears ends the current part. A grace time that ends confirms
the fault with its reactions; a quiet time that ends closes it. A chip reset that is due waits for DEVICE_RESET. ALIVE
is renewed, or its renewal is missed. An injection ends within 10 ms by its result, or raises 0x122. A
re-qualification ends by the result of its self-test, whose pass takes effect at the next tick boundary, or with
TIMEOUT once it has lasted 1 s. -/
def Obligations.FaultRowsComplete : Prop :=
  (∀ (dt : Nat) (k : Fin 512) (x : Occ) (s : State),
      let t := s.elapse dt
      sourceDefined k = true →
      t.dev.mode ≠ .held →
      ∀ u, u = (if k.val = 0x27 then t.parityError x.detail.toNat else t) →
      exec (.faultOccurrence dt k (some x)) s = .next (u.latch
        { src := k, sub := x.sub.toNat, cls := u.occClass k x.sub.toNat, detail := x.detail, current := x.persists,
          owner := u.srcOwner k, inj := false, overlap := u.injecting k, wire := false, mask := 63 })) ∧
  (∀ (dt : Nat) (k : Fin 512) (s : State),
      let t := s.elapse dt
      sourceDefined k = true →
      t.dev.mode ≠ .held →
      ∀ x, t.fc.raised.find? (fun r => r.src = k.val) = some x →
      exec (.faultOccurrence dt k none) s = .next (t.takeRaise x)) ∧
  (∀ (dt : Nat) (k : Fin 512) (s : State),
      let t := s.elapse dt
      sourceDefined k = true →
      t.dev.mode ≠ .held →
      exec (.invalidPair dt k) s = .next (t.wireFault k true false 63)) ∧
  (∀ (dt : Nat) (k : Fin 512) (s : State),
      let t := s.elapse dt
      (t.frec k).current = true →
      (t.fc.conds.any fun c => decide (c.1 = k.val)) = false →
      exec (.faultLineClear dt k) s = .next (t.currentClear k)) ∧
  (∀ (dt : Nat) (k : Fin 512) (s : State),
      let t := s.elapse dt
      ∀ x, x = t.frec k → x.st = .grace → x.graceAt + 1000 * t.par K.faultGrace k ≤ t.now →
      ∀ react, react = t.reactSet (t.configured k 0 x.detail.toNat) →
      exec (.graceExpired dt k) s = .next (((t.modRec k fun y => { y with st := .fault }).logFault 0x02 k x.lastCause (react &&& 62) x.count).takeReactions k
        (react &&& 62) 2 (bitOf react 0))) ∧
  (∀ (dt : Nat) (k : Fin 512) (s : State),
      let t := s.elapse dt
      (t.frec k).st = .fault →
      (t.frec k).cls < 2 →
      (t.frec k).current = false →
      (t.frec k).quietAt + 1000000 * t.par K.faultQuietTime 0 ≤ t.now →
      exec (.quietTimeExpired dt k) s = .next (t.leaveFault k 0)) ∧
  (∀ (dt : Nat) (s : State),
      let t := s.elapse dt
      t.fc.chipDue = true →
      ∀ u, u = t.supervise →
      exec (.chipReset dt) s = .next { u with fc := { u.fc with chipDue := false }, dev := { u.dev with resetDue := some .chip } }) ∧
  (∀ (dt : Nat) (s : State),
      let t := s.elapse dt
      exec (.aliveRenewal dt) s = .next { t with fc := { t.fc with
        renewAt := t.now, aliveMiss := false, aliveAt := if t.fc.aliveMiss then upTo 500000 t.now else t.fc.aliveAt } }) ∧
  (∀ (dt : Nat) (s : State),
      let t := s.elapse dt
      t.dev.mode = .ready →
      t.fc.aliveMiss = false →
      t.fc.renewAt + 2000000 ≤ t.now →
      exec (.aliveRenewalMissed dt) s = .next ({ t with fc := { t.fc with aliveMiss := true } }.raiseU 0x107 0 2 0 false 0)) ∧
  (∀ (dt : Nat) (v : Nat) (s : State),
      let t := s.elapse dt
      ∀ src pat mask idx t0, t.fc.inject = some (src, pat, mask, idx, t0) → checkCase src pat = false →
      exec (.injectDone dt (some v)) s = .next (((t.wireFault src false true (if v = 0 then mask else 63)).modRec src fun x =>
        { x with overlap := x.overlap || decide (v ≠ 0) }).injectEnd src pat (if v = 0 then 0 else 2) v)) ∧
  (∀ (dt : Nat) (v : Nat) (s : State),
      let t := s.elapse dt
      ∀ src pat mask idx t0, t.fc.inject = some (src, pat, mask, idx, t0) → checkCase src pat = true →
      exec (.injectDone dt (some v)) s = .next ((t.latch
        { src := src, sub := 0, cls := if v = 0 then srcClass src 0 else t.occClass src 0, detail := 0, current := false,
          owner := t.srcOwner src, inj := true, overlap := decide (v ≠ 0), wire := false,
          mask := if v = 0 then mask else 63 }).injectEnd src pat (if v = 0 then 0 else 2) v)) ∧
  (∀ (dt : Nat) (s : State),
      let t := s.elapse dt
      ∀ src pat mask idx t0, t.fc.inject = some (src, pat, mask, idx, t0) → t0 + 10000000 ≤ t.now →
      exec (.injectDone dt none) s = .next ((t.raise 0x122 0 2 src false 0).injectEnd src pat 1 0)) ∧
  (∀ (dt : Nat) (c : Fin 32) (loopMin loopMax : Nat) (s : State),
      let t := (s.elapse dt).testRest c loopMin loopMax
      ∀ l r, (t.longs.find? fun l => l.code = 0x803 && l.res = c.val) = some l → t.now < l.t0 + 1000000000 →
      (t.chan c).st = .retired →
      (t.chan c).passDue = none →
      (t.chan c).phase = .testing →
      (t.chan c).test = some r → r.sent = t.testCount c → r.bad = false →
      exec (.requalifyDone dt (.chan c) 0 loopMin loopMax) s = .next (t.modChan c fun x =>
        { x with passDue := some (l.arg, r.loMin, if r.loMin = 0xFFFF then 0xFFFF else r.loMax) })) ∧
  (∀ (dt : Nat) (c : Fin 32) (why : Nat) (loopMin loopMax : Nat) (s : State),
      let t := (s.elapse dt).testRest c loopMin loopMax
      ∀ l, (t.longs.find? fun l => l.code = 0x803 && l.res = c.val) = some l → t.now < l.t0 + 1000000000 →
      (t.chan c).st = .retired →
      (t.chan c).passDue = none →
      t.testEnds c why = true →
      why ≠ 0 →
      ∀ (u : State) (lo hi : Nat), u = (t.dropRelease c).pinsIdle c → (lo, hi) = (t.chan c).testLoops →
      exec (.requalifyDone dt (.chan c) why loopMin loopMax) s = .next (
        if why = 3 then (u.requalEvent c 3 lo hi).finish l stTimeout 0 []
        else ((u.raise c 0x13 2 why false (t.chanOwner c)).requalEvent c why lo hi).finish l stOk 0 (le 1 why))) ∧
  (∀ (dt : Nat) (c : Fin 32) (why loopMin loopMax : Nat) (s : State),
      let t := s.elapse dt
      ∀ l, (t.longs.find? fun l => l.code = 0x803 && l.res = c.val) = some l → l.t0 + 1000000000 ≤ t.now →
      (t.chan c).passDue = none →
      exec (.requalifyDone dt (.chan c) why loopMin loopMax) s = .next (((t.dropRelease c).pinsIdle c).finish l stTimeout 0 [])) ∧
  (∀ (dt : Nat) (u : Fin 2) (loopMin loopMax : Nat) (s : State),
      let t := s.elapse dt
      ∀ l, (t.longs.find? fun l => l.code = 0x803 && l.res = 0x72 + u.val) = some l → t.now < l.t0 + 1000000000 →
        ∀ ok, ok = (if u.val = 0 then (true, t.dev.unitsOk.2) else (t.dev.unitsOk.1, true)) →
      exec (.requalifyDone dt (.unit u) 0 loopMin loopMax) s = .next (({ t with
          dev := { t.dev with unitsOk := ok },
          keep := { t.keep with units := t.keep.units.filter (· ≠ u.val) } }.requalExit (0x72 + u.val)).finish l stOk 0 (le 1 0)))

/-- POWER_ON_RESET while PORST_N is low samples the straps and starts the device with the rails in their windows.
PORST_N_FALL and POWER_FAIL hold it in reset. A device reset that is due starts it anew from boot, READY or Rusk mode.
READY_TIMEOUT and a watchdog end a start that has not reached READY; in READY or Rusk mode a watchdog raises 0x106.
FW_LOAD_DONE writes the slot, logs it and completes the FW_LOAD that waits. TOKEN_REFILL adds the tokens of a
millisecond. The rails and the TAP instruction are as their pins give them: pin-driving instructions read as BYPASS
while PORST_N is high. -/
def Obligations.PowerAndStartRowsComplete : Prop :=
  (∀ (dt : Nat) (straps : Straps) (o : BootObs) (s : State),
      let t := s.elapse dt
      t.dev.porst = false →
      exec (.powerOnReset dt straps o) s = .next ({ t with
        dev := { t.dev with
          porst := true, straps := straps, v08 := true, v18 := true, v33 := true,
          tap := if tapDrives t.dev.tap then .idcode else t.dev.tap } }.start .porst o)) ∧
  (∀ (dt : Nat) (s : State),
      let t := s.elapse dt
      t.dev.porst = true →
      exec (.porstNFall dt) s = .next ({ t with dev := { t.dev with porst := false } }.hold)) ∧
  (∀ (dt : Nat) (s : State),
      let t := s.elapse dt
      exec (.powerFail dt) s = .next ({ t with dev := { t.dev with v08 := false } }.hold)) ∧
  (∀ (dt : Nat) (o : BootObs) (s : State),
      let t := s.elapse dt
      t.dev.mode ≠ .held →
      ∀ x, t.resetOrigin = some x →
      exec (.deviceReset dt o) s = .next (t.start x o)) ∧
  (∀ (dt : Nat) (s : State),
      let t := s.elapse dt
      t.starting = true →
      2000000000 ≤ t.now →
      exec (.readyTimeout dt) s = .next (t.failStart 1 0 0)) ∧
  (∀ (dt : Nat) (k : Fin 6) (s : State),
      let t := s.elapse dt
      t.starting = true →
      exec (.watchdog dt k) s = .next (t.failStart 2 0 k)) ∧
  (∀ (dt : Nat) (k : Fin 6) (s : State),
      let t := s.elapse dt
      (t.dev.mode = .ready ∨ t.dev.mode = .rusk) →
      exec (.watchdog dt k) s = .next (t.raise 0x106 0 2 k false 0)) ∧
  (∀ (dt : Nat) (s : State),
      let t := s.elapse dt
      ∀ n f, t.keep.writing = some (n, f) →
        ∀ d, d = (if n = 1 then { t.dev with resultA := 0 } else { t.dev with resultB := 0 }) →
      ∀ u, u = { t with keep := { t.keep.setSlot n f with writing := none }, dev := d }.log 0x22 0 n 0 0 (f.build % 65536) →
      exec (.fwLoadDone dt) s = .next (
        match u.longs.find? fun l => l.code = 0x902 with
        | some l => (u.relayDone l.part l.slot).finish l stOk 0 []
        | none => u)) ∧
  (∀ (dt : Nat) (s : State),
      let t := s.elapse dt
      t.dev.mode = .ready →
      (t.budget.mark + 1) * 1000000 ≤ t.now →
      exec (.tokenRefill dt) s = .next { t with budget := { t.budget with
          mark := t.budget.mark + 1,
          tokens := min (t.par K.powerStartBurst 0) (t.budget.tokens + t.par K.powerStartTokensPerMs 0) } }) ∧
  (∀ (dt : Nat) (inside : Bool) (s : State),
      let t := s.elapse dt
      exec (.ioRailWindowChange dt .v33 inside) s = .next { t with dev := { t.dev with v33 := inside } }) ∧
  (∀ (dt : Nat) (inside : Bool) (s : State),
      let t := s.elapse dt
      exec (.ioRailWindowChange dt .v18 inside) s = .next { t with dev := { t.dev with v18 := inside } }) ∧
  (∀ (dt : Nat) (k : TapInstr) (s : State),
      let t := s.elapse dt
      exec (.tapInstructionUpdate dt k) s = .next { t with dev := { t.dev with tap := if t.dev.porst && tapDrives k then .bypass else k } })

/-- In READY, while no lockstep fault of the supervisor core stands, a monitor sample that is due enters the age record, with a low slack reported and, where it asks for it,
a slower CORE clock; a plan that is due decides on the CORE frequency, the channels and the rows; a CORE change is
applied; a history summary that is due adds its records to the rings; a keep-store scan that is due reports the weak
words, or refreshes them in mode 1. -/
def Obligations.AgeRowsComplete : Prop :=
  (∀ (dt : Nat) (x : Sample) (s : State),
      let t := s.elapse dt
      t.dev.mode = .ready →
      t.supHeld = false →
      t.age.sampleAt + 1000000 ≤ t.now →
      ∀ (below : Int → Bool) (u : State), below = (fun v => decide (2 * v < (t.par K.ageCoreGuard 0 : Int))) →
        u = ((({ t with age := t.age.take x t.now }.lifetime x).levels x).lowSlack x.slack below) →
      exec (.monitorSample dt x) s = .next (if below (dom x.slack 0) = true ∧ Config.coreFloor < t.age.mhz ∧ ¬(t.age.wantFast = true ∧ t.age.want.isSome = true) then
        u.wantCore (t.age.mhz - 10) 2 0 true else u)) ∧
  (∀ (dt : Nat) (s : State),
      let t := s.elapse dt
      t.dev.mode = .ready →
      exec (.coreFreqChange dt) s = .next t.applyCore) ∧
  (∀ (dt : Nat) (s : State),
      let t := s.elapse dt
      t.dev.mode = .ready →
      t.supHeld = false →
      t.age.planAt + 1000000000 * t.par K.agePlanPeriod 0 ≤ t.now →
      ∀ u v : State, u = (if t.age.slackPer.isEmpty then t else
          t.lowSlack t.age.slackPer fun x => decide (x < (t.par K.ageCoreGuard 0 : Int))) →
        v = u.planCore.planChannels.planRows →
      exec (.plan dt) s = .next { v with age := { v.age with
        perLast := dom t.age.slackPer 0, perLastMhz := t.age.perMhz, slackPer := [], lastPlan := t.clk.time,
        planAt := t.age.planAt + 1000000000 * t.par K.agePlanPeriod 0 } }) ∧
  (∀ (dt : Nat) (s : State),
      let t := s.elapse dt
      t.dev.mode = .ready →
      t.supHeld = false →
      t.age.sumAt + 3600000000000 * t.par K.ageSummaryPeriod 0 ≤ t.now →
      ∀ u v w z : State, u = subjects.foldl (fun y x => y.histDaily (t.summary x.1 x.2)) t →
        v = { u with keep := { u.keep with summaries := t.keep.summaries + 1 } } →
        w = (List.range 32).foldl State.takeDrift
          (if (t.keep.summaries + 1) % 30 = 0 then subjects.foldl (fun y x => y.histLong (v.longRecord x.1 x.2)) v else v) →
        z = (List.range 32).foldl (fun y c => y.modChan c fun ch =>
          { ch with age := { ch.age with loopMin := 0xFFFF, loopMax := 0, tdcOutPer := 0 } }) w →
      exec (.historySummary dt) s = .next { z with age := { z.age with
        slackSum := [], sumN := 0, slackLow := [], ceSum := t.store.ce, ueSum := t.store.ue,
        sumAt := t.age.sumAt + 3600000000000 * t.par K.ageSummaryPeriod 0 } }) ∧
  (∀ (dt : Nat) (x : KsScan) (s : State),
      let t := s.elapse dt
      t.dev.mode = .ready →
      t.supHeld = false →
      t.age.ksAt + 3600000000000 * t.par K.ageKsScan 0 ≤ t.now →
      ∀ u : State, u = { t with age := { t.age with
          margin := x.margin, ksAt := t.age.ksAt + 3600000000000 * t.par K.ageKsScan 0 } } →
      exec (.ksScan dt x) s = .next (if t.par K.ageMode 0 ≠ 1 then
          x.weak.foldl (fun y w => y.noteDecision 5 1 (Config.refreshValues w).1 (Config.refreshValues w).2 w 1) u
        else
          (let v := x.failed.foldl (fun y w => y.raise 0x142 0 2 w false 0) (x.weak.foldl State.refreshWord u)
           if x.weak.isEmpty then v else v.log 0x2B 0 0 0 0 x.weak.length)))

/-- Out of reset, each block read of the management port answers the bytes of its row of Table 14.9, and changes
nothing but what the last log record read was and, for the two fault maps, what R438 says of ALERT_N. No log record,
and in Rusk mode no margins, answers no bytes (log entries 100 and 101). The device answers the Alert Response Address
with 0xB8 while it drives ALERT_N and has not answered, if it wins the arbitration. -/
def Obligations.ManagementReadsComplete : Prop :=
  (∀ (dt : Nat) (s : State),
      let t := s.elapse dt
      t.dev.mode ≠ .held →
      ∀ bs : List Byte, bs = (le 2 0x3264 ++ le 1 0xB0 ++ le 1 (t.ifver 0)) →
      exec (.mgId dt) s = .next ({ t with out := { bytes := bs, poisoned := false } })) ∧
  (∀ (dt : Nat) (s : State),
      let t := s.elapse dt
      t.dev.mode ≠ .held →
      ∀ bs : List Byte, bs = (le 1 t.dev.mode.code ++ le 1 t.keep.fails ++ le 1 t.dev.ruskReason ++ le 1 t.pinsByte ++
        le 2 t.keep.boot ++ zs 2) →
      exec (.mgState dt) s = .next ({ t with out := { bytes := bs, poisoned := false } })) ∧
  (∀ (dt : Nat) (s : State),
      let t := s.elapse dt
      t.dev.mode ≠ .held →
      ∀ bs : List Byte, bs = (t.halfMap false fun x => x.st = .fault) →
      exec (.mgFaultLo dt) s = .next ({ t with out := { bytes := bs, poisoned := false } }.alertRead false)) ∧
  (∀ (dt : Nat) (s : State),
      let t := s.elapse dt
      t.dev.mode ≠ .held →
      ∀ bs : List Byte, bs = (t.halfMap true fun x => x.st = .fault) →
      exec (.mgFaultHi dt) s = .next ({ t with out := { bytes := bs, poisoned := false } }.alertRead true)) ∧
  (∀ (dt : Nat) (s : State),
      let t := s.elapse dt
      t.dev.mode ≠ .held →
      ∀ bs : List Byte, bs = (t.halfMap false fun x => x.latched) →
      exec (.mgLatchedLo dt) s = .next ({ t with out := { bytes := bs, poisoned := false } })) ∧
  (∀ (dt : Nat) (s : State),
      let t := s.elapse dt
      t.dev.mode ≠ .held →
      ∀ bs : List Byte, bs = (t.halfMap true fun x => x.latched) →
      exec (.mgLatchedHi dt) s = .next ({ t with out := { bytes := bs, poisoned := false } })) ∧
  (∀ (dt : Nat) (s : State),
      let t := s.elapse dt
      t.dev.mode ≠ .held →
      t.dev.mode ≠ .rusk →
      exec (.mgMargin dt) s = .next { t with out := { bytes := t.ageHeader.take 32, poisoned := false } }) ∧
  (∀ (dt : Nat) (s : State),
      let t := s.elapse dt
      t.dev.mode = .rusk →
      exec (.mgMargin dt) s = .next { t with out := { bytes := [], poisoned := false } }) ∧
  (∀ (dt : Nat) (s : State),
      let t := s.elapse dt
      t.dev.mode ≠ .held →
      ∀ r, t.keep.log.getLast? = some r →
      exec (.mgLogNewest dt) s = .next { t with fc := { t.fc with mgLast := some r.seq }, out := { bytes := r.bytes, poisoned := false } }) ∧
  (∀ (dt : Nat) (s : State),
      let t := s.elapse dt
      t.dev.mode ≠ .held →
      t.keep.log = [] →
      exec (.mgLogNewest dt) s = .next { t with out := { bytes := [], poisoned := false } }) ∧
  (∀ (dt : Nat) (s : State),
      let t := s.elapse dt
      t.dev.mode ≠ .held →
      ∀ k r, t.fc.mgLast = some k → t.keep.log.find? (fun x => x.seq + 1 = k) = some r →
      exec (.mgLogPrev dt) s = .next { t with fc := { t.fc with mgLast := some r.seq }, out := { bytes := r.bytes, poisoned := false } }) ∧
  (∀ (dt : Nat) (s : State),
      let t := s.elapse dt
      t.dev.mode ≠ .held →
      (∀ k r, t.fc.mgLast = some k → r ∈ t.keep.log → r.seq + 1 ≠ k) →
      exec (.mgLogPrev dt) s = .next { t with out := { bytes := [], poisoned := false } }) ∧
  (∀ (dt : Nat) (s : State),
      let t := s.elapse dt
      t.dev.mode ≠ .held →
      t.fc.alert = true →
      t.fc.alertAns = false →
      exec (.alertResponse dt true) s = .next { t with fc := { t.fc with alertAns := true }, out := { bytes := [0xB8], poisoned := false } }) ∧
  (∀ (dt : Nat) (wins : Bool) (s : State),
      let t := s.elapse dt
      t.dev.mode ≠ .held →
      (t.fc.alert = false ∨ t.fc.alertAns = true ∨ wins = false) →
      exec (.alertResponse dt wins) s = .next { t with out := { bytes := [], poisoned := false } })

/-- An access that reaches its partition acts on the register that it names: EVT_TAIL, HB, PRESET, an aperture
selector, IRQ_ENABLE, and ERR_COUNT, whose read answers the counts and clears them. A write to the control window of
four aligned bytes of a register, through PCIe, is the write of that register. An access to the store window is
performed. A function-level reset, a hot reset and a link that goes down start partition resets where the link is up.
A heartbeat becomes late after half its timeout, and expires after all of it: its queues are flushed, its source
raised, and its fallback goes to the data plane, where it applies and is told. -/
def Obligations.HostPortRowsComplete : Prop :=
  (∀ (dt : Nat) (w : Via) (v : W32) (s : State),
      let t := s.elapse dt
      t.reaches w = true →
      exec (.evtTailWrite dt w v) s = .next (t.writeEvtTail w.part v.toNat)) ∧
  (∀ (dt : Nat) (w : Via) (v : W32) (s : State),
      let t := s.elapse dt
      t.reaches w = true →
      exec (.hbWrite dt w v) s = .next (t.writeHb w.part v.toNat)) ∧
  (∀ (dt : Nat) (w : Via) (v : W32) (s : State),
      let t := s.elapse dt
      t.reaches w = true →
      exec (.presetKey dt w v) s = .next (t.writePreset w.part v.toNat)) ∧
  (∀ (dt : Nat) (w : Via) (n : Fin 4) (v : W32) (s : State),
      let t := s.elapse dt
      t.reaches w = true →
      exec (.apSelect dt w n v) s = .next (t.writeAp w.part n v.toNat)) ∧
  (∀ (dt : Nat) (w : Via) (v : W32) (s : State),
      let t := s.elapse dt
      t.reaches w = true →
      exec (.irqEnableWrite dt w v) s = .next (t.writeIrqEnable w.part v.toNat)) ∧
  (∀ (dt : Nat) (w : Via) (s : State),
      let t := s.elapse dt
      t.reaches w = true →
      exec (.errCountRead dt w) s = .next { t.clearErr w.part with out := { bytes := le 4 (t.regRead w.part 0x0C), poisoned := false } }) ∧
  (∀ (dt : Nat) (w : Via) (off : Nat) (bs : List Byte) (s : State),
      let t := s.elapse dt
      t.reaches w = true →
      portPcie w.port = true →
      isReg off = true →
      off % 4 = 0 →
      bs.length = 4 →
      exec (.registerWrite dt w off bs) s = .next (t.regWrite w.part off (rd bs 0 4))) ∧
  (∀ (dt : Nat) (w : Via) (off : Nat) (bs : List Byte) (s : State),
      let t := s.elapse dt
      t.reaches w = true →
      portPcie w.port = true →
      off + bs.length ≤ 0x2000000 →
      off < 0x2000000 →
      exec (.storeWindowAccess dt { via := w, window := .store, offset := off, phase := .write bs, early := false }) s = .next (t.winWrite w.part .store off bs false)) ∧
  (∀ (dt : Nat) (w : Via) (off n : Nat) (s : State),
      let t := s.elapse dt
      t.reaches w = true →
      portPcie w.port = true →
      off + n ≤ 0x2000000 →
      off < 0x2000000 →
      ∀ r, r = t.winRead w.part .store off n false →
      exec (.storeWindowAccess dt { via := w, window := .store, offset := off, phase := .read n, early := false }) s = .next { r.2.2 with out := { bytes := fit n r.1, poisoned := r.2.1 } }) ∧
  (∀ (dt : Nat) (p : Fin 8) (s : State),
      let t := s.elapse dt
      t.served p = true →
      portPcie (t.portOf p) = true →
      t.portOf p ∉ t.linksDown →
      exec (.functionLevelReset dt p) s = .next (t.startReset p 2)) ∧
  (∀ (dt : Nat) (l : Port) (s : State),
      let t := s.elapse dt
      portPcie l = true →
      l ∉ t.linksDown →
      exec (.hotReset dt l) s = .next (t.resetLink l)) ∧
  (∀ (dt : Nat) (l : Port) (s : State),
      let t := s.elapse dt
      portPcie l = true →
      l ∉ t.linksDown →
      t.dev.mode ≠ .held →
      exec (.linkDown dt l) s = .next ({ t with linksDown := t.linksDown ++ [l] }.resetLink l)) ∧
  (∀ (dt : Nat) (l : Port) (s : State),
      let t := s.elapse dt
      exec (.linkUp dt l) s = .next { t with linksDown := t.linksDown.filter (· ≠ l) }) ∧
  (∀ (dt : Nat) (p : Fin 8) (s : State),
      let t := s.elapse dt
      (t.part p).hb = .ok →
      (t.part p).resetting = none →
      (t.part p).hbAt + 500000 * t.par K.partHbTimeout p ≤ t.now →
      exec (.hbLate dt p) s = .next (((t.modPart p fun y => { y with hb := .late }).irqCause p 3).event p 0x0002 p [])) ∧
  (∀ (dt : Nat) (p : Fin 8) (s : State),
      let t := s.elapse dt
      ((t.part p).hb = .ok ∨ (t.part p).hb = .late) →
      (t.part p).resetting = none →
      (t.part p).hbAt + 1000000 * t.par K.partHbTimeout p ≤ t.now →
      ∀ (k : Nat) (exceeds : Bool) (u : State), k = t.par K.partHbTarget p →
        exceeds = (decide (t.par K.partHbFallback p = 2) && t.served k && decide (k ≠ p.val) && decide ((t.part k).hb ≠ .expired)) →
        u = ((((List.range 64).foldl (fun y n =>
          if t.par K.qOwner n = p ∧ t.par K.qDir n ≠ 1 then y.flush n 1 false else y)
          ((t.modPart p fun y => { y with hb := .expired }).irqCause p 4)).condOn (0x48 + p) 0 0).raiseU (0x48 + p) 0 1 p true 0) →
      ∀ f : Fallback, f = (if t.par K.partHbFallback p = 1 then .hold else .stop) →
      exec (.hbExpired dt p) s = .next (u.postUpdate (if exceeds then .handOver p k else .fallback p f true))) ∧
  (∀ (s : State) (p : Nat) (f : Fallback),
      s.applyUpdate (.fallback p f true) = (s.applyFallback p f).event p 0x0003 p (le 1 (if f = .hold then 1 else 0) ++ le 1 0xFF)) ∧
  (∀ (s : State) (p k : Nat),
      s.applyUpdate (.handOver p k) = ((s.handOverAll p k).event p 0x0003 p (le 1 2 ++ le 1 k)).event k 0x0005 p
        (le 2 (s.chansOf p).length ++ le 2 (s.axesOwned p).length))

/-- A served GET_INFO, PART_STATUS, RIGHTS_LIST, PARAM_LOOKUP, EPOCH_STATUS, CHAN_STATUS, LC_READ, LAT_STATUS,
SYNC_STATUS, Q_STATUS, STORE_STATUS, FAULT_SUMMARY or BOOT_STATUS leaves every register, queue, channel, coordinate,
axis, fault record, parameter, right, staged set, pending commit and every byte of the store as it was: only time
passes, with the wraps it logs, and the slot of the sender takes the response. -/
def Obligations.ReportsChangeOnlyTheirAnswer : Prop :=
  ∀ (dt : Nat) (m : Mbox) (s u : State),
    (Serves cmdGetInfo dt m s → exec (.getInfo dt m) s = .next u → AnswerOnly m.via.part s u) ∧
    (Serves cmdPartStatus dt m s → exec (.partStatus dt m) s = .next u → AnswerOnly m.via.part s u) ∧
    (Serves cmdRightsList dt m s → exec (.rightsList dt m) s = .next u → AnswerOnly m.via.part s u) ∧
    (Serves cmdParamLookup dt m s → exec (.paramLookup dt m) s = .next u → AnswerOnly m.via.part s u) ∧
    (Serves cmdEpochStatus dt m s → exec (.epochStatus dt m) s = .next u → AnswerOnly m.via.part s u) ∧
    (Serves cmdChanStatus dt m s → exec (.chanStatus dt m) s = .next u → AnswerOnly m.via.part s u) ∧
    (Serves cmdLcRead dt m s → exec (.lcRead dt m) s = .next u → AnswerOnly m.via.part s u) ∧
    (Serves cmdLatStatus dt m s → exec (.latStatus dt m) s = .next u → AnswerOnly m.via.part s u) ∧
    (Serves cmdSyncStatus dt m s → exec (.syncStatus dt m) s = .next u → AnswerOnly m.via.part s u) ∧
    (Serves cmdQStatus dt m s → exec (.qStatus dt m) s = .next u → AnswerOnly m.via.part s u) ∧
    (Serves cmdStoreStatus dt m s → exec (.storeStatus dt m) s = .next u → AnswerOnly m.via.part s u) ∧
    (Serves cmdFaultSummary dt m s → exec (.faultSummary dt m) s = .next u → AnswerOnly m.via.part s u) ∧
    (Serves cmdBootStatus dt m s → exec (.bootStatus dt m) s = .next u → AnswerOnly m.via.part s u)

/-- A served ADMIT_REPORT, RULE_READ, SCHED_READ, SIG_READ, LOG_READ, BOOT_RECORDS, AGE_REPORT or AGE_HISTORY leaves
every byte of the store outside the bulk range of its request as it was, and everything else but its answer. -/
def Obligations.BulkReportsWriteOnlyTheirRange : Prop :=
  ∀ (dt : Nat) (m : Mbox) (s u : State),
    (Serves cmdAdmitReport dt m s → exec (.admitReport dt m) s = .next u → BulkOnly m.via.part (s.bulkBase m.via.part + m.rq.bulkOff.toNat) m.rq.bulkLen.toNat s u) ∧
    (Serves cmdRuleRead dt m s → exec (.ruleRead dt m) s = .next u → BulkOnly m.via.part (s.bulkBase m.via.part + m.rq.bulkOff.toNat) m.rq.bulkLen.toNat s u) ∧
    (Serves cmdSchedRead dt m s → exec (.schedRead dt m) s = .next u → BulkOnly m.via.part (s.bulkBase m.via.part + m.rq.bulkOff.toNat) m.rq.bulkLen.toNat s u) ∧
    (Serves cmdSigRead dt m s → exec (.sigRead dt m) s = .next u → BulkOnly m.via.part (s.bulkBase m.via.part + m.rq.bulkOff.toNat) m.rq.bulkLen.toNat s u) ∧
    (Serves cmdLogRead dt m s → exec (.logRead dt m) s = .next u → BulkOnly m.via.part (s.bulkBase m.via.part + m.rq.bulkOff.toNat) m.rq.bulkLen.toNat s u) ∧
    (Serves cmdBootRecords dt m s → exec (.bootRecords dt m) s = .next u → BulkOnly m.via.part (s.bulkBase m.via.part + m.rq.bulkOff.toNat) m.rq.bulkLen.toNat s u) ∧
    (Serves cmdAgeReport dt m s → exec (.ageReport dt m) s = .next u → BulkOnly m.via.part (s.bulkBase m.via.part + m.rq.bulkOff.toNat) m.rq.bulkLen.toNat s u) ∧
    (Serves cmdAgeHistory dt m s → exec (.ageHistory dt m) s = .next u → BulkOnly m.via.part (s.bulkBase m.via.part + m.rq.bulkOff.toNat) m.rq.bulkLen.toNat s u)

/-- A served CHAN_CONFIG, OBJ_DEFINE, RULE_STAGE, SCHED_STAGE, SCHED_CLEAR, SIG_STAGE, SIG_CLEAR, AX_DEFINE or
STAGE_DISCARD leaves everything but its answer and the staged configuration of its own partition as it was: no value
in force, no other partition's stage, and no byte of the store changes; a lane of a configuration copy may cease to be
poisoned, for its staged content is written anew. -/
def Obligations.StagingChangesOnlyTheStage : Prop :=
  ∀ (dt : Nat) (m : Mbox) (s u : State),
    (Serves cmdChanConfig dt m s → exec (.chanConfig dt m) s = .next u → StageOnly m.via.part s u) ∧
    (Serves cmdObjDefine dt m s → exec (.objDefine dt m) s = .next u → StageOnly m.via.part s u) ∧
    (Serves cmdRuleStage dt m s → exec (.ruleStage dt m) s = .next u → StageOnly m.via.part s u) ∧
    (Serves cmdSchedStage dt m s → exec (.schedStage dt m) s = .next u → StageOnly m.via.part s u) ∧
    (Serves cmdSchedClear dt m s → exec (.schedClear dt m) s = .next u → StageOnly m.via.part s u) ∧
    (Serves cmdSigStage dt m s → exec (.sigStage dt m) s = .next u → StageOnly m.via.part s u) ∧
    (Serves cmdSigClear dt m s → exec (.sigClear dt m) s = .next u → StageOnly m.via.part s u) ∧
    (Serves cmdAxDefine dt m s → exec (.axDefine dt m) s = .next u → StageOnly m.via.part s u) ∧
    (Serves cmdStageDiscard dt m s → exec (.stageDiscard dt m) s = .next u → StageOnly m.via.part s u)

/-- A block read of the management port, or of the Alert Response Address, leaves everything but TIME, with the wraps
it logs, the plane event rings, the bytes it answers, the last log record read and the state of ALERT_N as it was: no latched fault, no fault
record and no part of the device that a host sees changes. -/
def Obligations.ManagementReadsOnlyReport : Prop :=
  ∀ (dt : Nat) (s u : State) (i : Instr),
    (i = .mgId dt ∨ i = .mgState dt ∨ i = .mgFaultLo dt ∨ i = .mgFaultHi dt ∨ i = .mgLatchedLo dt ∨ i = .mgLatchedHi dt ∨
      i = .mgMargin dt ∨ i = .mgLogNewest dt ∨ i = .mgLogPrev dt ∨ ∃ wins, i = .alertResponse dt wins) →
    exec i s = .next u →
    u = { s with
      clk := u.clk, out := u.out, rings := u.rings
      keep := { s.keep with log := u.keep.log, logSeq := u.keep.logSeq, logLost := u.keep.logLost }
      fc := { s.fc with
        mgLast := u.fc.mgLast, alert := u.fc.alert, alertAns := u.fc.alertAns, alertLo := u.fc.alertLo,
        alertHi := u.fc.alertHi, alertAgain := u.fc.alertAgain } }

/-- An access that reaches its partition and writes EVT_TAIL, an aperture selector or IRQ_ENABLE, or reads ERR_COUNT,
leaves everything but TIME, with the wraps it logs, the plane event rings, the bytes it answers and the window of that
partition as it was.
In the window it leaves the slots, the DONE bits, the heartbeat and the event head; a value of EVT_TAIL outside what
has been written is ignored and counted (the model's reading: log entry 106). -/
def Obligations.RegisterWritesStayInTheirWindow : Prop :=
  ∀ (dt : Nat) (w : Via) (s u : State) (i : Instr), (s.elapse dt).reaches w = true →
    ((∃ v, i = .evtTailWrite dt w v) ∨ (∃ n v, i = .apSelect dt w n v) ∨ (∃ v, i = .irqEnableWrite dt w v) ∨
      i = .errCountRead dt w) → exec i s = .next u →
    u = { s with
      clk := u.clk, out := u.out, parts := u.parts, rings := u.rings
      keep := { s.keep with log := u.keep.log, logSeq := u.keep.logSeq, logLost := u.keep.logLost } } ∧
    (∀ q, q ≠ w.part.val → u.part q = s.part q) ∧ (u.part w.part).slots = (s.part w.part).slots ∧
    (u.part w.part).done = (s.part w.part).done ∧ (u.part w.part).hb = (s.part w.part).hb ∧
    (u.part w.part).evtHead = (s.part w.part).evtHead

/-- A write of a control register through PCIe: a 1 clears a bit of MBOX_DONE, Q_NOTIFY_LO, Q_NOTIFY_HI and IRQ_STATUS
and a 0 leaves it; IRQ_VECTOR takes its 24 defined bits and reads its reserved bits as 0; a write to a read-only
register of the window (ID, IFVER, STATE, ERR_COUNT, EVT_HEAD, HB_STATUS) changes nothing. -/
def Obligations.RegistersFollowTheirAccessCodes : Prop :=
  ∀ (dt : Nat) (w : Via) (off : Nat) (bs : List Byte) (s : State),
    let t := s.elapse dt
    let p := w.part.val
    let v := rd bs 0 4
    t.reaches w = true → portPcie w.port = true → bs.length = 4 →
    (off = 0x014 → exec (.registerWrite dt w off bs) s = .next (t.modPart p fun x =>
      { x with done := x.done &&& ~~~(BitVec.ofNat 16 v) })) ∧
    (off = 0x020 → exec (.registerWrite dt w off bs) s = .next (t.modPart p fun x =>
      { x with qNotify := x.qNotify &&& ~~~(BitVec.ofNat 64 v) })) ∧
    (off = 0x024 → exec (.registerWrite dt w off bs) s = .next (t.modPart p fun x =>
      { x with qNotify := x.qNotify &&& ~~~(BitVec.ofNat 64 (v * 0x100000000)) })) ∧
    (off = 0x028 → exec (.registerWrite dt w off bs) s = .next (t.modPart p fun x =>
      { x with irqSet := x.irqSet &&& ~~~(BitVec.ofNat 8 v) })) ∧
    (off = 0x030 → ∃ u, exec (.registerWrite dt w off bs) s = .next u ∧
      u = (t.modPart p fun x => { x with irqVector := BitVec.ofNat 32 (v % 0x1000000) })) ∧
    ((off = 0x000 ∨ off = 0x004 ∨ off = 0x008 ∨ off = 0x00C ∨ off = 0x034 ∨ off = 0x040) →
      exec (.registerWrite dt w off bs) s = .next t)

/-- An event for a served partition, outside Rusk mode: while fewer than 1,024 events are unread, the 64 bytes of the
entry stand at 64 x (head mod 1,024) of the partition's event ring, with the count of lost events in its lost field,
the head advances by one, the lost count is 0 and every byte outside the entry is as before; with 1,024 unread,
nothing is written, and the lost count rises by one up to 0xFFFF. -/
def Obligations.EventRingKeepsUnreadEvents : Prop :=
  ∀ (s : State) (p ty index : Nat) (payload : List Byte), p < 8 → s.served p = true → s.dev.mode ≠ .rusk →
    Memory.wf s.store.mem = true →
    let x := s.part p
    let t := s.event p ty index payload
    let a := Config.eventRings + 0x10000 * p + 64 * (x.evtHead.toNat % 1024)
    (x.unread < 1024 → (t.part p).evtHead = x.evtHead + 1 ∧ (t.part p).evtLost = 0 ∧ (t.part p).evtTail = x.evtTail ∧
      t.storeRead a 64 = le 2 ty ++ le 2 x.evtLost ++ le 4 x.evtHead.toNat ++ le 8 s.clk.time.toNat ++
        le 1 s.clk.gen.toNat ++ zs 1 ++ le 2 index ++ zs 4 ++ fit 40 payload ∧
      ∀ b, (b < a ∨ a + 64 ≤ b) → SMap.get 0 t.store.mem b = SMap.get 0 s.store.mem b) ∧
    (1024 ≤ x.unread → t.store = s.store ∧ (t.part p).evtHead = x.evtHead ∧ (t.part p).evtTail = x.evtTail ∧
      (t.part p).evtLost = min 0xFFFF (x.evtLost + 1))

/-- R382: in READY, once 2 ms have passed since the last renewal, ALIVE_RENEWAL_MISSED stops ALIVE at low and raises
source 0x107 as permanent, and nothing else of the state changes; ALIVE then stays low in every state in which the
renewal is still missed, while a renewal 1 ms after the last leaves no renewal missed, so that within the next 2 ms
none can be. -/
def Obligations.MissedRenewalStopsAlive : Prop :=
  (∀ (dt : Nat) (s : State),
      let t := s.elapse dt
      t.dev.mode = .ready → t.fc.aliveMiss = false → t.fc.renewAt + 2000000 ≤ t.now →
      ∃ u r, exec (.aliveRenewalMissed dt) s = .next u ∧ u.alive = .low ∧ r.src = 0x107 ∧ r.cls = 2 ∧
        u = { t with fc := { t.fc with aliveMiss := true, raised := t.fc.raised ++ [r] } }) ∧
    (∀ s : State, s.fc.aliveMiss = true → s.dev.mode = .ready → s.alive = .low) ∧
    (∀ (dt dt' : Nat) (s u : State), exec (.aliveRenewal dt) s = .next u → u.fc.aliveMiss = false ∧
      (10 * dt' < 2000000 → exec (.aliveRenewalMissed dt') u = .next (u.elapse dt')))

/-- While the device drives ALERT_N low, a lost arbitration at the Alert Response Address leaves ALERT_N low and the
answer due, a won one answers 0xB8. After the answer, reading one of MG_FAULT_LO and MG_FAULT_HI keeps ALERT_N low;
reading the second releases it, unless an ALERT reaction was taken after the answer: then ALERT_N is low again and the
next answer is due. -/
def Obligations.AlertIsHeldUntilBothMapsAreRead : Prop :=
  ∀ (dt : Nat) (s : State),
    let t := s.elapse dt
    t.dev.mode ≠ .held → t.fc.alert = true →
    (t.fc.alertAns = false →
      (∃ u, exec (.alertResponse dt false) s = .next u ∧ u.fc = t.fc ∧ u.out.bytes = []) ∧
      (∃ u, exec (.alertResponse dt true) s = .next u ∧ u.fc = { t.fc with alertAns := true } ∧ u.out.bytes = [0xB8]) ∧
      (∃ u, exec (.mgFaultLo dt) s = .next u ∧ u.fc = t.fc) ∧ (∃ u, exec (.mgFaultHi dt) s = .next u ∧ u.fc = t.fc)) ∧
    (t.fc.alertAns = true → t.fc.alertHi = false →
      (∃ u, exec (.mgFaultLo dt) s = .next u ∧ u.fc = { t.fc with alertLo := true }) ∧
      (t.fc.alertLo = true → ∃ u, exec (.mgFaultHi dt) s = .next u ∧ u.fc =
        { t.fc with alert := t.fc.alertAgain, alertAgain := false, alertAns := false, alertLo := false, alertHi := false })) ∧
    (t.fc.alertAns = true → t.fc.alertLo = false →
      (∃ u, exec (.mgFaultHi dt) s = .next u ∧ u.fc = { t.fc with alertHi := true }) ∧
      (t.fc.alertHi = true → ∃ u, exec (.mgFaultLo dt) s = .next u ∧ u.fc =
        { t.fc with alert := t.fc.alertAgain, alertAgain := false, alertAns := false, alertLo := false, alertHi := false }))

/-- R407: the commands that Rusk mode serves are exactly GET_INFO, BOOT_STATUS, BOOT_RECORDS, FW_LOAD,
BOOT_CLEAR_FAILURES and DEV_RESTART. In Rusk mode every other command of the table, once its request is the one that the
control core starts next, with a length within the slot, is answered UNSUPPORTED with no other effect; and so is, in
every mode, a code that is no command, while no lockstep fault of the control core stands. -/
def Obligations.RuskServesSixCommands : Prop :=
  (∀ (i : Instr) (d : CmdDef) (dt : Nat) (m : Mbox), i.request = some (d, dt, m) →
    (d.rusk = true ↔ i = .getInfo dt m ∨ i = .bootStatus dt m ∨ i = .bootRecords dt m ∨ i = .fwLoad dt m ∨
      i = .bootClearFailures dt m ∨ i = .devRestart dt m) ∧
    ∀ s : State, d.rusk = false → (s.elapse dt).dev.mode = .rusk → (s.elapse dt).reaches m.via = true →
      ((s.offered d.code dt m).part m.via.part.val).accepted = [acceptedOf d.code m] →
      (s.offered d.code dt m).nextPart = some m.via.part.val →
      m.rq.length.toNat ≤ 496 →
      exec i s = .next (((s.inHand d.code dt m).respond m.via.part.val m.slot.val d.code m.rq.tag stUnsupported 0 []).drain
        m.via.part.val 16)) ∧
    (∀ (s : State) (p n : Nat) (a : Accepted) (rest : List Accepted), (s.part p).accepted = a :: rest →
      knownCode a.code = false → s.blocked p = false → s.ctlHeld = false → a.rq.length.toNat ≤ 496 →
      s.drain p (n + 1) = ((s.modPart p fun x => { x with accepted := rest }).respond p a.slot a.code a.rq.tag stUnsupported
        0 []).drain p n)

/-- PORST_N_FALL, while PORST_N is high, and POWER_FAIL put everything but the keep store, the straps, the rails and
the TAP instruction into the state of reset, with ALIVE and FAULT_N low. The keep store keeps its log, retirements,
history and failure counter. A firmware slot that FW_LOAD is writing is then invalid, with a result code the spec
leaves open (log entry 21), the other slot is unchanged, and the abandoned write is noted for the next start. -/
def Obligations.PowerLossKeepsOnlyTheKeepStore : Prop :=
  ∀ (dt : Nat) (s : State) (i : Instr),
    let t := s.elapse dt
    ((i = .porstNFall dt ∧ t.dev.porst = true) ∨ i = .powerFail dt) →
    ∃ u, exec i s = .next u ∧ u.alive = .low ∧ u.faultN = true ∧
      u = { State.reset with
        keep := u.keep
        dev := { Dev.reset with
          porst := u.dev.porst, straps := t.dev.straps, v08 := u.dev.v08, v18 := t.dev.v18, v33 := t.dev.v33, tap := t.dev.tap }
        out := t.out, fresh := t.fresh, pending := t.pending } ∧
      (i = .porstNFall dt → u.dev.porst = false ∧ u.dev.v08 = t.dev.v08) ∧
      (i = .powerFail dt → u.dev.porst = t.dev.porst ∧ u.dev.v08 = false) ∧
      u.keep = { t.keep with
        slotA := u.keep.slotA, slotB := u.keep.slotB, writing := none, isOpen := false, interrupted := u.keep.interrupted } ∧
      (t.keep.writing = none → u.keep.slotA = t.keep.slotA ∧ u.keep.slotB = t.keep.slotB ∧
        u.keep.interrupted = t.keep.interrupted) ∧
      (∀ n f, t.keep.writing = some (n, f) → u.keep.interrupted = true ∧ (u.keep.slot n).code ≠ 0 ∧
        (n = 1 → u.keep.slotB = t.keep.slotB) ∧ (n ≠ 1 → u.keep.slotA = t.keep.slotA))
end

