-- ==== Sys2Proof/Laws/Maps.lean ====
section
/-! SUPPORT. Sparse maps, tables and the bytes of the store: what a read gives after a write, and that every operation
keeps the canonical form. -/
namespace Sys2Proof

variable {α : Type}

/-! ### Look-up after a change -/

theorem SMap.find_put_self (m : SMap α) (k : Nat) (v : α) : SMap.find? (SMap.put m k v) k = some v := by
  induction m with
  | nil => simp [SMap.put, SMap.find?]
  | cons x m ih =>
    unfold SMap.put
    split
    · simp [SMap.find?]
    · split
      · simp [SMap.find?]
      · have h : ¬ x.1 = k := by omega
        simp [SMap.find?, h, ih]

theorem SMap.find_put_other (m : SMap α) {j k : Nat} (v : α) (h : j ≠ k) :
    SMap.find? (SMap.put m k v) j = SMap.find? m j := by
  induction m with
  | nil => simp [SMap.put, SMap.find?, Ne.symm h]
  | cons x m ih =>
    unfold SMap.put
    split
    · rw [SMap.find?, if_neg (Ne.symm h)]
    · split
      · subst k
        simp [SMap.find?, Ne.symm h]
      · simp only [SMap.find?, ih]

theorem SMap.find_erase_other (m : SMap α) {j k : Nat} (h : j ≠ k) :
    SMap.find? (SMap.erase m k) j = SMap.find? m j := by
  induction m with
  | nil => rfl
  | cons x m ih =>
    unfold SMap.erase
    split
    · next e => subst e; rw [SMap.find?, if_neg (Ne.symm h)]
    · simp only [SMap.find?, ih]

/-! ### The canonical form -/

section wf
variable [DecidableEq α] {d : α}

theorem SMap.wfFrom_mono {m : SMap α} {lo lo' : Nat} (h : SMap.wfFrom d lo m = true) (le : lo' ≤ lo) :
    SMap.wfFrom d lo' m = true := by
  cases m with
  | nil => rfl
  | cons x m =>
    simp only [SMap.wfFrom, Bool.and_eq_true, decide_eq_true_eq] at h ⊢
    exact ⟨⟨by omega, h.1.2⟩, h.2⟩

theorem SMap.find_below {m : SMap α} {lo k : Nat} (h : SMap.wfFrom d lo m = true) (lt : k < lo) :
    SMap.find? m k = none := by
  induction m generalizing lo with
  | nil => rfl
  | cons x m ih =>
    simp only [SMap.wfFrom, Bool.and_eq_true, decide_eq_true_eq] at h
    have hx : ¬ x.1 = k := by omega
    rw [SMap.find?, if_neg hx]
    exact ih h.2 (by omega)

theorem SMap.find_erase_self {m : SMap α} {lo : Nat} (k : Nat) (h : SMap.wfFrom d lo m = true) :
    SMap.find? (SMap.erase m k) k = none := by
  induction m generalizing lo with
  | nil => rfl
  | cons x m ih =>
    simp only [SMap.wfFrom, Bool.and_eq_true, decide_eq_true_eq] at h
    unfold SMap.erase
    split
    · next e => exact SMap.find_below h.2 (by omega)
    · next e => rw [SMap.find?, if_neg e]; exact ih h.2

theorem SMap.wfFrom_put {m : SMap α} {lo k : Nat} {v : α} (h : SMap.wfFrom d lo m = true) (le : lo ≤ k) (hv : v ≠ d) :
    SMap.wfFrom d lo (SMap.put m k v) = true := by
  induction m generalizing lo with
  | nil => simp [SMap.put, SMap.wfFrom, le, hv]
  | cons x m ih =>
    simp only [SMap.wfFrom, Bool.and_eq_true, decide_eq_true_eq] at h
    unfold SMap.put
    split
    · simp only [SMap.wfFrom, Bool.and_eq_true, decide_eq_true_eq]
      exact ⟨⟨le, hv⟩, ⟨by omega, h.1.2⟩, h.2⟩
    · split
      · next e =>
        subst k
        simp only [SMap.wfFrom, Bool.and_eq_true, decide_eq_true_eq]
        exact ⟨⟨le, hv⟩, h.2⟩
      · simp only [SMap.wfFrom, Bool.and_eq_true, decide_eq_true_eq]
        exact ⟨h.1, ih h.2 (by omega)⟩

theorem SMap.wfFrom_erase {m : SMap α} {lo : Nat} (k : Nat) (h : SMap.wfFrom d lo m = true) :
    SMap.wfFrom d lo (SMap.erase m k) = true := by
  induction m generalizing lo with
  | nil => rfl
  | cons x m ih =>
    simp only [SMap.wfFrom, Bool.and_eq_true, decide_eq_true_eq] at h
    unfold SMap.erase
    split
    · exact SMap.wfFrom_mono h.2 (by omega)
    · simp only [SMap.wfFrom, Bool.and_eq_true, decide_eq_true_eq]
      exact ⟨h.1, ih h.2⟩

/-- Setting a key keeps the canonical form. -/
theorem SMap.wf_set {m : SMap α} (k : Nat) (v : α) (h : SMap.wf d m = true) : SMap.wf d (SMap.set d m k v) = true := by
  unfold SMap.set
  split
  · exact SMap.wfFrom_erase k h
  · next hv => exact SMap.wfFrom_put h (Nat.zero_le k) hv

/-- Changing the value under a key keeps the canonical form. -/
theorem SMap.wf_mod {m : SMap α} (k : Nat) (f : α → α) (h : SMap.wf d m = true) : SMap.wf d (SMap.mod d m k f) = true :=
  SMap.wf_set k _ h

theorem SMap.get_set_self {m : SMap α} (k : Nat) (v : α) (h : SMap.wf d m = true) :
    SMap.get d (SMap.set d m k v) k = v := by
  unfold SMap.get SMap.set
  split
  · next e => rw [SMap.find_erase_self k h, e]; rfl
  · rw [SMap.find_put_self]; rfl

theorem SMap.get_set_other (m : SMap α) {j k : Nat} (v : α) (h : j ≠ k) :
    SMap.get d (SMap.set d m k v) j = SMap.get d m j := by
  unfold SMap.get SMap.set
  split
  · rw [SMap.find_erase_other m h]
  · rw [SMap.find_put_other m v h]

theorem SMap.get_mod_self {m : SMap α} (k : Nat) (f : α → α) (h : SMap.wf d m = true) :
    SMap.get d (SMap.mod d m k f) k = f (SMap.get d m k) := SMap.get_set_self k _ h

theorem SMap.get_mod_other (m : SMap α) {j k : Nat} (f : α → α) (h : j ≠ k) :
    SMap.get d (SMap.mod d m k f) j = SMap.get d m j := SMap.get_set_other m _ h

end wf

/-! ### Tables -/

theorem Tab.get_mod_self {n : Nat} (d : α) (t : Tab α n) (i : Nat) (f : α → α) (h : i < n) :
    Tab.get d (Tab.mod t i f) i = f (Tab.get d t i) := by
  simp [Tab.get, Tab.mod, h]

theorem Tab.get_mod_other {n : Nat} (d : α) (t : Tab α n) {i j : Nat} (f : α → α) (h : j ≠ i) :
    Tab.get d (Tab.mod t i f) j = Tab.get d t j := by
  unfold Tab.get Tab.mod
  split
  · rw [Vector.getElem?_set_ne _ (Ne.symm h)]
  · rfl

theorem Tab.get_outside {n : Nat} (d : α) (t : Tab α n) {i : Nat} (h : n ≤ i) : Tab.get d t i = d := by
  have : t[i]? = none := by simp [h]
  simp [Tab.get, this]

/-- What a table gives at `j` after entry `i` has changed. -/
theorem Tab.get_mod {n : Nat} (d : α) (t : Tab α n) (i j : Nat) (f : α → α) :
    Tab.get d (Tab.mod t i f) j = if j = i ∧ i < n then f (Tab.get d t j) else Tab.get d t j := by
  by_cases h : j = i
  · subst h
    by_cases hn : j < n
    · simp [Tab.get_mod_self, hn]
    · simp [Tab.mod, hn]
  · simp [Tab.get_mod_other _ _ _ h, h]

namespace Machine

/-! ### Bytes of the store -/

/-- Writing bytes keeps the canonical form of the store. -/
theorem memWrite_wf (bs : List Byte) (m : SMap Byte) (a : Nat) (h : Memory.wf m = true) :
    Memory.wf (memWrite m a bs) = true := by
  induction bs generalizing m a with
  | nil => exact h
  | cons b bs ih => exact ih _ _ (SMap.wf_set a b h)

/-- A byte outside the range written reads as before. -/
theorem get_memWrite_outside (bs : List Byte) (m : SMap Byte) (a x : Nat) (h : x < a ∨ a + bs.length ≤ x) :
    SMap.get 0 (memWrite m a bs) x = SMap.get 0 m x := by
  induction bs generalizing m a with
  | nil => rfl
  | cons b bs ih =>
    rw [List.length_cons] at h
    rw [memWrite, ih _ _ (by omega), SMap.get_set_other _ _ (by omega)]

/-- A byte inside the range written reads as it was written. -/
theorem get_memWrite_inside (bs : List Byte) (m : SMap Byte) (a i : Nat) (h : Memory.wf m = true) (hi : i < bs.length) :
    SMap.get 0 (memWrite m a bs) (a + i) = bs[i] := by
  induction bs generalizing m a i with
  | nil => simp at hi
  | cons b bs ih =>
    rw [memWrite]
    cases i with
    | zero => rw [get_memWrite_outside _ _ _ _ (by omega)]; exact SMap.get_set_self a b h
    | succ i =>
      have := ih (SMap.set 0 m a b) (a + 1) i (SMap.wf_set a b h) (by simpa using hi)
      rw [show a + (i + 1) = a + 1 + i by omega, this]; rfl

theorem memRead_length (m : SMap Byte) (a n : Nat) : (memRead m a n).length = n := by
  induction n generalizing a with
  | zero => rfl
  | succ n ih => simp [memRead, ih]

/-- A read gives what the last write to the same range wrote. -/
theorem memRead_memWrite (bs : List Byte) (m : SMap Byte) (a : Nat) (h : Memory.wf m = true) :
    memRead (memWrite m a bs) a bs.length = bs := by
  induction bs generalizing m a with
  | nil => rfl
  | cons b bs ih =>
    have hb : SMap.get 0 (memWrite m a (b :: bs)) a = b := by
      have := get_memWrite_inside (b :: bs) m a 0 h (by simp)
      simpa using this
    rw [List.length_cons, memRead, hb, memWrite, ih _ _ (SMap.wf_set a b h)]

/-- A read of a range that a write leaves alone. -/
theorem memRead_memWrite_outside (bs : List Byte) (m : SMap Byte) (a x n : Nat) (h : x + n ≤ a ∨ a + bs.length ≤ x) :
    memRead (memWrite m a bs) x n = memRead m x n := by
  induction n generalizing x with
  | zero => rfl
  | succ n ih => rw [memRead, memRead, ih _ (by omega), get_memWrite_outside _ _ _ _ (by omega)]

end Machine
end Sys2Proof
end

