-- ==== Sys2Proof/Laws/State.lean ====
section
/-! SUPPORT. What the named updates of the state leave: one lemma per field and update, and what a read of a table gives
after an update of the same table. -/
namespace Sys2Proof.Machine

variable (s : State)

/-! ### modChan -/

@[simp] theorem State.modChan_clk (c : Nat) (f : Chan → Chan) : (s.modChan c f).clk = s.clk := rfl
@[simp] theorem State.modChan_dev (c : Nat) (f : Chan → Chan) : (s.modChan c f).dev = s.dev := rfl
@[simp] theorem State.modChan_linksDown (c : Nat) (f : Chan → Chan) : (s.modChan c f).linksDown = s.linksDown := rfl
@[simp] theorem State.modChan_parts (c : Nat) (f : Chan → Chan) : (s.modChan c f).parts = s.parts := rfl
@[simp] theorem State.modChan_longs (c : Nat) (f : Chan → Chan) : (s.modChan c f).longs = s.longs := rfl
@[simp] theorem State.modChan_store (c : Nat) (f : Chan → Chan) : (s.modChan c f).store = s.store := rfl
@[simp] theorem State.modChan_qs (c : Nat) (f : Chan → Chan) : (s.modChan c f).qs = s.qs := rfl
@[simp] theorem State.modChan_handoff (c : Nat) (f : Chan → Chan) : (s.modChan c f).handoff = s.handoff := rfl
@[simp] theorem State.modChan_rings (c : Nat) (f : Chan → Chan) : (s.modChan c f).rings = s.rings := rfl
@[simp] theorem State.modChan_upd (c : Nat) (f : Chan → Chan) : (s.modChan c f).upd = s.upd := rfl
@[simp] theorem State.modChan_lcs (c : Nat) (f : Chan → Chan) : (s.modChan c f).lcs = s.lcs := rfl
@[simp] theorem State.modChan_lats (c : Nat) (f : Chan → Chan) : (s.modChan c f).lats = s.lats := rfl
@[simp] theorem State.modChan_syncs (c : Nat) (f : Chan → Chan) : (s.modChan c f).syncs = s.syncs := rfl
@[simp] theorem State.modChan_gw (c : Nat) (f : Chan → Chan) : (s.modChan c f).gw = s.gw := rfl
@[simp] theorem State.modChan_axes (c : Nat) (f : Chan → Chan) : (s.modChan c f).axes = s.axes := rfl
@[simp] theorem State.modChan_fc (c : Nat) (f : Chan → Chan) : (s.modChan c f).fc = s.fc := rfl
@[simp] theorem State.modChan_keep (c : Nat) (f : Chan → Chan) : (s.modChan c f).keep = s.keep := rfl
@[simp] theorem State.modChan_budget (c : Nat) (f : Chan → Chan) : (s.modChan c f).budget = s.budget := rfl
@[simp] theorem State.modChan_age (c : Nat) (f : Chan → Chan) : (s.modChan c f).age = s.age := rfl
@[simp] theorem State.modChan_params (c : Nat) (f : Chan → Chan) : (s.modChan c f).params = s.params := rfl
@[simp] theorem State.modChan_expert (c : Nat) (f : Chan → Chan) : (s.modChan c f).expert = s.expert := rfl
@[simp] theorem State.modChan_revoked (c : Nat) (f : Chan → Chan) : (s.modChan c f).revoked = s.revoked := rfl
@[simp] theorem State.modChan_stages (c : Nat) (f : Chan → Chan) : (s.modChan c f).stages = s.stages := rfl
@[simp] theorem State.modChan_commits (c : Nat) (f : Chan → Chan) : (s.modChan c f).commits = s.commits := rfl
@[simp] theorem State.modChan_out (c : Nat) (f : Chan → Chan) : (s.modChan c f).out = s.out := rfl
@[simp] theorem State.modChan_fresh (c : Nat) (f : Chan → Chan) : (s.modChan c f).fresh = s.fresh := rfl
@[simp] theorem State.modChan_pending (c : Nat) (f : Chan → Chan) : (s.modChan c f).pending = s.pending := rfl
@[simp] theorem State.modChan_part (c : Nat) (f : Chan → Chan) (j : Nat) : (s.modChan c f).part j = s.part j := rfl
@[simp] theorem State.modChan_queue (c : Nat) (f : Chan → Chan) (j : Nat) : (s.modChan c f).queue j = s.queue j := rfl
@[simp] theorem State.modChan_lc (c : Nat) (f : Chan → Chan) (j : Nat) : (s.modChan c f).lc j = s.lc j := rfl
@[simp] theorem State.modChan_axis (c : Nat) (f : Chan → Chan) (j : Nat) : (s.modChan c f).axis j = s.axis j := rfl
@[simp] theorem State.modChan_lat (c : Nat) (f : Chan → Chan) (j : Nat) : (s.modChan c f).lat j = s.lat j := rfl
@[simp] theorem State.modChan_sync (c : Nat) (f : Chan → Chan) (j : Nat) : (s.modChan c f).sync j = s.sync j := rfl
@[simp] theorem State.modChan_stage (c : Nat) (f : Chan → Chan) (j : Nat) : (s.modChan c f).stage j = s.stage j := rfl
theorem State.modChan_chan (c : Nat) (f : Chan → Chan) (j : Nat) :
    (s.modChan c f).chan j = if j = c ∧ c < 32 then f (s.chan j) else s.chan j := Tab.get_mod _ _ _ _ _
theorem State.modChan_chan_self {c : Nat} (f : Chan → Chan) (h : c < 32) : (s.modChan c f).chan c = f (s.chan c) :=
  Tab.get_mod_self _ _ _ _ h
theorem State.modChan_chan_other {c : Nat} {j : Nat} (f : Chan → Chan) (h : j ≠ c) : (s.modChan c f).chan j = s.chan j :=
  Tab.get_mod_other _ _ _ h
@[simp] theorem State.modChan_now (c : Nat) (f : Chan → Chan) : (s.modChan c f).now = s.now := rfl
@[simp] theorem State.modChan_par (c : Nat) (f : Chan → Chan) (m x : Nat) : (s.modChan c f).par m x = s.par m x := rfl

/-! ### modPart -/

@[simp] theorem State.modPart_clk (p : Nat) (f : Part → Part) : (s.modPart p f).clk = s.clk := rfl
@[simp] theorem State.modPart_dev (p : Nat) (f : Part → Part) : (s.modPart p f).dev = s.dev := rfl
@[simp] theorem State.modPart_linksDown (p : Nat) (f : Part → Part) : (s.modPart p f).linksDown = s.linksDown := rfl
@[simp] theorem State.modPart_longs (p : Nat) (f : Part → Part) : (s.modPart p f).longs = s.longs := rfl
@[simp] theorem State.modPart_store (p : Nat) (f : Part → Part) : (s.modPart p f).store = s.store := rfl
@[simp] theorem State.modPart_qs (p : Nat) (f : Part → Part) : (s.modPart p f).qs = s.qs := rfl
@[simp] theorem State.modPart_handoff (p : Nat) (f : Part → Part) : (s.modPart p f).handoff = s.handoff := rfl
@[simp] theorem State.modPart_rings (p : Nat) (f : Part → Part) : (s.modPart p f).rings = s.rings := rfl
@[simp] theorem State.modPart_upd (p : Nat) (f : Part → Part) : (s.modPart p f).upd = s.upd := rfl
@[simp] theorem State.modPart_chans (p : Nat) (f : Part → Part) : (s.modPart p f).chans = s.chans := rfl
@[simp] theorem State.modPart_lcs (p : Nat) (f : Part → Part) : (s.modPart p f).lcs = s.lcs := rfl
@[simp] theorem State.modPart_lats (p : Nat) (f : Part → Part) : (s.modPart p f).lats = s.lats := rfl
@[simp] theorem State.modPart_syncs (p : Nat) (f : Part → Part) : (s.modPart p f).syncs = s.syncs := rfl
@[simp] theorem State.modPart_gw (p : Nat) (f : Part → Part) : (s.modPart p f).gw = s.gw := rfl
@[simp] theorem State.modPart_axes (p : Nat) (f : Part → Part) : (s.modPart p f).axes = s.axes := rfl
@[simp] theorem State.modPart_fc (p : Nat) (f : Part → Part) : (s.modPart p f).fc = s.fc := rfl
@[simp] theorem State.modPart_keep (p : Nat) (f : Part → Part) : (s.modPart p f).keep = s.keep := rfl
@[simp] theorem State.modPart_budget (p : Nat) (f : Part → Part) : (s.modPart p f).budget = s.budget := rfl
@[simp] theorem State.modPart_age (p : Nat) (f : Part → Part) : (s.modPart p f).age = s.age := rfl
@[simp] theorem State.modPart_params (p : Nat) (f : Part → Part) : (s.modPart p f).params = s.params := rfl
@[simp] theorem State.modPart_expert (p : Nat) (f : Part → Part) : (s.modPart p f).expert = s.expert := rfl
@[simp] theorem State.modPart_revoked (p : Nat) (f : Part → Part) : (s.modPart p f).revoked = s.revoked := rfl
@[simp] theorem State.modPart_stages (p : Nat) (f : Part → Part) : (s.modPart p f).stages = s.stages := rfl
@[simp] theorem State.modPart_commits (p : Nat) (f : Part → Part) : (s.modPart p f).commits = s.commits := rfl
@[simp] theorem State.modPart_out (p : Nat) (f : Part → Part) : (s.modPart p f).out = s.out := rfl
@[simp] theorem State.modPart_fresh (p : Nat) (f : Part → Part) : (s.modPart p f).fresh = s.fresh := rfl
@[simp] theorem State.modPart_pending (p : Nat) (f : Part → Part) : (s.modPart p f).pending = s.pending := rfl
@[simp] theorem State.modPart_chan (p : Nat) (f : Part → Part) (j : Nat) : (s.modPart p f).chan j = s.chan j := rfl
@[simp] theorem State.modPart_queue (p : Nat) (f : Part → Part) (j : Nat) : (s.modPart p f).queue j = s.queue j := rfl
@[simp] theorem State.modPart_lc (p : Nat) (f : Part → Part) (j : Nat) : (s.modPart p f).lc j = s.lc j := rfl
@[simp] theorem State.modPart_axis (p : Nat) (f : Part → Part) (j : Nat) : (s.modPart p f).axis j = s.axis j := rfl
@[simp] theorem State.modPart_lat (p : Nat) (f : Part → Part) (j : Nat) : (s.modPart p f).lat j = s.lat j := rfl
@[simp] theorem State.modPart_sync (p : Nat) (f : Part → Part) (j : Nat) : (s.modPart p f).sync j = s.sync j := rfl
@[simp] theorem State.modPart_stage (p : Nat) (f : Part → Part) (j : Nat) : (s.modPart p f).stage j = s.stage j := rfl
theorem State.modPart_part (p : Nat) (f : Part → Part) (j : Nat) :
    (s.modPart p f).part j = if j = p ∧ p < 8 then f (s.part j) else s.part j := Tab.get_mod _ _ _ _ _
theorem State.modPart_part_self {p : Nat} (f : Part → Part) (h : p < 8) : (s.modPart p f).part p = f (s.part p) :=
  Tab.get_mod_self _ _ _ _ h
theorem State.modPart_part_other {p : Nat} {j : Nat} (f : Part → Part) (h : j ≠ p) : (s.modPart p f).part j = s.part j :=
  Tab.get_mod_other _ _ _ h
@[simp] theorem State.modPart_now (p : Nat) (f : Part → Part) : (s.modPart p f).now = s.now := rfl
@[simp] theorem State.modPart_par (p : Nat) (f : Part → Part) (m x : Nat) : (s.modPart p f).par m x = s.par m x := rfl

/-! ### modQueue -/

@[simp] theorem State.modQueue_clk (q : Nat) (f : Queue → Queue) : (s.modQueue q f).clk = s.clk := rfl
@[simp] theorem State.modQueue_dev (q : Nat) (f : Queue → Queue) : (s.modQueue q f).dev = s.dev := rfl
@[simp] theorem State.modQueue_linksDown (q : Nat) (f : Queue → Queue) : (s.modQueue q f).linksDown = s.linksDown := rfl
@[simp] theorem State.modQueue_parts (q : Nat) (f : Queue → Queue) : (s.modQueue q f).parts = s.parts := rfl
@[simp] theorem State.modQueue_longs (q : Nat) (f : Queue → Queue) : (s.modQueue q f).longs = s.longs := rfl
@[simp] theorem State.modQueue_store (q : Nat) (f : Queue → Queue) : (s.modQueue q f).store = s.store := rfl
@[simp] theorem State.modQueue_handoff (q : Nat) (f : Queue → Queue) : (s.modQueue q f).handoff = s.handoff := rfl
@[simp] theorem State.modQueue_rings (q : Nat) (f : Queue → Queue) : (s.modQueue q f).rings = s.rings := rfl
@[simp] theorem State.modQueue_upd (q : Nat) (f : Queue → Queue) : (s.modQueue q f).upd = s.upd := rfl
@[simp] theorem State.modQueue_chans (q : Nat) (f : Queue → Queue) : (s.modQueue q f).chans = s.chans := rfl
@[simp] theorem State.modQueue_lcs (q : Nat) (f : Queue → Queue) : (s.modQueue q f).lcs = s.lcs := rfl
@[simp] theorem State.modQueue_lats (q : Nat) (f : Queue → Queue) : (s.modQueue q f).lats = s.lats := rfl
@[simp] theorem State.modQueue_syncs (q : Nat) (f : Queue → Queue) : (s.modQueue q f).syncs = s.syncs := rfl
@[simp] theorem State.modQueue_gw (q : Nat) (f : Queue → Queue) : (s.modQueue q f).gw = s.gw := rfl
@[simp] theorem State.modQueue_axes (q : Nat) (f : Queue → Queue) : (s.modQueue q f).axes = s.axes := rfl
@[simp] theorem State.modQueue_fc (q : Nat) (f : Queue → Queue) : (s.modQueue q f).fc = s.fc := rfl
@[simp] theorem State.modQueue_keep (q : Nat) (f : Queue → Queue) : (s.modQueue q f).keep = s.keep := rfl
@[simp] theorem State.modQueue_budget (q : Nat) (f : Queue → Queue) : (s.modQueue q f).budget = s.budget := rfl
@[simp] theorem State.modQueue_age (q : Nat) (f : Queue → Queue) : (s.modQueue q f).age = s.age := rfl
@[simp] theorem State.modQueue_params (q : Nat) (f : Queue → Queue) : (s.modQueue q f).params = s.params := rfl
@[simp] theorem State.modQueue_expert (q : Nat) (f : Queue → Queue) : (s.modQueue q f).expert = s.expert := rfl
@[simp] theorem State.modQueue_revoked (q : Nat) (f : Queue → Queue) : (s.modQueue q f).revoked = s.revoked := rfl
@[simp] theorem State.modQueue_stages (q : Nat) (f : Queue → Queue) : (s.modQueue q f).stages = s.stages := rfl
@[simp] theorem State.modQueue_commits (q : Nat) (f : Queue → Queue) : (s.modQueue q f).commits = s.commits := rfl
@[simp] theorem State.modQueue_out (q : Nat) (f : Queue → Queue) : (s.modQueue q f).out = s.out := rfl
@[simp] theorem State.modQueue_fresh (q : Nat) (f : Queue → Queue) : (s.modQueue q f).fresh = s.fresh := rfl
@[simp] theorem State.modQueue_pending (q : Nat) (f : Queue → Queue) : (s.modQueue q f).pending = s.pending := rfl
@[simp] theorem State.modQueue_chan (q : Nat) (f : Queue → Queue) (j : Nat) : (s.modQueue q f).chan j = s.chan j := rfl
@[simp] theorem State.modQueue_part (q : Nat) (f : Queue → Queue) (j : Nat) : (s.modQueue q f).part j = s.part j := rfl
@[simp] theorem State.modQueue_lc (q : Nat) (f : Queue → Queue) (j : Nat) : (s.modQueue q f).lc j = s.lc j := rfl
@[simp] theorem State.modQueue_axis (q : Nat) (f : Queue → Queue) (j : Nat) : (s.modQueue q f).axis j = s.axis j := rfl
@[simp] theorem State.modQueue_lat (q : Nat) (f : Queue → Queue) (j : Nat) : (s.modQueue q f).lat j = s.lat j := rfl
@[simp] theorem State.modQueue_sync (q : Nat) (f : Queue → Queue) (j : Nat) : (s.modQueue q f).sync j = s.sync j := rfl
@[simp] theorem State.modQueue_stage (q : Nat) (f : Queue → Queue) (j : Nat) : (s.modQueue q f).stage j = s.stage j := rfl
theorem State.modQueue_queue (q : Nat) (f : Queue → Queue) (j : Nat) :
    (s.modQueue q f).queue j = if j = q ∧ q < 64 then f (s.queue j) else s.queue j := Tab.get_mod _ _ _ _ _
theorem State.modQueue_queue_self {q : Nat} (f : Queue → Queue) (h : q < 64) : (s.modQueue q f).queue q = f (s.queue q) :=
  Tab.get_mod_self _ _ _ _ h
theorem State.modQueue_queue_other {q : Nat} {j : Nat} (f : Queue → Queue) (h : j ≠ q) : (s.modQueue q f).queue j = s.queue j :=
  Tab.get_mod_other _ _ _ h
@[simp] theorem State.modQueue_now (q : Nat) (f : Queue → Queue) : (s.modQueue q f).now = s.now := rfl
@[simp] theorem State.modQueue_par (q : Nat) (f : Queue → Queue) (m x : Nat) : (s.modQueue q f).par m x = s.par m x := rfl

/-! ### modLc -/

@[simp] theorem State.modLc_clk (n : Nat) (f : Lc → Lc) : (s.modLc n f).clk = s.clk := rfl
@[simp] theorem State.modLc_dev (n : Nat) (f : Lc → Lc) : (s.modLc n f).dev = s.dev := rfl
@[simp] theorem State.modLc_linksDown (n : Nat) (f : Lc → Lc) : (s.modLc n f).linksDown = s.linksDown := rfl
@[simp] theorem State.modLc_parts (n : Nat) (f : Lc → Lc) : (s.modLc n f).parts = s.parts := rfl
@[simp] theorem State.modLc_longs (n : Nat) (f : Lc → Lc) : (s.modLc n f).longs = s.longs := rfl
@[simp] theorem State.modLc_store (n : Nat) (f : Lc → Lc) : (s.modLc n f).store = s.store := rfl
@[simp] theorem State.modLc_qs (n : Nat) (f : Lc → Lc) : (s.modLc n f).qs = s.qs := rfl
@[simp] theorem State.modLc_handoff (n : Nat) (f : Lc → Lc) : (s.modLc n f).handoff = s.handoff := rfl
@[simp] theorem State.modLc_rings (n : Nat) (f : Lc → Lc) : (s.modLc n f).rings = s.rings := rfl
@[simp] theorem State.modLc_upd (n : Nat) (f : Lc → Lc) : (s.modLc n f).upd = s.upd := rfl
@[simp] theorem State.modLc_chans (n : Nat) (f : Lc → Lc) : (s.modLc n f).chans = s.chans := rfl
@[simp] theorem State.modLc_lats (n : Nat) (f : Lc → Lc) : (s.modLc n f).lats = s.lats := rfl
@[simp] theorem State.modLc_syncs (n : Nat) (f : Lc → Lc) : (s.modLc n f).syncs = s.syncs := rfl
@[simp] theorem State.modLc_gw (n : Nat) (f : Lc → Lc) : (s.modLc n f).gw = s.gw := rfl
@[simp] theorem State.modLc_axes (n : Nat) (f : Lc → Lc) : (s.modLc n f).axes = s.axes := rfl
@[simp] theorem State.modLc_fc (n : Nat) (f : Lc → Lc) : (s.modLc n f).fc = s.fc := rfl
@[simp] theorem State.modLc_keep (n : Nat) (f : Lc → Lc) : (s.modLc n f).keep = s.keep := rfl
@[simp] theorem State.modLc_budget (n : Nat) (f : Lc → Lc) : (s.modLc n f).budget = s.budget := rfl
@[simp] theorem State.modLc_age (n : Nat) (f : Lc → Lc) : (s.modLc n f).age = s.age := rfl
@[simp] theorem State.modLc_params (n : Nat) (f : Lc → Lc) : (s.modLc n f).params = s.params := rfl
@[simp] theorem State.modLc_expert (n : Nat) (f : Lc → Lc) : (s.modLc n f).expert = s.expert := rfl
@[simp] theorem State.modLc_revoked (n : Nat) (f : Lc → Lc) : (s.modLc n f).revoked = s.revoked := rfl
@[simp] theorem State.modLc_stages (n : Nat) (f : Lc → Lc) : (s.modLc n f).stages = s.stages := rfl
@[simp] theorem State.modLc_commits (n : Nat) (f : Lc → Lc) : (s.modLc n f).commits = s.commits := rfl
@[simp] theorem State.modLc_out (n : Nat) (f : Lc → Lc) : (s.modLc n f).out = s.out := rfl
@[simp] theorem State.modLc_fresh (n : Nat) (f : Lc → Lc) : (s.modLc n f).fresh = s.fresh := rfl
@[simp] theorem State.modLc_pending (n : Nat) (f : Lc → Lc) : (s.modLc n f).pending = s.pending := rfl
@[simp] theorem State.modLc_chan (n : Nat) (f : Lc → Lc) (j : Nat) : (s.modLc n f).chan j = s.chan j := rfl
@[simp] theorem State.modLc_part (n : Nat) (f : Lc → Lc) (j : Nat) : (s.modLc n f).part j = s.part j := rfl
@[simp] theorem State.modLc_queue (n : Nat) (f : Lc → Lc) (j : Nat) : (s.modLc n f).queue j = s.queue j := rfl
@[simp] theorem State.modLc_axis (n : Nat) (f : Lc → Lc) (j : Nat) : (s.modLc n f).axis j = s.axis j := rfl
@[simp] theorem State.modLc_lat (n : Nat) (f : Lc → Lc) (j : Nat) : (s.modLc n f).lat j = s.lat j := rfl
@[simp] theorem State.modLc_sync (n : Nat) (f : Lc → Lc) (j : Nat) : (s.modLc n f).sync j = s.sync j := rfl
@[simp] theorem State.modLc_stage (n : Nat) (f : Lc → Lc) (j : Nat) : (s.modLc n f).stage j = s.stage j := rfl
theorem State.modLc_lc (n : Nat) (f : Lc → Lc) (j : Nat) :
    (s.modLc n f).lc j = if j = n ∧ n < 4 then f (s.lc j) else s.lc j := Tab.get_mod _ _ _ _ _
theorem State.modLc_lc_self {n : Nat} (f : Lc → Lc) (h : n < 4) : (s.modLc n f).lc n = f (s.lc n) :=
  Tab.get_mod_self _ _ _ _ h
theorem State.modLc_lc_other {n : Nat} {j : Nat} (f : Lc → Lc) (h : j ≠ n) : (s.modLc n f).lc j = s.lc j :=
  Tab.get_mod_other _ _ _ h
@[simp] theorem State.modLc_now (n : Nat) (f : Lc → Lc) : (s.modLc n f).now = s.now := rfl
@[simp] theorem State.modLc_par (n : Nat) (f : Lc → Lc) (m x : Nat) : (s.modLc n f).par m x = s.par m x := rfl

/-! ### modAxis -/

@[simp] theorem State.modAxis_clk (a : Nat) (f : Axis → Axis) : (s.modAxis a f).clk = s.clk := rfl
@[simp] theorem State.modAxis_dev (a : Nat) (f : Axis → Axis) : (s.modAxis a f).dev = s.dev := rfl
@[simp] theorem State.modAxis_linksDown (a : Nat) (f : Axis → Axis) : (s.modAxis a f).linksDown = s.linksDown := rfl
@[simp] theorem State.modAxis_parts (a : Nat) (f : Axis → Axis) : (s.modAxis a f).parts = s.parts := rfl
@[simp] theorem State.modAxis_longs (a : Nat) (f : Axis → Axis) : (s.modAxis a f).longs = s.longs := rfl
@[simp] theorem State.modAxis_store (a : Nat) (f : Axis → Axis) : (s.modAxis a f).store = s.store := rfl
@[simp] theorem State.modAxis_qs (a : Nat) (f : Axis → Axis) : (s.modAxis a f).qs = s.qs := rfl
@[simp] theorem State.modAxis_handoff (a : Nat) (f : Axis → Axis) : (s.modAxis a f).handoff = s.handoff := rfl
@[simp] theorem State.modAxis_rings (a : Nat) (f : Axis → Axis) : (s.modAxis a f).rings = s.rings := rfl
@[simp] theorem State.modAxis_upd (a : Nat) (f : Axis → Axis) : (s.modAxis a f).upd = s.upd := rfl
@[simp] theorem State.modAxis_chans (a : Nat) (f : Axis → Axis) : (s.modAxis a f).chans = s.chans := rfl
@[simp] theorem State.modAxis_lcs (a : Nat) (f : Axis → Axis) : (s.modAxis a f).lcs = s.lcs := rfl
@[simp] theorem State.modAxis_lats (a : Nat) (f : Axis → Axis) : (s.modAxis a f).lats = s.lats := rfl
@[simp] theorem State.modAxis_syncs (a : Nat) (f : Axis → Axis) : (s.modAxis a f).syncs = s.syncs := rfl
@[simp] theorem State.modAxis_gw (a : Nat) (f : Axis → Axis) : (s.modAxis a f).gw = s.gw := rfl
@[simp] theorem State.modAxis_fc (a : Nat) (f : Axis → Axis) : (s.modAxis a f).fc = s.fc := rfl
@[simp] theorem State.modAxis_keep (a : Nat) (f : Axis → Axis) : (s.modAxis a f).keep = s.keep := rfl
@[simp] theorem State.modAxis_budget (a : Nat) (f : Axis → Axis) : (s.modAxis a f).budget = s.budget := rfl
@[simp] theorem State.modAxis_age (a : Nat) (f : Axis → Axis) : (s.modAxis a f).age = s.age := rfl
@[simp] theorem State.modAxis_params (a : Nat) (f : Axis → Axis) : (s.modAxis a f).params = s.params := rfl
@[simp] theorem State.modAxis_expert (a : Nat) (f : Axis → Axis) : (s.modAxis a f).expert = s.expert := rfl
@[simp] theorem State.modAxis_revoked (a : Nat) (f : Axis → Axis) : (s.modAxis a f).revoked = s.revoked := rfl
@[simp] theorem State.modAxis_stages (a : Nat) (f : Axis → Axis) : (s.modAxis a f).stages = s.stages := rfl
@[simp] theorem State.modAxis_commits (a : Nat) (f : Axis → Axis) : (s.modAxis a f).commits = s.commits := rfl
@[simp] theorem State.modAxis_out (a : Nat) (f : Axis → Axis) : (s.modAxis a f).out = s.out := rfl
@[simp] theorem State.modAxis_fresh (a : Nat) (f : Axis → Axis) : (s.modAxis a f).fresh = s.fresh := rfl
@[simp] theorem State.modAxis_pending (a : Nat) (f : Axis → Axis) : (s.modAxis a f).pending = s.pending := rfl
@[simp] theorem State.modAxis_chan (a : Nat) (f : Axis → Axis) (j : Nat) : (s.modAxis a f).chan j = s.chan j := rfl
@[simp] theorem State.modAxis_part (a : Nat) (f : Axis → Axis) (j : Nat) : (s.modAxis a f).part j = s.part j := rfl
@[simp] theorem State.modAxis_queue (a : Nat) (f : Axis → Axis) (j : Nat) : (s.modAxis a f).queue j = s.queue j := rfl
@[simp] theorem State.modAxis_lc (a : Nat) (f : Axis → Axis) (j : Nat) : (s.modAxis a f).lc j = s.lc j := rfl
@[simp] theorem State.modAxis_lat (a : Nat) (f : Axis → Axis) (j : Nat) : (s.modAxis a f).lat j = s.lat j := rfl
@[simp] theorem State.modAxis_sync (a : Nat) (f : Axis → Axis) (j : Nat) : (s.modAxis a f).sync j = s.sync j := rfl
@[simp] theorem State.modAxis_stage (a : Nat) (f : Axis → Axis) (j : Nat) : (s.modAxis a f).stage j = s.stage j := rfl
theorem State.modAxis_axis (a : Nat) (f : Axis → Axis) (j : Nat) :
    (s.modAxis a f).axis j = if j = a ∧ a < 128 then f (s.axis j) else s.axis j := Tab.get_mod _ _ _ _ _
theorem State.modAxis_axis_self {a : Nat} (f : Axis → Axis) (h : a < 128) : (s.modAxis a f).axis a = f (s.axis a) :=
  Tab.get_mod_self _ _ _ _ h
theorem State.modAxis_axis_other {a : Nat} {j : Nat} (f : Axis → Axis) (h : j ≠ a) : (s.modAxis a f).axis j = s.axis j :=
  Tab.get_mod_other _ _ _ h
@[simp] theorem State.modAxis_now (a : Nat) (f : Axis → Axis) : (s.modAxis a f).now = s.now := rfl
@[simp] theorem State.modAxis_par (a : Nat) (f : Axis → Axis) (m x : Nat) : (s.modAxis a f).par m x = s.par m x := rfl

/-! ### modLat -/

@[simp] theorem State.modLat_clk (i : Nat) (f : Lat → Lat) : (s.modLat i f).clk = s.clk := rfl
@[simp] theorem State.modLat_dev (i : Nat) (f : Lat → Lat) : (s.modLat i f).dev = s.dev := rfl
@[simp] theorem State.modLat_linksDown (i : Nat) (f : Lat → Lat) : (s.modLat i f).linksDown = s.linksDown := rfl
@[simp] theorem State.modLat_parts (i : Nat) (f : Lat → Lat) : (s.modLat i f).parts = s.parts := rfl
@[simp] theorem State.modLat_longs (i : Nat) (f : Lat → Lat) : (s.modLat i f).longs = s.longs := rfl
@[simp] theorem State.modLat_store (i : Nat) (f : Lat → Lat) : (s.modLat i f).store = s.store := rfl
@[simp] theorem State.modLat_qs (i : Nat) (f : Lat → Lat) : (s.modLat i f).qs = s.qs := rfl
@[simp] theorem State.modLat_handoff (i : Nat) (f : Lat → Lat) : (s.modLat i f).handoff = s.handoff := rfl
@[simp] theorem State.modLat_rings (i : Nat) (f : Lat → Lat) : (s.modLat i f).rings = s.rings := rfl
@[simp] theorem State.modLat_upd (i : Nat) (f : Lat → Lat) : (s.modLat i f).upd = s.upd := rfl
@[simp] theorem State.modLat_chans (i : Nat) (f : Lat → Lat) : (s.modLat i f).chans = s.chans := rfl
@[simp] theorem State.modLat_lcs (i : Nat) (f : Lat → Lat) : (s.modLat i f).lcs = s.lcs := rfl
@[simp] theorem State.modLat_syncs (i : Nat) (f : Lat → Lat) : (s.modLat i f).syncs = s.syncs := rfl
@[simp] theorem State.modLat_gw (i : Nat) (f : Lat → Lat) : (s.modLat i f).gw = s.gw := rfl
@[simp] theorem State.modLat_axes (i : Nat) (f : Lat → Lat) : (s.modLat i f).axes = s.axes := rfl
@[simp] theorem State.modLat_fc (i : Nat) (f : Lat → Lat) : (s.modLat i f).fc = s.fc := rfl
@[simp] theorem State.modLat_keep (i : Nat) (f : Lat → Lat) : (s.modLat i f).keep = s.keep := rfl
@[simp] theorem State.modLat_budget (i : Nat) (f : Lat → Lat) : (s.modLat i f).budget = s.budget := rfl
@[simp] theorem State.modLat_age (i : Nat) (f : Lat → Lat) : (s.modLat i f).age = s.age := rfl
@[simp] theorem State.modLat_params (i : Nat) (f : Lat → Lat) : (s.modLat i f).params = s.params := rfl
@[simp] theorem State.modLat_expert (i : Nat) (f : Lat → Lat) : (s.modLat i f).expert = s.expert := rfl
@[simp] theorem State.modLat_revoked (i : Nat) (f : Lat → Lat) : (s.modLat i f).revoked = s.revoked := rfl
@[simp] theorem State.modLat_stages (i : Nat) (f : Lat → Lat) : (s.modLat i f).stages = s.stages := rfl
@[simp] theorem State.modLat_commits (i : Nat) (f : Lat → Lat) : (s.modLat i f).commits = s.commits := rfl
@[simp] theorem State.modLat_out (i : Nat) (f : Lat → Lat) : (s.modLat i f).out = s.out := rfl
@[simp] theorem State.modLat_fresh (i : Nat) (f : Lat → Lat) : (s.modLat i f).fresh = s.fresh := rfl
@[simp] theorem State.modLat_pending (i : Nat) (f : Lat → Lat) : (s.modLat i f).pending = s.pending := rfl
@[simp] theorem State.modLat_chan (i : Nat) (f : Lat → Lat) (j : Nat) : (s.modLat i f).chan j = s.chan j := rfl
@[simp] theorem State.modLat_part (i : Nat) (f : Lat → Lat) (j : Nat) : (s.modLat i f).part j = s.part j := rfl
@[simp] theorem State.modLat_queue (i : Nat) (f : Lat → Lat) (j : Nat) : (s.modLat i f).queue j = s.queue j := rfl
@[simp] theorem State.modLat_lc (i : Nat) (f : Lat → Lat) (j : Nat) : (s.modLat i f).lc j = s.lc j := rfl
@[simp] theorem State.modLat_axis (i : Nat) (f : Lat → Lat) (j : Nat) : (s.modLat i f).axis j = s.axis j := rfl
@[simp] theorem State.modLat_sync (i : Nat) (f : Lat → Lat) (j : Nat) : (s.modLat i f).sync j = s.sync j := rfl
@[simp] theorem State.modLat_stage (i : Nat) (f : Lat → Lat) (j : Nat) : (s.modLat i f).stage j = s.stage j := rfl
theorem State.modLat_lat (i : Nat) (f : Lat → Lat) (j : Nat) :
    (s.modLat i f).lat j = if j = i ∧ i < 16 then f (s.lat j) else s.lat j := Tab.get_mod _ _ _ _ _
theorem State.modLat_lat_self {i : Nat} (f : Lat → Lat) (h : i < 16) : (s.modLat i f).lat i = f (s.lat i) :=
  Tab.get_mod_self _ _ _ _ h
theorem State.modLat_lat_other {i : Nat} {j : Nat} (f : Lat → Lat) (h : j ≠ i) : (s.modLat i f).lat j = s.lat j :=
  Tab.get_mod_other _ _ _ h
@[simp] theorem State.modLat_now (i : Nat) (f : Lat → Lat) : (s.modLat i f).now = s.now := rfl
@[simp] theorem State.modLat_par (i : Nat) (f : Lat → Lat) (m x : Nat) : (s.modLat i f).par m x = s.par m x := rfl

/-! ### modSync -/

@[simp] theorem State.modSync_clk (i : Nat) (f : Sync → Sync) : (s.modSync i f).clk = s.clk := rfl
@[simp] theorem State.modSync_dev (i : Nat) (f : Sync → Sync) : (s.modSync i f).dev = s.dev := rfl
@[simp] theorem State.modSync_linksDown (i : Nat) (f : Sync → Sync) : (s.modSync i f).linksDown = s.linksDown := rfl
@[simp] theorem State.modSync_parts (i : Nat) (f : Sync → Sync) : (s.modSync i f).parts = s.parts := rfl
@[simp] theorem State.modSync_longs (i : Nat) (f : Sync → Sync) : (s.modSync i f).longs = s.longs := rfl
@[simp] theorem State.modSync_store (i : Nat) (f : Sync → Sync) : (s.modSync i f).store = s.store := rfl
@[simp] theorem State.modSync_qs (i : Nat) (f : Sync → Sync) : (s.modSync i f).qs = s.qs := rfl
@[simp] theorem State.modSync_handoff (i : Nat) (f : Sync → Sync) : (s.modSync i f).handoff = s.handoff := rfl
@[simp] theorem State.modSync_rings (i : Nat) (f : Sync → Sync) : (s.modSync i f).rings = s.rings := rfl
@[simp] theorem State.modSync_upd (i : Nat) (f : Sync → Sync) : (s.modSync i f).upd = s.upd := rfl
@[simp] theorem State.modSync_chans (i : Nat) (f : Sync → Sync) : (s.modSync i f).chans = s.chans := rfl
@[simp] theorem State.modSync_lcs (i : Nat) (f : Sync → Sync) : (s.modSync i f).lcs = s.lcs := rfl
@[simp] theorem State.modSync_lats (i : Nat) (f : Sync → Sync) : (s.modSync i f).lats = s.lats := rfl
@[simp] theorem State.modSync_gw (i : Nat) (f : Sync → Sync) : (s.modSync i f).gw = s.gw := rfl
@[simp] theorem State.modSync_axes (i : Nat) (f : Sync → Sync) : (s.modSync i f).axes = s.axes := rfl
@[simp] theorem State.modSync_fc (i : Nat) (f : Sync → Sync) : (s.modSync i f).fc = s.fc := rfl
@[simp] theorem State.modSync_keep (i : Nat) (f : Sync → Sync) : (s.modSync i f).keep = s.keep := rfl
@[simp] theorem State.modSync_budget (i : Nat) (f : Sync → Sync) : (s.modSync i f).budget = s.budget := rfl
@[simp] theorem State.modSync_age (i : Nat) (f : Sync → Sync) : (s.modSync i f).age = s.age := rfl
@[simp] theorem State.modSync_params (i : Nat) (f : Sync → Sync) : (s.modSync i f).params = s.params := rfl
@[simp] theorem State.modSync_expert (i : Nat) (f : Sync → Sync) : (s.modSync i f).expert = s.expert := rfl
@[simp] theorem State.modSync_revoked (i : Nat) (f : Sync → Sync) : (s.modSync i f).revoked = s.revoked := rfl
@[simp] theorem State.modSync_stages (i : Nat) (f : Sync → Sync) : (s.modSync i f).stages = s.stages := rfl
@[simp] theorem State.modSync_commits (i : Nat) (f : Sync → Sync) : (s.modSync i f).commits = s.commits := rfl
@[simp] theorem State.modSync_out (i : Nat) (f : Sync → Sync) : (s.modSync i f).out = s.out := rfl
@[simp] theorem State.modSync_fresh (i : Nat) (f : Sync → Sync) : (s.modSync i f).fresh = s.fresh := rfl
@[simp] theorem State.modSync_pending (i : Nat) (f : Sync → Sync) : (s.modSync i f).pending = s.pending := rfl
@[simp] theorem State.modSync_chan (i : Nat) (f : Sync → Sync) (j : Nat) : (s.modSync i f).chan j = s.chan j := rfl
@[simp] theorem State.modSync_part (i : Nat) (f : Sync → Sync) (j : Nat) : (s.modSync i f).part j = s.part j := rfl
@[simp] theorem State.modSync_queue (i : Nat) (f : Sync → Sync) (j : Nat) : (s.modSync i f).queue j = s.queue j := rfl
@[simp] theorem State.modSync_lc (i : Nat) (f : Sync → Sync) (j : Nat) : (s.modSync i f).lc j = s.lc j := rfl
@[simp] theorem State.modSync_axis (i : Nat) (f : Sync → Sync) (j : Nat) : (s.modSync i f).axis j = s.axis j := rfl
@[simp] theorem State.modSync_lat (i : Nat) (f : Sync → Sync) (j : Nat) : (s.modSync i f).lat j = s.lat j := rfl
@[simp] theorem State.modSync_stage (i : Nat) (f : Sync → Sync) (j : Nat) : (s.modSync i f).stage j = s.stage j := rfl
theorem State.modSync_sync (i : Nat) (f : Sync → Sync) (j : Nat) :
    (s.modSync i f).sync j = if j = i ∧ i < 4 then f (s.sync j) else s.sync j := Tab.get_mod _ _ _ _ _
theorem State.modSync_sync_self {i : Nat} (f : Sync → Sync) (h : i < 4) : (s.modSync i f).sync i = f (s.sync i) :=
  Tab.get_mod_self _ _ _ _ h
theorem State.modSync_sync_other {i : Nat} {j : Nat} (f : Sync → Sync) (h : j ≠ i) : (s.modSync i f).sync j = s.sync j :=
  Tab.get_mod_other _ _ _ h
@[simp] theorem State.modSync_now (i : Nat) (f : Sync → Sync) : (s.modSync i f).now = s.now := rfl
@[simp] theorem State.modSync_par (i : Nat) (f : Sync → Sync) (m x : Nat) : (s.modSync i f).par m x = s.par m x := rfl

/-! ### modStage -/

@[simp] theorem State.modStage_clk (p : Nat) (f : Stage → Stage) : (s.modStage p f).clk = s.clk := rfl
@[simp] theorem State.modStage_dev (p : Nat) (f : Stage → Stage) : (s.modStage p f).dev = s.dev := rfl
@[simp] theorem State.modStage_linksDown (p : Nat) (f : Stage → Stage) : (s.modStage p f).linksDown = s.linksDown := rfl
@[simp] theorem State.modStage_parts (p : Nat) (f : Stage → Stage) : (s.modStage p f).parts = s.parts := rfl
@[simp] theorem State.modStage_longs (p : Nat) (f : Stage → Stage) : (s.modStage p f).longs = s.longs := rfl
@[simp] theorem State.modStage_store (p : Nat) (f : Stage → Stage) : (s.modStage p f).store = s.store := rfl
@[simp] theorem State.modStage_qs (p : Nat) (f : Stage → Stage) : (s.modStage p f).qs = s.qs := rfl
@[simp] theorem State.modStage_handoff (p : Nat) (f : Stage → Stage) : (s.modStage p f).handoff = s.handoff := rfl
@[simp] theorem State.modStage_rings (p : Nat) (f : Stage → Stage) : (s.modStage p f).rings = s.rings := rfl
@[simp] theorem State.modStage_upd (p : Nat) (f : Stage → Stage) : (s.modStage p f).upd = s.upd := rfl
@[simp] theorem State.modStage_chans (p : Nat) (f : Stage → Stage) : (s.modStage p f).chans = s.chans := rfl
@[simp] theorem State.modStage_lcs (p : Nat) (f : Stage → Stage) : (s.modStage p f).lcs = s.lcs := rfl
@[simp] theorem State.modStage_lats (p : Nat) (f : Stage → Stage) : (s.modStage p f).lats = s.lats := rfl
@[simp] theorem State.modStage_syncs (p : Nat) (f : Stage → Stage) : (s.modStage p f).syncs = s.syncs := rfl
@[simp] theorem State.modStage_gw (p : Nat) (f : Stage → Stage) : (s.modStage p f).gw = s.gw := rfl
@[simp] theorem State.modStage_axes (p : Nat) (f : Stage → Stage) : (s.modStage p f).axes = s.axes := rfl
@[simp] theorem State.modStage_fc (p : Nat) (f : Stage → Stage) : (s.modStage p f).fc = s.fc := rfl
@[simp] theorem State.modStage_keep (p : Nat) (f : Stage → Stage) : (s.modStage p f).keep = s.keep := rfl
@[simp] theorem State.modStage_budget (p : Nat) (f : Stage → Stage) : (s.modStage p f).budget = s.budget := rfl
@[simp] theorem State.modStage_age (p : Nat) (f : Stage → Stage) : (s.modStage p f).age = s.age := rfl
@[simp] theorem State.modStage_params (p : Nat) (f : Stage → Stage) : (s.modStage p f).params = s.params := rfl
@[simp] theorem State.modStage_expert (p : Nat) (f : Stage → Stage) : (s.modStage p f).expert = s.expert := rfl
@[simp] theorem State.modStage_revoked (p : Nat) (f : Stage → Stage) : (s.modStage p f).revoked = s.revoked := rfl
@[simp] theorem State.modStage_commits (p : Nat) (f : Stage → Stage) : (s.modStage p f).commits = s.commits := rfl
@[simp] theorem State.modStage_out (p : Nat) (f : Stage → Stage) : (s.modStage p f).out = s.out := rfl
@[simp] theorem State.modStage_fresh (p : Nat) (f : Stage → Stage) : (s.modStage p f).fresh = s.fresh := rfl
@[simp] theorem State.modStage_pending (p : Nat) (f : Stage → Stage) : (s.modStage p f).pending = s.pending := rfl
@[simp] theorem State.modStage_chan (p : Nat) (f : Stage → Stage) (j : Nat) : (s.modStage p f).chan j = s.chan j := rfl
@[simp] theorem State.modStage_part (p : Nat) (f : Stage → Stage) (j : Nat) : (s.modStage p f).part j = s.part j := rfl
@[simp] theorem State.modStage_queue (p : Nat) (f : Stage → Stage) (j : Nat) : (s.modStage p f).queue j = s.queue j := rfl
@[simp] theorem State.modStage_lc (p : Nat) (f : Stage → Stage) (j : Nat) : (s.modStage p f).lc j = s.lc j := rfl
@[simp] theorem State.modStage_axis (p : Nat) (f : Stage → Stage) (j : Nat) : (s.modStage p f).axis j = s.axis j := rfl
@[simp] theorem State.modStage_lat (p : Nat) (f : Stage → Stage) (j : Nat) : (s.modStage p f).lat j = s.lat j := rfl
@[simp] theorem State.modStage_sync (p : Nat) (f : Stage → Stage) (j : Nat) : (s.modStage p f).sync j = s.sync j := rfl
theorem State.modStage_stage (p : Nat) (f : Stage → Stage) (j : Nat) :
    (s.modStage p f).stage j = if j = p ∧ p < 8 then f (s.stage j) else s.stage j := Tab.get_mod _ _ _ _ _
theorem State.modStage_stage_self {p : Nat} (f : Stage → Stage) (h : p < 8) : (s.modStage p f).stage p = f (s.stage p) :=
  Tab.get_mod_self _ _ _ _ h
theorem State.modStage_stage_other {p : Nat} {j : Nat} (f : Stage → Stage) (h : j ≠ p) : (s.modStage p f).stage j = s.stage j :=
  Tab.get_mod_other _ _ _ h
@[simp] theorem State.modStage_now (p : Nat) (f : Stage → Stage) : (s.modStage p f).now = s.now := rfl
@[simp] theorem State.modStage_par (p : Nat) (f : Stage → Stage) (m x : Nat) : (s.modStage p f).par m x = s.par m x := rfl

/-! ### modRec -/

@[simp] theorem State.modRec_clk (k : Nat) (f : FRec → FRec) : (s.modRec k f).clk = s.clk := rfl
@[simp] theorem State.modRec_dev (k : Nat) (f : FRec → FRec) : (s.modRec k f).dev = s.dev := rfl
@[simp] theorem State.modRec_linksDown (k : Nat) (f : FRec → FRec) : (s.modRec k f).linksDown = s.linksDown := rfl
@[simp] theorem State.modRec_parts (k : Nat) (f : FRec → FRec) : (s.modRec k f).parts = s.parts := rfl
@[simp] theorem State.modRec_longs (k : Nat) (f : FRec → FRec) : (s.modRec k f).longs = s.longs := rfl
@[simp] theorem State.modRec_store (k : Nat) (f : FRec → FRec) : (s.modRec k f).store = s.store := rfl
@[simp] theorem State.modRec_qs (k : Nat) (f : FRec → FRec) : (s.modRec k f).qs = s.qs := rfl
@[simp] theorem State.modRec_handoff (k : Nat) (f : FRec → FRec) : (s.modRec k f).handoff = s.handoff := rfl
@[simp] theorem State.modRec_rings (k : Nat) (f : FRec → FRec) : (s.modRec k f).rings = s.rings := rfl
@[simp] theorem State.modRec_upd (k : Nat) (f : FRec → FRec) : (s.modRec k f).upd = s.upd := rfl
@[simp] theorem State.modRec_chans (k : Nat) (f : FRec → FRec) : (s.modRec k f).chans = s.chans := rfl
@[simp] theorem State.modRec_lcs (k : Nat) (f : FRec → FRec) : (s.modRec k f).lcs = s.lcs := rfl
@[simp] theorem State.modRec_lats (k : Nat) (f : FRec → FRec) : (s.modRec k f).lats = s.lats := rfl
@[simp] theorem State.modRec_syncs (k : Nat) (f : FRec → FRec) : (s.modRec k f).syncs = s.syncs := rfl
@[simp] theorem State.modRec_gw (k : Nat) (f : FRec → FRec) : (s.modRec k f).gw = s.gw := rfl
@[simp] theorem State.modRec_axes (k : Nat) (f : FRec → FRec) : (s.modRec k f).axes = s.axes := rfl
@[simp] theorem State.modRec_keep (k : Nat) (f : FRec → FRec) : (s.modRec k f).keep = s.keep := rfl
@[simp] theorem State.modRec_budget (k : Nat) (f : FRec → FRec) : (s.modRec k f).budget = s.budget := rfl
@[simp] theorem State.modRec_age (k : Nat) (f : FRec → FRec) : (s.modRec k f).age = s.age := rfl
@[simp] theorem State.modRec_params (k : Nat) (f : FRec → FRec) : (s.modRec k f).params = s.params := rfl
@[simp] theorem State.modRec_expert (k : Nat) (f : FRec → FRec) : (s.modRec k f).expert = s.expert := rfl
@[simp] theorem State.modRec_revoked (k : Nat) (f : FRec → FRec) : (s.modRec k f).revoked = s.revoked := rfl
@[simp] theorem State.modRec_stages (k : Nat) (f : FRec → FRec) : (s.modRec k f).stages = s.stages := rfl
@[simp] theorem State.modRec_commits (k : Nat) (f : FRec → FRec) : (s.modRec k f).commits = s.commits := rfl
@[simp] theorem State.modRec_out (k : Nat) (f : FRec → FRec) : (s.modRec k f).out = s.out := rfl
@[simp] theorem State.modRec_fresh (k : Nat) (f : FRec → FRec) : (s.modRec k f).fresh = s.fresh := rfl
@[simp] theorem State.modRec_pending (k : Nat) (f : FRec → FRec) : (s.modRec k f).pending = s.pending := rfl
@[simp] theorem State.modRec_chan (k : Nat) (f : FRec → FRec) (j : Nat) : (s.modRec k f).chan j = s.chan j := rfl
@[simp] theorem State.modRec_part (k : Nat) (f : FRec → FRec) (j : Nat) : (s.modRec k f).part j = s.part j := rfl
@[simp] theorem State.modRec_queue (k : Nat) (f : FRec → FRec) (j : Nat) : (s.modRec k f).queue j = s.queue j := rfl
@[simp] theorem State.modRec_lc (k : Nat) (f : FRec → FRec) (j : Nat) : (s.modRec k f).lc j = s.lc j := rfl
@[simp] theorem State.modRec_axis (k : Nat) (f : FRec → FRec) (j : Nat) : (s.modRec k f).axis j = s.axis j := rfl
@[simp] theorem State.modRec_lat (k : Nat) (f : FRec → FRec) (j : Nat) : (s.modRec k f).lat j = s.lat j := rfl
@[simp] theorem State.modRec_sync (k : Nat) (f : FRec → FRec) (j : Nat) : (s.modRec k f).sync j = s.sync j := rfl
@[simp] theorem State.modRec_stage (k : Nat) (f : FRec → FRec) (j : Nat) : (s.modRec k f).stage j = s.stage j := rfl
@[simp] theorem State.modRec_now (k : Nat) (f : FRec → FRec) : (s.modRec k f).now = s.now := rfl
@[simp] theorem State.modRec_par (k : Nat) (f : FRec → FRec) (m x : Nat) : (s.modRec k f).par m x = s.par m x := rfl

/-! ### modPlane -/

@[simp] theorem State.modPlane_clk (k : Nat) (f : PlaneRing → PlaneRing) : (s.modPlane k f).clk = s.clk := rfl
@[simp] theorem State.modPlane_dev (k : Nat) (f : PlaneRing → PlaneRing) : (s.modPlane k f).dev = s.dev := rfl
@[simp] theorem State.modPlane_linksDown (k : Nat) (f : PlaneRing → PlaneRing) : (s.modPlane k f).linksDown = s.linksDown := rfl
@[simp] theorem State.modPlane_parts (k : Nat) (f : PlaneRing → PlaneRing) : (s.modPlane k f).parts = s.parts := rfl
@[simp] theorem State.modPlane_longs (k : Nat) (f : PlaneRing → PlaneRing) : (s.modPlane k f).longs = s.longs := rfl
@[simp] theorem State.modPlane_store (k : Nat) (f : PlaneRing → PlaneRing) : (s.modPlane k f).store = s.store := rfl
@[simp] theorem State.modPlane_qs (k : Nat) (f : PlaneRing → PlaneRing) : (s.modPlane k f).qs = s.qs := rfl
@[simp] theorem State.modPlane_handoff (k : Nat) (f : PlaneRing → PlaneRing) : (s.modPlane k f).handoff = s.handoff := rfl
@[simp] theorem State.modPlane_upd (k : Nat) (f : PlaneRing → PlaneRing) : (s.modPlane k f).upd = s.upd := rfl
@[simp] theorem State.modPlane_chans (k : Nat) (f : PlaneRing → PlaneRing) : (s.modPlane k f).chans = s.chans := rfl
@[simp] theorem State.modPlane_lcs (k : Nat) (f : PlaneRing → PlaneRing) : (s.modPlane k f).lcs = s.lcs := rfl
@[simp] theorem State.modPlane_lats (k : Nat) (f : PlaneRing → PlaneRing) : (s.modPlane k f).lats = s.lats := rfl
@[simp] theorem State.modPlane_syncs (k : Nat) (f : PlaneRing → PlaneRing) : (s.modPlane k f).syncs = s.syncs := rfl
@[simp] theorem State.modPlane_gw (k : Nat) (f : PlaneRing → PlaneRing) : (s.modPlane k f).gw = s.gw := rfl
@[simp] theorem State.modPlane_axes (k : Nat) (f : PlaneRing → PlaneRing) : (s.modPlane k f).axes = s.axes := rfl
@[simp] theorem State.modPlane_fc (k : Nat) (f : PlaneRing → PlaneRing) : (s.modPlane k f).fc = s.fc := rfl
@[simp] theorem State.modPlane_keep (k : Nat) (f : PlaneRing → PlaneRing) : (s.modPlane k f).keep = s.keep := rfl
@[simp] theorem State.modPlane_budget (k : Nat) (f : PlaneRing → PlaneRing) : (s.modPlane k f).budget = s.budget := rfl
@[simp] theorem State.modPlane_age (k : Nat) (f : PlaneRing → PlaneRing) : (s.modPlane k f).age = s.age := rfl
@[simp] theorem State.modPlane_params (k : Nat) (f : PlaneRing → PlaneRing) : (s.modPlane k f).params = s.params := rfl
@[simp] theorem State.modPlane_expert (k : Nat) (f : PlaneRing → PlaneRing) : (s.modPlane k f).expert = s.expert := rfl
@[simp] theorem State.modPlane_revoked (k : Nat) (f : PlaneRing → PlaneRing) : (s.modPlane k f).revoked = s.revoked := rfl
@[simp] theorem State.modPlane_stages (k : Nat) (f : PlaneRing → PlaneRing) : (s.modPlane k f).stages = s.stages := rfl
@[simp] theorem State.modPlane_commits (k : Nat) (f : PlaneRing → PlaneRing) : (s.modPlane k f).commits = s.commits := rfl
@[simp] theorem State.modPlane_out (k : Nat) (f : PlaneRing → PlaneRing) : (s.modPlane k f).out = s.out := rfl
@[simp] theorem State.modPlane_fresh (k : Nat) (f : PlaneRing → PlaneRing) : (s.modPlane k f).fresh = s.fresh := rfl
@[simp] theorem State.modPlane_pending (k : Nat) (f : PlaneRing → PlaneRing) : (s.modPlane k f).pending = s.pending := rfl
@[simp] theorem State.modPlane_chan (k : Nat) (f : PlaneRing → PlaneRing) (j : Nat) : (s.modPlane k f).chan j = s.chan j := rfl
@[simp] theorem State.modPlane_part (k : Nat) (f : PlaneRing → PlaneRing) (j : Nat) : (s.modPlane k f).part j = s.part j := rfl
@[simp] theorem State.modPlane_queue (k : Nat) (f : PlaneRing → PlaneRing) (j : Nat) : (s.modPlane k f).queue j = s.queue j := rfl
@[simp] theorem State.modPlane_lc (k : Nat) (f : PlaneRing → PlaneRing) (j : Nat) : (s.modPlane k f).lc j = s.lc j := rfl
@[simp] theorem State.modPlane_axis (k : Nat) (f : PlaneRing → PlaneRing) (j : Nat) : (s.modPlane k f).axis j = s.axis j := rfl
@[simp] theorem State.modPlane_lat (k : Nat) (f : PlaneRing → PlaneRing) (j : Nat) : (s.modPlane k f).lat j = s.lat j := rfl
@[simp] theorem State.modPlane_sync (k : Nat) (f : PlaneRing → PlaneRing) (j : Nat) : (s.modPlane k f).sync j = s.sync j := rfl
@[simp] theorem State.modPlane_stage (k : Nat) (f : PlaneRing → PlaneRing) (j : Nat) : (s.modPlane k f).stage j = s.stage j := rfl
@[simp] theorem State.modPlane_now (k : Nat) (f : PlaneRing → PlaneRing) : (s.modPlane k f).now = s.now := rfl
@[simp] theorem State.modPlane_par (k : Nat) (f : PlaneRing → PlaneRing) (m x : Nat) : (s.modPlane k f).par m x = s.par m x := rfl
theorem State.modPlane_planeRing (k : Nat) (f : PlaneRing → PlaneRing) (j : Nat) :
    (s.modPlane k f).planeRing j = if j = k ∧ k < 3 then f (s.planeRing j) else s.planeRing j := Tab.get_mod _ _ _ _ _

/-! ### setPar -/

@[simp] theorem State.setPar_clk (m i v : Nat) :
    (s.setPar m i v).clk = s.clk := rfl
@[simp] theorem State.setPar_dev (m i v : Nat) :
    (s.setPar m i v).dev = s.dev := rfl
@[simp] theorem State.setPar_linksDown (m i v : Nat) :
    (s.setPar m i v).linksDown = s.linksDown := rfl
@[simp] theorem State.setPar_parts (m i v : Nat) :
    (s.setPar m i v).parts = s.parts := rfl
@[simp] theorem State.setPar_longs (m i v : Nat) :
    (s.setPar m i v).longs = s.longs := rfl
@[simp] theorem State.setPar_store (m i v : Nat) :
    (s.setPar m i v).store = s.store := rfl
@[simp] theorem State.setPar_qs (m i v : Nat) :
    (s.setPar m i v).qs = s.qs := rfl
@[simp] theorem State.setPar_handoff (m i v : Nat) :
    (s.setPar m i v).handoff = s.handoff := rfl
@[simp] theorem State.setPar_rings (m i v : Nat) :
    (s.setPar m i v).rings = s.rings := rfl
@[simp] theorem State.setPar_upd (m i v : Nat) :
    (s.setPar m i v).upd = s.upd := rfl
@[simp] theorem State.setPar_chans (m i v : Nat) :
    (s.setPar m i v).chans = s.chans := rfl
@[simp] theorem State.setPar_lcs (m i v : Nat) :
    (s.setPar m i v).lcs = s.lcs := rfl
@[simp] theorem State.setPar_lats (m i v : Nat) :
    (s.setPar m i v).lats = s.lats := rfl
@[simp] theorem State.setPar_syncs (m i v : Nat) :
    (s.setPar m i v).syncs = s.syncs := rfl
@[simp] theorem State.setPar_gw (m i v : Nat) :
    (s.setPar m i v).gw = s.gw := rfl
@[simp] theorem State.setPar_axes (m i v : Nat) :
    (s.setPar m i v).axes = s.axes := rfl
@[simp] theorem State.setPar_fc (m i v : Nat) :
    (s.setPar m i v).fc = s.fc := rfl
@[simp] theorem State.setPar_keep (m i v : Nat) :
    (s.setPar m i v).keep = s.keep := rfl
@[simp] theorem State.setPar_budget (m i v : Nat) :
    (s.setPar m i v).budget = s.budget := rfl
@[simp] theorem State.setPar_age (m i v : Nat) :
    (s.setPar m i v).age = s.age := rfl
@[simp] theorem State.setPar_expert (m i v : Nat) :
    (s.setPar m i v).expert = s.expert := rfl
@[simp] theorem State.setPar_revoked (m i v : Nat) :
    (s.setPar m i v).revoked = s.revoked := rfl
@[simp] theorem State.setPar_stages (m i v : Nat) :
    (s.setPar m i v).stages = s.stages := rfl
@[simp] theorem State.setPar_commits (m i v : Nat) :
    (s.setPar m i v).commits = s.commits := rfl
@[simp] theorem State.setPar_out (m i v : Nat) :
    (s.setPar m i v).out = s.out := rfl
@[simp] theorem State.setPar_fresh (m i v : Nat) :
    (s.setPar m i v).fresh = s.fresh := rfl
@[simp] theorem State.setPar_pending (m i v : Nat) :
    (s.setPar m i v).pending = s.pending := rfl
@[simp] theorem State.setPar_chan (m i v : Nat) (j : Nat) :
    (s.setPar m i v).chan j = s.chan j := rfl
@[simp] theorem State.setPar_part (m i v : Nat) (j : Nat) :
    (s.setPar m i v).part j = s.part j := rfl
@[simp] theorem State.setPar_queue (m i v : Nat) (j : Nat) :
    (s.setPar m i v).queue j = s.queue j := rfl
@[simp] theorem State.setPar_lc (m i v : Nat) (j : Nat) :
    (s.setPar m i v).lc j = s.lc j := rfl
@[simp] theorem State.setPar_axis (m i v : Nat) (j : Nat) :
    (s.setPar m i v).axis j = s.axis j := rfl
@[simp] theorem State.setPar_lat (m i v : Nat) (j : Nat) :
    (s.setPar m i v).lat j = s.lat j := rfl
@[simp] theorem State.setPar_sync (m i v : Nat) (j : Nat) :
    (s.setPar m i v).sync j = s.sync j := rfl
@[simp] theorem State.setPar_stage (m i v : Nat) (j : Nat) :
    (s.setPar m i v).stage j = s.stage j := rfl

/-! ### storeWrite -/

@[simp] theorem State.storeWrite_clk (a : Nat) (bs : List Byte) :
    (s.storeWrite a bs).clk = s.clk := rfl
@[simp] theorem State.storeWrite_dev (a : Nat) (bs : List Byte) :
    (s.storeWrite a bs).dev = s.dev := rfl
@[simp] theorem State.storeWrite_linksDown (a : Nat) (bs : List Byte) :
    (s.storeWrite a bs).linksDown = s.linksDown := rfl
@[simp] theorem State.storeWrite_parts (a : Nat) (bs : List Byte) :
    (s.storeWrite a bs).parts = s.parts := rfl
@[simp] theorem State.storeWrite_longs (a : Nat) (bs : List Byte) :
    (s.storeWrite a bs).longs = s.longs := rfl
@[simp] theorem State.storeWrite_qs (a : Nat) (bs : List Byte) :
    (s.storeWrite a bs).qs = s.qs := rfl
@[simp] theorem State.storeWrite_handoff (a : Nat) (bs : List Byte) :
    (s.storeWrite a bs).handoff = s.handoff := rfl
@[simp] theorem State.storeWrite_rings (a : Nat) (bs : List Byte) :
    (s.storeWrite a bs).rings = s.rings := rfl
@[simp] theorem State.storeWrite_upd (a : Nat) (bs : List Byte) :
    (s.storeWrite a bs).upd = s.upd := rfl
@[simp] theorem State.storeWrite_chans (a : Nat) (bs : List Byte) :
    (s.storeWrite a bs).chans = s.chans := rfl
@[simp] theorem State.storeWrite_lcs (a : Nat) (bs : List Byte) :
    (s.storeWrite a bs).lcs = s.lcs := rfl
@[simp] theorem State.storeWrite_lats (a : Nat) (bs : List Byte) :
    (s.storeWrite a bs).lats = s.lats := rfl
@[simp] theorem State.storeWrite_syncs (a : Nat) (bs : List Byte) :
    (s.storeWrite a bs).syncs = s.syncs := rfl
@[simp] theorem State.storeWrite_gw (a : Nat) (bs : List Byte) :
    (s.storeWrite a bs).gw = s.gw := rfl
@[simp] theorem State.storeWrite_axes (a : Nat) (bs : List Byte) :
    (s.storeWrite a bs).axes = s.axes := rfl
@[simp] theorem State.storeWrite_fc (a : Nat) (bs : List Byte) :
    (s.storeWrite a bs).fc = s.fc := rfl
@[simp] theorem State.storeWrite_keep (a : Nat) (bs : List Byte) :
    (s.storeWrite a bs).keep = s.keep := rfl
@[simp] theorem State.storeWrite_budget (a : Nat) (bs : List Byte) :
    (s.storeWrite a bs).budget = s.budget := rfl
@[simp] theorem State.storeWrite_age (a : Nat) (bs : List Byte) :
    (s.storeWrite a bs).age = s.age := rfl
@[simp] theorem State.storeWrite_params (a : Nat) (bs : List Byte) :
    (s.storeWrite a bs).params = s.params := rfl
@[simp] theorem State.storeWrite_expert (a : Nat) (bs : List Byte) :
    (s.storeWrite a bs).expert = s.expert := rfl
@[simp] theorem State.storeWrite_revoked (a : Nat) (bs : List Byte) :
    (s.storeWrite a bs).revoked = s.revoked := rfl
@[simp] theorem State.storeWrite_stages (a : Nat) (bs : List Byte) :
    (s.storeWrite a bs).stages = s.stages := rfl
@[simp] theorem State.storeWrite_commits (a : Nat) (bs : List Byte) :
    (s.storeWrite a bs).commits = s.commits := rfl
@[simp] theorem State.storeWrite_out (a : Nat) (bs : List Byte) :
    (s.storeWrite a bs).out = s.out := rfl
@[simp] theorem State.storeWrite_fresh (a : Nat) (bs : List Byte) :
    (s.storeWrite a bs).fresh = s.fresh := rfl
@[simp] theorem State.storeWrite_pending (a : Nat) (bs : List Byte) :
    (s.storeWrite a bs).pending = s.pending := rfl
@[simp] theorem State.storeWrite_chan (a : Nat) (bs : List Byte) (j : Nat) :
    (s.storeWrite a bs).chan j = s.chan j := rfl
@[simp] theorem State.storeWrite_part (a : Nat) (bs : List Byte) (j : Nat) :
    (s.storeWrite a bs).part j = s.part j := rfl
@[simp] theorem State.storeWrite_queue (a : Nat) (bs : List Byte) (j : Nat) :
    (s.storeWrite a bs).queue j = s.queue j := rfl
@[simp] theorem State.storeWrite_lc (a : Nat) (bs : List Byte) (j : Nat) :
    (s.storeWrite a bs).lc j = s.lc j := rfl
@[simp] theorem State.storeWrite_axis (a : Nat) (bs : List Byte) (j : Nat) :
    (s.storeWrite a bs).axis j = s.axis j := rfl
@[simp] theorem State.storeWrite_lat (a : Nat) (bs : List Byte) (j : Nat) :
    (s.storeWrite a bs).lat j = s.lat j := rfl
@[simp] theorem State.storeWrite_sync (a : Nat) (bs : List Byte) (j : Nat) :
    (s.storeWrite a bs).sync j = s.sync j := rfl
@[simp] theorem State.storeWrite_stage (a : Nat) (bs : List Byte) (j : Nat) :
    (s.storeWrite a bs).stage j = s.stage j := rfl

/-! ### log -/

/-- From `s` to `t` only the log and the plane event rings changed. -/
def State.LogOnly (s t : State) : Prop :=
  t = { s with
    rings := t.rings
    keep := { s.keep with log := t.keep.log, logSeq := t.keep.logSeq, logLost := t.keep.logLost } }

variable {s} in
theorem State.LogOnly.trans {t u : State} (h : s.LogOnly t) (k : t.LogOnly u) : s.LogOnly u := by
  unfold State.LogOnly at *
  rw [k, h]

variable {s} in
/-- What does not read the log or the rings is the same. -/
theorem State.LogOnly.same {α : Type} {t : State} (h : s.LogOnly t) (p : State → α)
    (e : ∀ k r, p { s with keep := k, rings := r } = p s) : p t = p s := (congrArg p h).trans (e _ _)

variable {s} in
theorem State.LogOnly.foldl {α : Type} {f : State → α → State} (h : ∀ t a, State.LogOnly t (f t a)) :
    ∀ (l : List α) (t : State), s.LogOnly t → s.LogOnly (l.foldl f t)
  | [], _, k => k
  | a :: l, t, k => foldl h l (f t a) (k.trans (h t a))

theorem State.modPlane_only (k : Nat) (f : PlaneRing → PlaneRing) : s.LogOnly (s.modPlane k f) := rfl
theorem State.writeLog_only (r : LogRec) : s.LogOnly (s.writeLog r) := rfl

theorem State.readPlane_only (k : Nat) (e : PlaneEntry) : s.LogOnly (s.readPlane k e) := by
  unfold State.readPlane
  split
  · refine State.LogOnly.trans ?_ (State.writeLog_only _ _)
    split
    · exact s.modPlane_only _ _
    · exact (s.modPlane_only _ _).trans (State.writeLog_only _ _)
  · exact s.modPlane_only _ _
  · rfl

/-- The supervisor's reading of the plane event rings changes only the log and the rings (R22). -/
theorem State.supervise_only : s.LogOnly s.supervise :=
  State.LogOnly.foldl (fun t k => State.LogOnly.foldl (fun u e => u.readPlane_only k e) _ t rfl) _ s rfl

/-- Logging an event changes only the log and the plane event rings (R22, R386). -/
theorem State.log_only (kind flags index cause reactions value : Nat) :
    s.LogOnly (s.log kind flags index cause reactions value) := by
  unfold State.log
  dsimp only
  split
  · exact s.modPlane_only _ _
  · exact (s.modPlane_only _ _).trans (State.supervise_only _)

@[simp] theorem State.log_clk (kind flags index cause reactions value : Nat) :
    (s.log kind flags index cause reactions value).clk = s.clk := (s.log_only ..).same State.clk fun _ _ => rfl
@[simp] theorem State.log_dev (kind flags index cause reactions value : Nat) :
    (s.log kind flags index cause reactions value).dev = s.dev := (s.log_only ..).same State.dev fun _ _ => rfl
@[simp] theorem State.log_linksDown (kind flags index cause reactions value : Nat) :
    (s.log kind flags index cause reactions value).linksDown = s.linksDown := (s.log_only ..).same State.linksDown fun _ _ => rfl
@[simp] theorem State.log_parts (kind flags index cause reactions value : Nat) :
    (s.log kind flags index cause reactions value).parts = s.parts := (s.log_only ..).same State.parts fun _ _ => rfl
@[simp] theorem State.log_longs (kind flags index cause reactions value : Nat) :
    (s.log kind flags index cause reactions value).longs = s.longs := (s.log_only ..).same State.longs fun _ _ => rfl
@[simp] theorem State.log_store (kind flags index cause reactions value : Nat) :
    (s.log kind flags index cause reactions value).store = s.store := (s.log_only ..).same State.store fun _ _ => rfl
@[simp] theorem State.log_qs (kind flags index cause reactions value : Nat) :
    (s.log kind flags index cause reactions value).qs = s.qs := (s.log_only ..).same State.qs fun _ _ => rfl
@[simp] theorem State.log_handoff (kind flags index cause reactions value : Nat) :
    (s.log kind flags index cause reactions value).handoff = s.handoff := (s.log_only ..).same State.handoff fun _ _ => rfl
@[simp] theorem State.log_upd (kind flags index cause reactions value : Nat) :
    (s.log kind flags index cause reactions value).upd = s.upd := (s.log_only ..).same State.upd fun _ _ => rfl
@[simp] theorem State.log_chans (kind flags index cause reactions value : Nat) :
    (s.log kind flags index cause reactions value).chans = s.chans := (s.log_only ..).same State.chans fun _ _ => rfl
@[simp] theorem State.log_lcs (kind flags index cause reactions value : Nat) :
    (s.log kind flags index cause reactions value).lcs = s.lcs := (s.log_only ..).same State.lcs fun _ _ => rfl
@[simp] theorem State.log_lats (kind flags index cause reactions value : Nat) :
    (s.log kind flags index cause reactions value).lats = s.lats := (s.log_only ..).same State.lats fun _ _ => rfl
@[simp] theorem State.log_syncs (kind flags index cause reactions value : Nat) :
    (s.log kind flags index cause reactions value).syncs = s.syncs := (s.log_only ..).same State.syncs fun _ _ => rfl
@[simp] theorem State.log_gw (kind flags index cause reactions value : Nat) :
    (s.log kind flags index cause reactions value).gw = s.gw := (s.log_only ..).same State.gw fun _ _ => rfl
@[simp] theorem State.log_axes (kind flags index cause reactions value : Nat) :
    (s.log kind flags index cause reactions value).axes = s.axes := (s.log_only ..).same State.axes fun _ _ => rfl
@[simp] theorem State.log_fc (kind flags index cause reactions value : Nat) :
    (s.log kind flags index cause reactions value).fc = s.fc := (s.log_only ..).same State.fc fun _ _ => rfl
@[simp] theorem State.log_budget (kind flags index cause reactions value : Nat) :
    (s.log kind flags index cause reactions value).budget = s.budget := (s.log_only ..).same State.budget fun _ _ => rfl
@[simp] theorem State.log_age (kind flags index cause reactions value : Nat) :
    (s.log kind flags index cause reactions value).age = s.age := (s.log_only ..).same State.age fun _ _ => rfl
@[simp] theorem State.log_params (kind flags index cause reactions value : Nat) :
    (s.log kind flags index cause reactions value).params = s.params := (s.log_only ..).same State.params fun _ _ => rfl
@[simp] theorem State.log_expert (kind flags index cause reactions value : Nat) :
    (s.log kind flags index cause reactions value).expert = s.expert := (s.log_only ..).same State.expert fun _ _ => rfl
@[simp] theorem State.log_revoked (kind flags index cause reactions value : Nat) :
    (s.log kind flags index cause reactions value).revoked = s.revoked := (s.log_only ..).same State.revoked fun _ _ => rfl
@[simp] theorem State.log_stages (kind flags index cause reactions value : Nat) :
    (s.log kind flags index cause reactions value).stages = s.stages := (s.log_only ..).same State.stages fun _ _ => rfl
@[simp] theorem State.log_commits (kind flags index cause reactions value : Nat) :
    (s.log kind flags index cause reactions value).commits = s.commits := (s.log_only ..).same State.commits fun _ _ => rfl
@[simp] theorem State.log_out (kind flags index cause reactions value : Nat) :
    (s.log kind flags index cause reactions value).out = s.out := (s.log_only ..).same State.out fun _ _ => rfl
@[simp] theorem State.log_fresh (kind flags index cause reactions value : Nat) :
    (s.log kind flags index cause reactions value).fresh = s.fresh := (s.log_only ..).same State.fresh fun _ _ => rfl
@[simp] theorem State.log_pending (kind flags index cause reactions value : Nat) :
    (s.log kind flags index cause reactions value).pending = s.pending := (s.log_only ..).same State.pending fun _ _ => rfl
@[simp] theorem State.log_chan (kind flags index cause reactions value j : Nat) :
    (s.log kind flags index cause reactions value).chan j = s.chan j :=
  (s.log_only ..).same (State.chan · j) fun _ _ => rfl
@[simp] theorem State.log_part (kind flags index cause reactions value j : Nat) :
    (s.log kind flags index cause reactions value).part j = s.part j :=
  (s.log_only ..).same (State.part · j) fun _ _ => rfl
@[simp] theorem State.log_queue (kind flags index cause reactions value j : Nat) :
    (s.log kind flags index cause reactions value).queue j = s.queue j :=
  (s.log_only ..).same (State.queue · j) fun _ _ => rfl
@[simp] theorem State.log_lc (kind flags index cause reactions value j : Nat) :
    (s.log kind flags index cause reactions value).lc j = s.lc j :=
  (s.log_only ..).same (State.lc · j) fun _ _ => rfl
@[simp] theorem State.log_axis (kind flags index cause reactions value j : Nat) :
    (s.log kind flags index cause reactions value).axis j = s.axis j :=
  (s.log_only ..).same (State.axis · j) fun _ _ => rfl
@[simp] theorem State.log_lat (kind flags index cause reactions value j : Nat) :
    (s.log kind flags index cause reactions value).lat j = s.lat j :=
  (s.log_only ..).same (State.lat · j) fun _ _ => rfl
@[simp] theorem State.log_sync (kind flags index cause reactions value j : Nat) :
    (s.log kind flags index cause reactions value).sync j = s.sync j :=
  (s.log_only ..).same (State.sync · j) fun _ _ => rfl
@[simp] theorem State.log_stage (kind flags index cause reactions value j : Nat) :
    (s.log kind flags index cause reactions value).stage j = s.stage j :=
  (s.log_only ..).same (State.stage · j) fun _ _ => rfl

/-! ### The store -/

@[simp] theorem State.storeWrite_mem (a : Nat) (bs : List Byte) :
    (s.storeWrite a bs).store.mem = memWrite s.store.mem a bs := rfl

/-- A read of the store that a write leaves alone. -/
theorem State.storeRead_outside {a x n : Nat} {bs : List Byte} (h : x + n ≤ a ∨ a + bs.length ≤ x) :
    (s.storeWrite a bs).storeRead x n = s.storeRead x n := memRead_memWrite_outside _ _ _ _ _ h

/-- A read of the store gives what was written. -/
theorem State.storeRead_written {a : Nat} {bs : List Byte} (h : Memory.wf s.store.mem = true) :
    (s.storeWrite a bs).storeRead a bs.length = bs := memRead_memWrite _ _ _ h

end Sys2Proof.Machine
end

