-- ==== Sys2Proof/Laws/Mailbox.lean ====
section
/-! SUPPORT. How a mailbox command is served (R81 to R88): what `mailbox` answers once its request is at the front. -/
namespace Sys2Proof.Machine

variable {d : CmdDef} {h : Req → State → Answer} {dt : Nat} {m : Mbox} {s t : State}

/-- A request that is served is answered as its handler answers. -/
theorem mailbox_serves (hs : Serves d dt m s) :
    mailbox d h dt m s =
      .next (((s.inHand d.code dt m).answer (reqOf d.code m) ((s.inHand d.code dt m).route (reqOf d.code m) h)).drain
        m.via.part.val 16) := by
  have serve : (s.offered d.code dt m).serve m.via.part.val m.slot.val d h =
      ((s.inHand d.code dt m).answer (reqOf d.code m) ((s.inHand d.code dt m).route (reqOf d.code m) h)).drain
        m.via.part.val 16 := by
    have c : d.check ((acceptedOf d.code m).req m.via.part.val) (s.inHand d.code dt m) = none := hs.checks
    unfold State.inHand at c
    unfold State.serve
    rw [hs.front, hs.turn]
    simp only
    rw [if_neg (by simp [acceptedOf])]
    simp only [c]
    rfl
  unfold mailbox
  simp only [hs.reach, Bool.not_true, Bool.false_eq_true, if_false]
  rw [← serve]
  unfold State.offered
  dsimp only
  split <;> rfl

/-- Serving goes through the handler in the state `taken`; the completion of a management command comes back through its
ring (R20). -/
theorem route_taken :
    (s.inHand d.code dt m).route (reqOf d.code m) h =
      if managementCodes.contains d.code then
        (h (reqOf d.code m) (s.taken d.code dt m)).relayed m.via.part.val m.slot.val
      else h (reqOf d.code m) (s.taken d.code dt m) := by
  have c : (reqOf d.code m).code = d.code := rfl
  unfold State.route State.taken
  rw [c]
  split <;> rfl

/-- A command that its handler completes. -/
theorem mailbox_done {st : Nat} {data : List Byte} (hs : Serves d dt m s)
    (e : h (reqOf d.code m) (s.taken d.code dt m) = .done st data t) :
    mailbox d h dt m s = .next (t.answered d.code m st data) := by
  rw [mailbox_serves hs, route_taken, e]
  unfold State.answered
  split <;> rfl

/-- A command that runs on. -/
theorem mailbox_later {l : Long} (hs : Serves d dt m s)
    (e : h (reqOf d.code m) (s.taken d.code dt m) = .later l t) :
    mailbox d h dt m s = .next (t.running (s.inHand d.code dt m).now l m) := by
  rw [mailbox_serves hs, route_taken, e]
  split <;> rfl

/-- A command that its handler refuses. -/
theorem mailbox_refused {st detail : Nat} (hs : Serves d dt m s)
    (e : h (reqOf d.code m) (s.taken d.code dt m) = .refuse st detail) :
    mailbox d h dt m s =
      .next (((s.inHand d.code dt m).respond m.via.part.val m.slot.val d.code m.rq.tag st detail []).drain
        m.via.part.val 16) := by
  rw [mailbox_serves hs, route_taken, e]
  split <;> rfl

end Sys2Proof.Machine
end

