-- ==== Sys2Proof/Laws/Frames.lean ====
section
/-! SUPPORT. What the passage of time, the acceptance of a request and its response leave alone. -/
namespace Sys2Proof.Machine

variable {d : CmdDef} {h : Req → State → Answer} {dt : Nat} {m : Mbox} {s t u : State}

/-- From `s` to `u` only TIME, the log and the plane event rings on the way to it changed. -/
def OnlyTime (s u : State) : Prop :=
  u = { s with
    clk := u.clk, rings := u.rings
    keep := { s.keep with log := u.keep.log, logSeq := u.keep.logSeq, logLost := u.keep.logLost } }

theorem State.LogOnly.time (k : u.LogOnly t) (h : OnlyTime s u) : OnlyTime s t := by
  unfold OnlyTime State.LogOnly at *
  rw [k, h]

theorem State.logWrap_time {n : Nat} {v w : W64} (h : OnlyTime s u) : OnlyTime s (u.logWrap n v w) := by
  unfold State.logWrap
  split
  · exact (u.log_only ..).time h
  · split
    · exact (u.log_only ..).time h
    · exact h

/-- Time that passes changes TIME and, where a coordinate wraps, the log (R52, R55). -/
theorem State.elapse_time (s : State) (dt : Nat) : OnlyTime s (s.elapse dt) := by
  have fold : ∀ (l : List Nat) (f g : Nat → W64) (u : State), OnlyTime s u →
      OnlyTime s (l.foldl (fun u n => u.logWrap n (f n) (g n)) u) := by
    intro l f g
    induction l with
    | nil => exact fun _ h => h
    | cons n l ih => exact fun u h => ih _ (State.logWrap_time h)
  unfold State.elapse
  dsimp only
  split
  · exact rfl
  · exact fold _ (fun n => s.lcVal n) _ _ rfl

/-! ### The window of a partition -/

theorem AnswerOnly.trans {p : Nat} (a : AnswerOnly p s t) (b : AnswerOnly p t u) : AnswerOnly p s u where
  state := by
    have e := b.state
    rw [a.state] at e
    exact e
  others q h := (b.others q h).trans (a.others q h)
  window := by
    have e := b.window
    rw [a.window] at e
    exact e

theorem OnlyTime.answer {p : Nat} (h : OnlyTime s u) : AnswerOnly p s u := by
  unfold OnlyTime at h
  have e : u.parts = s.parts := by rw [h]
  have d : u.dev = s.dev := by rw [h]
  have f : ∀ q, u.part q = s.part q := fun q => by unfold State.part; rw [e]
  refine ⟨?_, fun q _ => f q, ?_⟩
  · rw [e, d]
    exact h
  · rw [f]

/-- A change of the slots, the DONE bits, the sequence number, the accepted requests and the interrupts of `p`. -/
theorem State.modPart_answer {p : Nat} (hp : p < 8) (f : Part → Part)
    (h : ∀ x, f x = { x with
      slots := (f x).slots, done := (f x).done, seq := (f x).seq, accepted := (f x).accepted, pba := (f x).pba
      msiSent := (f x).msiSent }) : AnswerOnly p s (s.modPart p f) := by
  refine ⟨rfl, fun q hq => State.modPart_part_other _ f hq, ?_⟩
  rw [State.modPart_part_self _ f hp]
  exact h _

theorem State.irq_answer {p k : Nat} (hp : p < 8) : AnswerOnly p s (s.irq p k) := by
  have refl : AnswerOnly p s s := (show OnlyTime s s from rfl).answer
  unfold State.irq
  dsimp only
  split
  · split
    · exact State.modPart_answer hp _ fun _ => rfl
    · exact State.modPart_answer hp _ fun _ => rfl
  · exact refl

/-- A response changes the window of its partition only (R82, R84). -/
theorem State.respond_answer {p slot code st detail : Nat} {tag : W16} {data : List Byte} (hp : p < 8) :
    AnswerOnly p s (s.respond p slot code tag st detail data) :=
  (State.modPart_answer hp _ fun _ => rfl).trans (State.irq_answer hp)

/-- A partition with no accepted request has none to answer. -/
theorem State.drain_none {p n : Nat} (h : (s.part p).accepted = []) : s.drain p n = s := by
  cases n with
  | zero => rfl
  | succ n =>
    unfold State.drain
    rw [h]

theorem State.irq_accepted {p k : Nat} (hp : p < 8) : ((s.irq p k).part p).accepted = (s.part p).accepted := by
  rw [(State.irq_answer hp (s := s)).window]
  unfold State.irq
  dsimp only
  split
  · split <;> rw [State.modPart_part_self _ _ hp]
  · rfl

theorem State.countIgnored_accepted {p : Nat} (hp : p < 8) : ((s.countIgnored p).part p).accepted = (s.part p).accepted := by
  unfold State.countIgnored State.irqCause
  split
  · rw [State.modPart_part_self _ _ hp]
  · rw [State.irq_accepted hp, State.modPart_part_self _ _ hp, State.modPart_part_self _ _ hp]

theorem State.refuseCtrl_accepted {p a : Nat} (hp : p < 8) :
    ((s.refuseCtrl p a).part p).accepted = (s.part p).accepted := by
  show ((s.countRefused p).part p).accepted = _
  unfold State.countRefused State.irqCause
  split
  · rw [State.modPart_part_self _ _ hp]
  · rw [State.irq_accepted hp, State.modPart_part_self _ _ hp, State.modPart_part_self _ _ hp]

/-- What moves through the plane event rings changes no window (R20). -/
theorem State.LogOnly.answer {p : Nat} (k : s.LogOnly u) : AnswerOnly p s u := (k.time rfl).answer

theorem State.relayRequest_only {p slot : Nat} : s.LogOnly (s.relayRequest p slot) :=
  State.LogOnly.trans (s.modPlane_only _ _) (State.supervise_only _)

theorem State.relayDone_only {p slot : Nat} : s.LogOnly (s.relayDone p slot) := rfl

/-- Taking a request in hand changes the window of its partition and the turn. -/
theorem State.takeRequest_answer {p : Nat} (hp : p < 8) : AnswerOnly p s (s.takeRequest p) := by
  have h := State.modPart_answer (s := s) hp (fun pt => { pt with accepted := pt.accepted.drop 1 }) fun _ => rfl
  exact ⟨rfl, h.others, h.window⟩

/-- Taking the request of a served command in hand changes the window of its partition only, and the turn. -/
theorem Serves.inHand (hs : Serves d dt m s) : AnswerOnly m.via.part.val s (s.inHand d.code dt m) := by
  have hp : m.via.part.val < 8 := m.via.part.isLt
  have he : AnswerOnly m.via.part.val s (s.elapse dt) := (State.elapse_time s dt).answer
  refine he.trans (AnswerOnly.trans (t := s.offered d.code dt m) ?_ (State.takeRequest_answer hp))
  have hf := hs.front
  unfold State.offered at hf ⊢
  dsimp only at hf ⊢
  split
  · exact (show OnlyTime (s.elapse dt) (s.elapse dt) from rfl).answer
  · next hh =>
    rw [if_neg hh] at hf
    have held : ∀ x : State, (x.part m.via.part.val).accepted = ((s.elapse dt).part m.via.part.val).accepted →
        (x.part m.via.part.val).accepted = [acceptedOf d.code m] → False := by
      intro x e f
      rw [e] at f
      exact hh (by simp [State.holds, f, acceptedOf])
    unfold State.submit at hf ⊢
    split
    · next hs => 
      rw [if_pos hs] at hf
      exact (held _ (by rw [State.countIgnored_accepted hp, State.refuseCtrl_accepted hp]) hf).elim
    · next hs =>
      rw [if_neg hs] at hf
      unfold State.doorbell at hf ⊢
      split
      · next hd =>
        rw [if_pos hd] at hf
        exact (held _ (by rw [State.countIgnored_accepted hp, State.modPart_part_self _ _ hp]) hf).elim
      · exact (State.modPart_answer hp _ fun _ => rfl).trans (State.modPart_answer hp _ fun _ => rfl)

theorem State.respond_accepted {p slot code st detail : Nat} {tag : W16} {data : List Byte} (hp : p < 8) :
    ((s.respond p slot code tag st detail data).part p).accepted = (s.part p).accepted := by
  unfold State.respond
  rw [State.irq_accepted hp, State.modPart_part_self _ _ hp]

theorem Serves.accepted (hs : Serves d dt m s) : ((s.inHand d.code dt m).part m.via.part.val).accepted = [] := by
  show ((State.modPart _ _ _).part _).accepted = []
  rw [State.modPart_part_self _ _ m.via.part.isLt, hs.front]
  rfl

/-- The handler of a served command works in a state that differs in the window of its partition, the turn, TIME, the log
and the plane event rings only. -/
theorem Serves.taken (hs : Serves d dt m s) : AnswerOnly m.via.part.val s (s.taken d.code dt m) := by
  unfold State.taken
  split
  · exact hs.inHand.trans State.relayRequest_only.answer
  · exact hs.inHand

/-- What a served command leaves alone: where the state `t` that its handler completes with is related to the state it
began with by `R`, and a response and the way through the plane event rings keep `R`, so is the state after it. -/
theorem mailbox_leaves {R : State → Prop} (hs : Serves d dt m s) (e : mailbox d h dt m s = .next u)
    (refused : R (s.inHand d.code dt m))
    (done : ∀ st data t, h (reqOf d.code m) (s.taken d.code dt m) = .done st data t →
      R t ∧ (t.part m.via.part.val).accepted = [])
    (later : ∀ l t, h (reqOf d.code m) (s.taken d.code dt m) ≠ .later l t)
    (relay : ∀ t, R t → R (t.relayDone m.via.part.val m.slot.val))
    (answer : ∀ t st detail data, R t → R (t.respond m.via.part.val m.slot.val d.code m.rq.tag st detail data)) : R u := by
  have hp : m.via.part.val < 8 := m.via.part.isLt
  cases ha : h (reqOf d.code m) (s.taken d.code dt m) with
  | refuse st detail =>
    rw [mailbox_refused hs ha] at e
    injection e with e
    subst e
    rw [State.drain_none ((State.respond_accepted hp).trans hs.accepted)]
    exact answer _ _ _ _ refused
  | done st data t =>
    rw [mailbox_done hs ha] at e
    injection e with e
    subst e
    obtain ⟨r, a⟩ := done st data t ha
    unfold State.answered
    split
    · have b : ((t.relayDone m.via.part.val m.slot.val).part m.via.part.val).accepted = [] := a
      rw [State.drain_none ((State.respond_accepted hp).trans b)]
      exact answer _ _ _ _ (relay _ r)
    · rw [State.drain_none ((State.respond_accepted hp).trans a)]
      exact answer _ _ _ _ r
  | later l t => exact absurd ha (later l t)

end Sys2Proof.Machine
end

