-- ==== Sys2Proof/Laws/Keeps.lean ====
section
/-! SUPPORT. The algebra of `Safe` and `Keeps`, and what the shared operations of Ops.lean keep. The lemma of an
operation `f` is named `f_keeps`: what `s` keeps of `s0`, `f s` keeps too. -/
namespace Sys2Proof.Machine

variable {s0 s t u : State}

theorem Safe.refl (s : State) : Safe s s := ⟨rfl, id⟩
theorem Safe.trans (h : Safe s t) (k : Safe t u) : Safe s u := ⟨k.queue.trans h.queue, fun i => k.inv (h.inv i)⟩
theorem Quiet.refl (s : State) : Quiet s s := ⟨rfl, fun w => ⟨w, fun _ _ x => x⟩, rfl, rfl, rfl, rfl, rfl⟩
theorem Quiet.trans (h : Quiet s t) (k : Quiet t u) : Quiet s u :=
  ⟨k.links.trans h.links,
   fun w => ⟨(k.grants (h.grants w).1).1, fun i p x => (h.grants w).2 i p ((k.grants (h.grants w).1).2 i p x)⟩,
   k.straps.trans h.straps, k.porst.trans h.porst, k.rails.trans h.rails, k.tap.trans h.tap, k.boot.trans h.boot⟩
theorem Keeps.refl (s : State) : Keeps s s := ⟨Safe.refl s, Quiet.refl s⟩
theorem Keeps.trans (h : Keeps s t) (k : Keeps t u) : Keeps s u := ⟨h.safe.trans k.safe, h.quiet.trans k.quiet⟩

/-- A change of fields that neither the invariant nor `Quiet` speaks of. -/
theorem Keeps.of_eq (h : Keeps s0 s) (pending : t.pending = s.pending) (mem : t.store.mem = s.store.mem)
    (log : t.keep.log = s.keep.log) (parts : t.parts = s.parts) (recs : t.fc.recs = s.fc.recs)
    (links : t.linksDown = s.linksDown) (expert : t.expert = s.expert)
    (straps : t.dev.straps = s.dev.straps) (porst : t.dev.porst = s.dev.porst) (v08 : t.dev.v08 = s.dev.v08)
    (v18 : t.dev.v18 = s.dev.v18) (v33 : t.dev.v33 = s.dev.v33) (tap : t.dev.tap = s.dev.tap)
    (boot : t.keep.boot = s.keep.boot) : Keeps s0 t := by
  refine h.trans ⟨⟨pending, fun i => ⟨?_, ?_, ?_, ?_, ?_⟩⟩,
    ⟨links, fun w => ⟨?_, fun k p x => ?_⟩, straps, porst, ?_, tap, boot⟩⟩
  · rw [mem]; exact i.mem
  · rw [log]; exact i.log
  · intro p; have := i.parts p; rwa [State.part, ← parts] at this
  · rw [recs]; exact i.recs
  · rw [expert]; exact i.grants
  · rw [expert]; exact w
  · rw [expert] at x; exact x
  · rw [v08, v18, v33]

/-- A record update that touches neither what the invariant speaks of nor what `Quiet` does. -/
theorem Keeps.mk_of (h : Keeps s0 s)
    {clk : Clock} {dev : Dev} {longs : List Long} {rings : Tab PlaneRing 3} {upd : Updates} {store : Store} {qs : Tab Queue 64} {handoff : List Handoff}
    {chans : Tab Chan 32} {lcs : Tab Lc 4} {lats : Tab Lat 16} {syncs : Tab Sync 4} {gw : Gateway} {axes : Tab
    Axis 128} {fc : Faults} {keep : Keep} {budget : Budget} {age : Age} {params : SMap Nat} {revoked : SMap Nat} {stages : Tab Stage 8}
    {commits : List Commit} {out : Out} {fresh : Nat}
    (same : (store.mem, keep.log, fc.recs, keep.boot, dev.straps, dev.porst, dev.v08, dev.v18, dev.v33, dev.tap) =
      (s.store.mem, s.keep.log, s.fc.recs, s.keep.boot, s.dev.straps, s.dev.porst, s.dev.v08, s.dev.v18, s.dev.v33, s.dev.tap)) :
    Keeps s0 (State.mk
      clk dev s.linksDown s.parts longs rings upd store qs handoff chans lcs lats syncs gw axes fc keep budget age params
      s.expert revoked stages commits out fresh s.pending) :=
by
  obtain ⟨hm, hl, hr, hb, h1, h2, h3, h4, h5, h6⟩ :
      store.mem = s.store.mem ∧ keep.log = s.keep.log ∧ fc.recs = s.fc.recs ∧ keep.boot = s.keep.boot ∧
        dev.straps = s.dev.straps ∧ dev.porst = s.dev.porst ∧ dev.v08 = s.dev.v08 ∧ dev.v18 = s.dev.v18 ∧
        dev.v33 = s.dev.v33 ∧ dev.tap = s.dev.tap := by
    simpa only [Prod.mk.injEq] using same
  exact h.of_eq rfl hm hl rfl hr rfl rfl h1 h2 h3 h4 h5 h6 hb

/-- A change of a partition that keeps its invariant. -/
theorem State.modPart_safe {p : Nat} {f : Part → Part} (h : Keeps s0 s) (ok : (s.part p).Inv → (f (s.part p)).Inv) :
    Keeps s0 (s.modPart p f) := by
  refine h.trans ⟨⟨rfl, fun i => ⟨i.mem, i.log, ?_, i.recs, i.grants⟩⟩, ⟨rfl, fun w => ⟨w, fun _ _ x => x⟩, rfl, rfl, rfl, rfl, rfl⟩⟩
  intro q
  have hq := i.parts q
  by_cases e : q = p
  · subst e
    have := ok hq
    simp only [State.part, State.modPart, Tab.get_mod] at this hq ⊢
    split
    · exact this
    · exact hq
  · simp only [State.part, State.modPart, Tab.get_mod_other _ _ _ e] at hq ⊢
    exact hq

/-- A change of a partition that leaves the counts of its event ring and its mailbox page alone. -/
theorem State.modPart_keeps {p : Nat} {f : Part → Part} (h : Keeps s0 s)
    (head : ∀ x, (f x).evtHead = x.evtHead) (tail : ∀ x, (f x).evtTail = x.evtTail)
    (slots : ∀ x, (f x).slots = x.slots) : Keeps s0 (s.modPart p f) :=
  State.modPart_safe h fun i => ⟨by rw [Part.unread, head, tail]; exact i.events, by rw [slots]; exact i.slots⟩

/-- A change of a partition that leaves the counts of its event ring alone and writes its mailbox page. -/
theorem State.modPage_keeps {p : Nat} {f : Part → Part} (h : Keeps s0 s)
    (head : ∀ x, (f x).evtHead = x.evtHead) (tail : ∀ x, (f x).evtTail = x.evtTail)
    (slots : ∀ x, Memory.wf x.slots = true → Memory.wf (f x).slots = true) : Keeps s0 (s.modPart p f) :=
  State.modPart_safe h fun i => ⟨by rw [Part.unread, head, tail]; exact i.events, slots _ i.slots⟩

theorem State.modRec_keeps {k : Nat} {f : FRec → FRec} (h : Keeps s0 s) : Keeps s0 (s.modRec k f) :=
  h.trans ⟨⟨rfl, fun i => ⟨i.mem, i.log, i.parts, SMap.wf_mod k f i.recs, i.grants⟩⟩, ⟨rfl, fun w => ⟨w, fun _ _ x => x⟩, rfl, rfl, rfl, rfl, rfl⟩⟩

theorem State.storeWrite_keeps {a : Nat} {bs : List Byte} (h : Keeps s0 s) : Keeps s0 (s.storeWrite a bs) :=
  h.trans ⟨⟨rfl, fun i => ⟨memWrite_wf bs _ a i.mem, i.log, i.parts, i.recs, i.grants⟩⟩, ⟨rfl, fun w => ⟨w, fun _ _ x => x⟩, rfl, rfl, rfl, rfl, rfl⟩⟩

theorem State.writeLog_keeps {r : LogRec} (h : Keeps s0 s) : Keeps s0 (s.writeLog r) := by
  refine h.trans ⟨⟨rfl, fun i => ⟨i.mem, ?_, i.parts, i.recs, i.grants⟩⟩, ⟨rfl, fun w => ⟨w, fun _ _ x => x⟩, rfl, rfl, rfl, rfl, rfl⟩⟩
  have := i.log
  simp only [State.writeLog]
  split
  · simp; omega
  · next n => simp at n ⊢; omega

theorem ite_keeps {p : Prop} [Decidable p] (ht : p → Keeps s0 s) (hu : ¬p → Keeps s0 t) :
    Keeps s0 (if p then s else t) := by
  split
  · exact ht ‹_›
  · exact hu ‹_›

/-- A left fold keeps what each of its steps keeps. -/
theorem foldl_keeps {α : Type} {l : List α} {f : State → α → State} (step : ∀ x a, Keeps s0 x → Keeps s0 (f x a))
    (h : Keeps s0 s) : Keeps s0 (l.foldl f s) := by
  induction l generalizing s with
  | nil => exact h
  | cons a l ih => exact ih (step s a h)

/-- The same for a fold that carries the state first in a pair. -/
theorem foldl_fst_keeps {α β : Type} {l : List α} {f : State × β → α → State × β} {b : State × β}
    (step : ∀ x a, Keeps s0 x.1 → Keeps s0 (f x a).1) (h : Keeps s0 b.1) : Keeps s0 (l.foldl f b).1 := by
  induction l generalizing b with
  | nil => exact h
  | cons a l ih => exact ih (step b a h)

/-- The same for a fold that carries the state second in a pair. -/
theorem foldl_snd_keeps {α β : Type} {l : List α} {f : β × State → α → β × State} {b : β × State}
    (step : ∀ x a, Keeps s0 x.2 → Keeps s0 (f x a).2) (h : Keeps s0 b.2) : Keeps s0 (l.foldl f b).2 := by
  induction l generalizing b with
  | nil => exact h
  | cons a l ih => exact ih (step b a h)

/-! ### Answers and outcomes -/

theorem Answer.leaves_refuse {R : State → State → Prop} {st d : Nat} : (Answer.refuse st d).Leaves R s := trivial
theorem Answer.leaves_done {R : State → State → Prop} {st : Nat} {data : List Byte} (h : R s t) :
    (Answer.done st data t).Leaves R s := h
theorem Answer.leaves_later {R : State → State → Prop} {l : Long} (h : R s t) : (Answer.later l t).Leaves R s := h
theorem ite_leaves {R : State → State → Prop} {p : Prop} [Decidable p] {x y : Answer} (hx : p → x.Leaves R s)
    (hy : ¬p → y.Leaves R s) : (if p then x else y).Leaves R s := by
  split
  · exact hx ‹_›
  · exact hy ‹_›

theorem Leaves.next {R : State → State → Prop} (h : R s t) : Leaves R s (.next t) := by
  intro u e
  cases e
  exact h
theorem ite_row {R : State → State → Prop} {p : Prop} [Decidable p] {x y : Host.Outcome State Fault Refusal}
    (hx : p → Leaves R s x) (hy : ¬p → Leaves R s y) : Leaves R s (if p then x else y) := by
  split
  · exact hx ‹_›
  · exact hy ‹_›

end Sys2Proof.Machine
end

