-- ==== Sys2Proof/Laws/KeepsOps.lean ====
section
/-! SUPPORT. What the operations of Machine/Ops.lean keep (see Laws/Keeps.lean). -/
namespace Sys2Proof.Machine

theorem State.modChan_keeps {σ : State} {s : State} {c : Nat} {f : Chan → Chan} (hk : Keeps σ s) :
    Keeps σ (State.modChan s c f) := by
  unfold State.modChan
  repeat' first
    | with_reducible exact hk
    | with_reducible assumption
    | rfl
    | split
    | dsimp only
    | fail_if_no_progress with_reducible refine Keeps.mk_of ?_ ?_

theorem State.modQueue_keeps {σ : State} {s : State} {q : Nat} {f : Queue → Queue} (hk : Keeps σ s) :
    Keeps σ (State.modQueue s q f) := by
  unfold State.modQueue
  repeat' first
    | with_reducible exact hk
    | with_reducible assumption
    | rfl
    | split
    | dsimp only
    | fail_if_no_progress with_reducible refine Keeps.mk_of ?_ ?_

theorem State.modLc_keeps {σ : State} {s : State} {n : Nat} {f : Lc → Lc} (hk : Keeps σ s) :
    Keeps σ (State.modLc s n f) := by
  unfold State.modLc
  repeat' first
    | with_reducible exact hk
    | with_reducible assumption
    | rfl
    | split
    | dsimp only
    | fail_if_no_progress with_reducible refine Keeps.mk_of ?_ ?_

theorem State.modAxis_keeps {σ : State} {s : State} {a : Nat} {f : Axis → Axis} (hk : Keeps σ s) :
    Keeps σ (State.modAxis s a f) := by
  unfold State.modAxis
  repeat' first
    | with_reducible exact hk
    | with_reducible assumption
    | rfl
    | split
    | dsimp only
    | fail_if_no_progress with_reducible refine Keeps.mk_of ?_ ?_

theorem State.modLat_keeps {σ : State} {s : State} {i : Nat} {f : Lat → Lat} (hk : Keeps σ s) :
    Keeps σ (State.modLat s i f) := by
  unfold State.modLat
  repeat' first
    | with_reducible exact hk
    | with_reducible assumption
    | rfl
    | split
    | dsimp only
    | fail_if_no_progress with_reducible refine Keeps.mk_of ?_ ?_

theorem State.modSync_keeps {σ : State} {s : State} {i : Nat} {f : Sync → Sync} (hk : Keeps σ s) :
    Keeps σ (State.modSync s i f) := by
  unfold State.modSync
  repeat' first
    | with_reducible exact hk
    | with_reducible assumption
    | rfl
    | split
    | dsimp only
    | fail_if_no_progress with_reducible refine Keeps.mk_of ?_ ?_

theorem State.modStage_keeps {σ : State} {s : State} {p : Nat} {f : Stage → Stage} (hk : Keeps σ s) :
    Keeps σ (State.modStage s p f) := by
  unfold State.modStage
  repeat' first
    | with_reducible exact hk
    | with_reducible assumption
    | rfl
    | split
    | dsimp only
    | fail_if_no_progress with_reducible refine Keeps.mk_of ?_ ?_

theorem State.modObj_keeps {σ : State} {s : State} {c o : Nat} {f : Obj → Obj} (hk : Keeps σ s) :
    Keeps σ (State.modObj s c o f) := by
  unfold State.modObj
  repeat' first
    | with_reducible exact hk
    | with_reducible assumption
    | with_reducible apply State.modChan_keeps

theorem State.setPar_keeps {σ : State} {s : State} {num inst v : Nat} (hk : Keeps σ s) :
    Keeps σ (State.setPar s num inst v) := by
  unfold State.setPar
  repeat' first
    | with_reducible exact hk
    | with_reducible assumption
    | rfl
    | split
    | dsimp only
    | fail_if_no_progress with_reducible refine Keeps.mk_of ?_ ?_

theorem State.irq_keeps {σ : State} {s : State} {p k : Nat} (hk : Keeps σ s) :
    Keeps σ (State.irq s p k) := by
  unfold State.irq
  repeat' first
    | with_reducible exact hk
    | with_reducible assumption
    | with_reducible refine State.modPart_keeps ?_ (fun _ => rfl) (fun _ => rfl) (fun _ => rfl)
    | rfl
    | split
    | dsimp only

theorem State.irqCause_keeps {σ : State} {s : State} {p k : Nat} (hk : Keeps σ s) :
    Keeps σ (State.irqCause s p k) := by
  unfold State.irqCause
  repeat' first
    | with_reducible exact hk
    | with_reducible assumption
    | with_reducible apply State.irq_keeps
    | with_reducible refine State.modPart_keeps ?_ (fun _ => rfl) (fun _ => rfl) (fun _ => rfl)
    | rfl
    | split

theorem State.countRefused_keeps {σ : State} {s : State} {p : Nat} (hk : Keeps σ s) :
    Keeps σ (State.countRefused s p) := by
  unfold State.countRefused
  repeat' first
    | with_reducible exact hk
    | with_reducible assumption
    | with_reducible apply State.irqCause_keeps
    | with_reducible refine State.modPart_keeps ?_ (fun _ => rfl) (fun _ => rfl) (fun _ => rfl)

theorem State.countIgnored_keeps {σ : State} {s : State} {p : Nat} (hk : Keeps σ s) :
    Keeps σ (State.countIgnored s p) := by
  unfold State.countIgnored
  repeat' first
    | with_reducible exact hk
    | with_reducible assumption
    | with_reducible apply State.irqCause_keeps
    | with_reducible refine State.modPart_keeps ?_ (fun _ => rfl) (fun _ => rfl) (fun _ => rfl)

theorem State.raise_keeps {σ : State} {s : State} {src sub cls detail : Nat} {persists : Bool} {owner : Nat} (hk : Keeps σ s) :
    Keeps σ (State.raise s src sub cls detail persists owner) := by
  unfold State.raise
  repeat' first
    | with_reducible exact hk
    | with_reducible assumption
    | rfl
    | split
    | dsimp only
    | fail_if_no_progress with_reducible refine Keeps.mk_of ?_ ?_

theorem State.raiseU_keeps {σ : State} {s : State} {src sub cls idx : Nat} {persists : Bool} {owner : Nat} (hk : Keeps σ s) :
    Keeps σ (State.raiseU s src sub cls idx persists owner) := by
  unfold State.raiseU
  repeat' first
    | with_reducible exact hk
    | with_reducible assumption
    | with_reducible apply State.raise_keeps

theorem State.condOn_keeps {σ : State} {s : State} {src sub idx : Nat} (hk : Keeps σ s) :
    Keeps σ (State.condOn s src sub idx) := by
  unfold State.condOn
  repeat' first
    | with_reducible exact hk
    | with_reducible assumption
    | rfl
    | split
    | dsimp only
    | fail_if_no_progress with_reducible refine Keeps.mk_of ?_ ?_

theorem State.condOff_keeps {σ : State} {s : State} {src sub idx : Nat} (hk : Keeps σ s) :
    Keeps σ (State.condOff s src sub idx) := by
  unfold State.condOff
  repeat' first
    | with_reducible exact hk
    | with_reducible assumption
    | rfl
    | split
    | dsimp only
    | fail_if_no_progress with_reducible refine Keeps.mk_of ?_ ?_

theorem State.pinSettle_keeps {σ : State} {s old : State} (hk : Keeps σ s) :
    Keeps σ (State.pinSettle s old) := by
  unfold State.pinSettle
  repeat' first
    | with_reducible exact hk
    | with_reducible assumption
    | rfl
    | split
    | dsimp only
    | fail_if_no_progress with_reducible refine Keeps.mk_of ?_ ?_

theorem State.modPlane_keeps {σ : State} {s : State} {k : Nat} {f : PlaneRing → PlaneRing} (hk : Keeps σ s) :
    Keeps σ (State.modPlane s k f) := by
  unfold State.modPlane
  repeat' first
    | with_reducible exact hk
    | with_reducible assumption
    | with_reducible refine ite_keeps (fun _ => ?_) (fun _ => ?_)
    | rfl
    | split
    | dsimp only
    | fail_if_no_progress with_reducible refine Keeps.mk_of ?_ ?_

theorem State.post_keeps {σ : State} {s : State} {k : Nat} {e : PlaneEntry} (hk : Keeps σ s) :
    Keeps σ (State.post s k e) := by
  unfold State.post
  repeat' first
    | with_reducible exact hk
    | with_reducible assumption
    | with_reducible apply State.modPlane_keeps
    | with_reducible refine ite_keeps (fun _ => ?_) (fun _ => ?_)
    | rfl
    | split
    | dsimp only
    | fail_if_no_progress with_reducible refine Keeps.mk_of ?_ ?_

theorem State.readPlane_keeps {σ : State} {s : State} {k : Nat} {e : PlaneEntry} (hk : Keeps σ s) :
    Keeps σ (State.readPlane s k e) := by
  unfold State.readPlane
  repeat' first
    | with_reducible exact hk
    | with_reducible assumption
    | with_reducible apply State.event_keeps
    | with_reducible apply State.modPlane_keeps
    | with_reducible apply State.writeLog_keeps
    | with_reducible refine ite_keeps (fun _ => ?_) (fun _ => ?_)
    | rfl
    | split
    | dsimp only
    | fail_if_no_progress with_reducible refine Keeps.mk_of ?_ ?_

theorem State.supervise_keeps {σ : State} {s : State} (hk : Keeps σ s) :
    Keeps σ (State.supervise s) := by
  unfold State.supervise
  repeat' first
    | with_reducible exact hk
    | with_reducible assumption
    | with_reducible apply State.readPlane_keeps
    | with_reducible refine ite_keeps (fun _ => ?_) (fun _ => ?_)
    | (with_reducible refine foldl_keeps ?_ ?_; intro _ _ _)
    | rfl
    | split
    | dsimp only

theorem State.log_keeps {σ : State} {s : State} {kind : Nat} {flags : Nat} {index : Nat} {cause : Nat} {reactions : Nat} {value : Nat} (hk : Keeps σ s) :
    Keeps σ (State.log s kind flags index cause reactions value) := by
  unfold State.log
  repeat' first
    | with_reducible exact hk
    | with_reducible assumption
    | with_reducible apply State.event_keeps
    | with_reducible apply State.post_keeps
    | with_reducible apply State.supervise_keeps
    | with_reducible refine ite_keeps (fun _ => ?_) (fun _ => ?_)
    | rfl
    | split
    | dsimp only

theorem State.logWrap_keeps {σ : State} {s : State} {n : Nat} {v w : W64} (hk : Keeps σ s) :
    Keeps σ (State.logWrap s n v w) := by
  unfold State.logWrap
  repeat' first
    | with_reducible exact hk
    | with_reducible assumption
    | with_reducible apply State.log_keeps
    | rfl
    | split

theorem State.elapse_keeps {σ s : State} {dt : Nat} (h : Keeps σ s) : Keeps σ (s.elapse dt) := by
  unfold State.elapse
  dsimp only
  split
  · exact Keeps.mk_of h rfl
  · exact foldl_keeps (fun _ _ hx => State.logWrap_keeps hx) (Keeps.mk_of h rfl)

theorem State.refresh_keeps {σ : State} {s : State} {a : Nat} {n : Nat} (hk : Keeps σ s) :
    Keeps σ (State.refresh s a n) := by
  unfold State.refresh
  repeat' first
    | with_reducible exact hk
    | with_reducible assumption
    | with_reducible refine ite_keeps (fun _ => ?_) (fun _ => ?_)
    | rfl
    | split
    | dsimp only
    | fail_if_no_progress with_reducible refine Keeps.mk_of ?_ ?_

theorem State.refreshPage_keeps {σ : State} {s : State} {q : Nat} {off : Nat} (hk : Keeps σ s) :
    Keeps σ (State.refreshPage s q off) := by
  unfold State.refreshPage
  repeat' first
    | with_reducible exact hk
    | with_reducible assumption
    | with_reducible apply State.refresh_keeps
    | with_reducible refine ite_keeps (fun _ => ?_) (fun _ => ?_)
    | rfl
    | split
    | dsimp only

theorem State.event_keeps {σ s : State} {p ty index : Nat} {payload : List Byte} (h : Keeps σ s) :
    Keeps σ (s.event p ty index payload) := by
  unfold State.event
  split
  · exact h
  · dsimp only
    split
    · next lt =>
      refine State.irq_keeps (State.modPart_safe (State.storeWrite_keeps h) fun i => ⟨?_, i.slots⟩)
      show ((s.part p).evtHead + 1 - (s.part p).evtTail).toNat ≤ 1024
      bv_omega
    · exact State.modPart_keeps h (fun _ => rfl) (fun _ => rfl) (fun _ => rfl)

theorem State.fire_keeps {σ : State} {s : State} {q : Nat} (hk : Keeps σ s) :
    Keeps σ (State.fire s q) := by
  unfold State.fire
  repeat' first
    | with_reducible exact hk
    | with_reducible assumption
    | with_reducible apply State.irq_keeps
    | with_reducible apply State.modQueue_keeps
    | with_reducible refine State.modPart_keeps ?_ (fun _ => rfl) (fun _ => rfl) (fun _ => rfl)
    | rfl
    | split
    | dsimp only

theorem State.dropItem_keeps {σ : State} {s : State} {q : Nat} (hk : Keeps σ s) :
    Keeps σ (State.dropItem s q) := by
  unfold State.dropItem
  repeat' first
    | with_reducible exact hk
    | with_reducible assumption
    | with_reducible apply State.event_keeps
    | with_reducible apply State.modQueue_keeps
    | with_reducible apply State.raiseU_keeps
    | with_reducible apply State.refreshPage_keeps
    | with_reducible refine ite_keeps (fun _ => ?_) (fun _ => ?_)
    | rfl
    | split
    | dsimp only
    | fail_if_no_progress with_reducible refine Keeps.mk_of ?_ ?_

theorem State.writeItem_keeps {σ : State} {s : State} {it : OutItem} (hk : Keeps σ s) :
    Keeps σ (State.writeItem s it).1 := by
  unfold State.writeItem
  repeat' first
    | with_reducible exact hk
    | with_reducible assumption
    | with_reducible apply State.dropItem_keeps
    | with_reducible apply State.fire_keeps
    | with_reducible apply State.modQueue_keeps
    | with_reducible apply State.refreshPage_keeps
    | with_reducible apply State.storeWrite_keeps
    | with_reducible refine ite_keeps (fun _ => ?_) (fun _ => ?_)
    | rfl
    | split
    | dsimp only
    | fail_if_no_progress with_reducible refine Keeps.mk_of ?_ ?_

theorem State.latchLost_keeps {σ : State} {s : State} {i : Nat} (hk : Keeps σ s) :
    Keeps σ (State.latchLost s i) := by
  unfold State.latchLost
  repeat' first
    | with_reducible exact hk
    | with_reducible assumption
    | with_reducible apply State.modLat_keeps
    | with_reducible apply State.raiseU_keeps

theorem State.writeOut_keeps {σ : State} {s : State} {it : OutItem} (hk : Keeps σ s) :
    Keeps σ (State.writeOut s it) := by
  unfold State.writeOut
  repeat' first
    | with_reducible exact hk
    | with_reducible assumption
    | with_reducible apply State.latchLost_keeps
    | with_reducible apply State.modChan_keeps
    | with_reducible apply State.writeItem_keeps
    | rfl
    | split
    | dsimp only

theorem State.emit_keeps {σ : State} {s : State} {core : Nat} {it : OutItem} (hk : Keeps σ s) :
    Keeps σ (State.emit s core it) := by
  unfold State.emit
  repeat' first
    | with_reducible exact hk
    | with_reducible assumption
    | with_reducible apply State.writeOut_keeps
    | rfl
    | split
    | dsimp only
    | fail_if_no_progress with_reducible refine Keeps.mk_of ?_ ?_

end Sys2Proof.Machine
end

