-- ==== Sys2Proof/Laws/KeepsAgeBase.lean ====
section
/-! SUPPORT. What the operations of Machine/AgeBase.lean keep (see Laws/Keeps.lean). -/
namespace Sys2Proof.Machine

theorem State.histDaily_keeps {σ : State} {s : State} {x : Hist} (hk : Keeps σ s) :
    Keeps σ (State.histDaily s x) := by
  unfold State.histDaily
  repeat' first
    | with_reducible exact hk
    | with_reducible assumption
    | rfl
    | split
    | dsimp only
    | fail_if_no_progress with_reducible refine Keeps.mk_of ?_ ?_

theorem State.histLong_keeps {σ : State} {s : State} {x : Hist} (hk : Keeps σ s) :
    Keeps σ (State.histLong s x) := by
  unfold State.histLong
  repeat' first
    | with_reducible exact hk
    | with_reducible assumption
    | rfl
    | split
    | dsimp only
    | fail_if_no_progress with_reducible refine Keeps.mk_of ?_ ?_

theorem State.noteDecision_keeps {σ : State} {s : State} {subject flags : Nat} {old new : Int} {index reason : Nat} (hk : Keeps σ s) :
    Keeps σ (State.noteDecision s subject flags old new index reason) := by
  unfold State.noteDecision
  repeat' first
    | with_reducible exact hk
    | with_reducible assumption
    | with_reducible apply State.histDaily_keeps

theorem State.decision_keeps {σ : State} {s : State} {subject flags : Nat} {old new : Int} {index reason : Nat} {kind lx lc lv : Nat} (hk : Keeps σ s) :
    Keeps σ (State.decision s subject flags old new index reason kind lx lc lv) := by
  unfold State.decision
  repeat' first
    | with_reducible exact hk
    | with_reducible assumption
    | with_reducible apply State.log_keeps
    | with_reducible apply State.noteDecision_keeps
    | rfl
    | split
    | dsimp only
    | fail_if_no_progress with_reducible refine Keeps.mk_of ?_ ?_

theorem State.setCore_keeps {σ : State} {s : State} {mhz reason flags : Nat} (hk : Keeps σ s) :
    Keeps σ (State.setCore s mhz reason flags) := by
  unfold State.setCore
  repeat' first
    | with_reducible exact hk
    | with_reducible assumption
    | with_reducible apply State.decision_keeps
    | rfl
    | split
    | dsimp only
    | fail_if_no_progress with_reducible refine Keeps.mk_of ?_ ?_

end Sys2Proof.Machine
end

