-- ==== Sys2Proof/Laws/KeepsMailbox.lean ====
section
/-! SUPPORT. What the operations of Machine/Mailbox.lean keep (see Laws/Keeps.lean). -/
namespace Sys2Proof.Machine

theorem State.refusePort_keeps {σ : State} {s : State} {v : Via} {win off : Nat} (hk : Keeps σ s) :
    Keeps σ (State.refusePort s v win off) := by
  unfold State.refusePort
  repeat' first
    | with_reducible exact hk
    | with_reducible assumption
    | with_reducible apply State.raise_keeps
    | rfl
    | split

theorem State.refuseAccess_keeps {σ : State} {s : State} {p : Nat} {region : Nat} {addr : Nat} (hk : Keeps σ s) :
    Keeps σ (State.refuseAccess s p region addr) := by
  unfold State.refuseAccess
  repeat' first
    | with_reducible exact hk
    | with_reducible assumption
    | with_reducible apply State.countRefused_keeps
    | with_reducible apply State.raise_keeps
    | with_reducible refine ite_keeps (fun _ => ?_) (fun _ => ?_)
    | rfl
    | split
    | dsimp only

theorem State.refuseCtrl_keeps {σ : State} {s : State} {p : Nat} {off : Nat} (hk : Keeps σ s) :
    Keeps σ (State.refuseCtrl s p off) := by
  unfold State.refuseCtrl
  repeat' first
    | with_reducible exact hk
    | with_reducible assumption
    | with_reducible apply State.refuseAccess_keeps
    | with_reducible refine ite_keeps (fun _ => ?_) (fun _ => ?_)
    | rfl
    | split
    | dsimp only

theorem State.refuseStore_keeps {σ : State} {s : State} {p : Nat} {addr : Nat} (hk : Keeps σ s) :
    Keeps σ (State.refuseStore s p addr) := by
  unfold State.refuseStore
  repeat' first
    | with_reducible exact hk
    | with_reducible assumption
    | with_reducible apply State.refuseAccess_keeps
    | with_reducible refine ite_keeps (fun _ => ?_) (fun _ => ?_)
    | rfl
    | split
    | dsimp only

theorem State.doorbell_keeps {σ : State} {s : State} {p slot : Nat} (hk : Keeps σ s) :
    Keeps σ (State.doorbell s p slot) := by
  unfold State.doorbell
  repeat' first
    | with_reducible exact hk
    | with_reducible assumption
    | with_reducible apply State.countIgnored_keeps
    | with_reducible refine State.modPart_keeps ?_ (fun _ => rfl) (fun _ => rfl) (fun _ => rfl)
    | rfl
    | split

theorem State.respond_keeps {σ : State} {s : State} {p slot code : Nat} {tag : W16} {st detail : Nat} {data : List Byte}
    (hk : Keeps σ s) : Keeps σ (State.respond s p slot code tag st detail data) :=
  State.irq_keeps (State.modPage_keeps hk (fun _ => rfl) (fun _ => rfl) fun _ h => memWrite_wf _ _ _ h)

theorem State.drain_keeps {σ s : State} {p n : Nat} (hk : Keeps σ s) : Keeps σ (s.drain p n) := by
  induction n generalizing s with
  | zero => exact hk
  | succ n ih =>
    unfold State.drain
    split
    · split
      · exact hk
      · exact ih (State.respond_keeps (State.modPart_keeps hk (fun _ => rfl) (fun _ => rfl) (fun _ => rfl)))
    · exact hk

theorem State.finish_keeps {σ : State} {s : State} {l : Long} {st : Nat} {detail : Nat} {data : List Byte} (hk : Keeps σ s) :
    Keeps σ (State.finish s l st detail data) := by
  unfold State.finish
  repeat' first
    | with_reducible exact hk
    | with_reducible assumption
    | with_reducible apply State.drain_keeps
    | with_reducible apply State.respond_keeps
    | with_reducible refine ite_keeps (fun _ => ?_) (fun _ => ?_)
    | rfl
    | split
    | dsimp only
    | fail_if_no_progress with_reducible refine Keeps.mk_of ?_ ?_

theorem State.answer_keeps {σ s : State} {r : Req} {x : Answer} (hk : Keeps σ s) (hx : x.Leaves Keeps σ) :
    Keeps σ (s.answer r x) := by
  cases x with
  | refuse st detail => exact State.respond_keeps hk
  | done st data t => exact State.respond_keeps hx
  | later l t => exact Keeps.mk_of hx rfl

theorem State.relayRequest_keeps {σ : State} {s : State} {p : Nat} {slot : Nat} (hk : Keeps σ s) :
    Keeps σ (State.relayRequest s p slot) := by
  unfold State.relayRequest
  repeat' first
    | with_reducible exact hk
    | with_reducible assumption
    | with_reducible apply State.post_keeps
    | with_reducible apply State.supervise_keeps
    | with_reducible refine ite_keeps (fun _ => ?_) (fun _ => ?_)
    | rfl
    | split
    | dsimp only

theorem State.relayDone_keeps {σ : State} {s : State} {p : Nat} {slot : Nat} (hk : Keeps σ s) :
    Keeps σ (State.relayDone s p slot) := by
  unfold State.relayDone
  repeat' first
    | with_reducible exact hk
    | with_reducible assumption
    | with_reducible apply State.modPlane_keeps
    | with_reducible apply State.post_keeps
    | with_reducible refine ite_keeps (fun _ => ?_) (fun _ => ?_)
    | rfl
    | split
    | dsimp only
    | fail_if_no_progress with_reducible refine Keeps.mk_of ?_ ?_

theorem State.takeRequest_keeps {σ : State} {s : State} {p : Nat} (hk : Keeps σ s) :
    Keeps σ (State.takeRequest s p) := by
  unfold State.takeRequest
  repeat' first
    | with_reducible exact hk
    | with_reducible assumption
    | with_reducible refine State.modPart_keeps ?_ (fun _ => rfl) (fun _ => rfl) (fun _ => rfl)
    | with_reducible refine ite_keeps (fun _ => ?_) (fun _ => ?_)
    | rfl
    | split
    | dsimp only
    | fail_if_no_progress with_reducible refine Keeps.mk_of ?_ ?_

/-- The handler of a command keeps through the plane event rings what it keeps (R20). -/
theorem Answer.relayed_leaves {σ : State} {x : Answer} {p slot : Nat} (hx : x.Leaves Keeps σ) :
    (x.relayed p slot).Leaves Keeps σ := by
  cases x with
  | refuse st detail => trivial
  | done st data t => exact State.relayDone_keeps hx
  | later l t => exact hx

theorem State.route_leaves {σ s : State} {r : Req} {f : Req → State → Answer} (hk : Keeps σ s)
    (hf : ∀ r t, Keeps σ t → (f r t).Leaves Keeps σ) : (s.route r f).Leaves Keeps σ := by
  unfold State.route
  split
  · exact Answer.relayed_leaves (hf _ _ (State.relayRequest_keeps hk))
  · exact hf _ _ hk

theorem State.serve_keeps {σ s : State} {p slot : Nat} {d : CmdDef} {f : Req → State → Answer} (hk : Keeps σ s)
    (hf : ∀ r t, Keeps σ t → (f r t).Leaves Keeps σ) : Keeps σ (s.serve p slot d f) := by
  unfold State.serve
  split
  · next a rest _ =>
    split
    · exact hk
    · have ht : Keeps σ (s.takeRequest p) := State.takeRequest_keeps hk
      dsimp only
      split
      · exact State.drain_keeps (State.answer_keeps ht trivial)
      · exact State.drain_keeps (State.answer_keeps ht (State.route_leaves ht hf))
  · exact hk

theorem State.submit_keeps {σ : State} {s : State} {p slot code : Nat} {q : Request} (hk : Keeps σ s) :
    Keeps σ (State.submit s p slot code q) := by
  unfold State.submit
  split
  · exact State.countIgnored_keeps (State.refuseAccess_keeps hk)
  · exact State.doorbell_keeps (State.modPage_keeps hk (fun _ => rfl) (fun _ => rfl) fun _ h => memWrite_wf _ _ _ h)

/-- A mailbox command keeps what its handler keeps. -/
theorem mailbox_keeps {s : State} {d : CmdDef} {f : Req → State → Answer} {dt : Nat} {m : Mbox}
    (hf : ∀ r t, Keeps s t → (f r t).Leaves Keeps s) : Leaves Keeps s (mailbox d f dt m s) := by
  intro t ht
  have he : Keeps s (s.elapse dt) := State.elapse_keeps (Keeps.refl s)
  unfold mailbox at ht
  dsimp only at ht
  split at ht
  · cases ht; exact State.refusePort_keeps he
  · split at ht
    · cases ht; exact State.serve_keeps he hf
    · cases ht; exact State.serve_keeps (State.submit_keeps he) hf

theorem State.answer_safe {σ s : State} {r : Req} {x : Answer} (hk : Safe σ s) (hx : x.Leaves Safe σ) :
    Safe σ (s.answer r x) := by
  cases x with
  | refuse st detail => exact hk.trans (State.respond_keeps (Keeps.refl _)).safe
  | done st data t => exact Safe.trans hx (State.respond_keeps (Keeps.refl _)).safe
  | later l t => exact Safe.trans hx (Keeps.mk_of (Keeps.refl _) rfl).safe

theorem State.route_safe {σ s : State} {r : Req} {f : Req → State → Answer} (hk : Safe σ s)
    (hf : ∀ r t, Safe σ t → (f r t).Leaves Safe σ) : (s.route r f).Leaves Safe σ := by
  unfold State.route
  split
  · have hx := hf r _ (hk.trans (State.relayRequest_keeps (p := r.part) (slot := r.slot) (Keeps.refl _)).safe)
    revert hx
    cases f r (s.relayRequest r.part r.slot) with
    | refuse st detail => exact id
    | done st data t => exact fun h => Safe.trans h (State.relayDone_keeps (Keeps.refl _)).safe
    | later l t => exact id
  · exact hf _ _ hk

theorem State.serve_safe {σ s : State} {p slot : Nat} {d : CmdDef} {f : Req → State → Answer} (hk : Safe σ s)
    (hf : ∀ r t, Safe σ t → (f r t).Leaves Safe σ) : Safe σ (s.serve p slot d f) := by
  unfold State.serve
  split
  · next a rest _ =>
    split
    · exact hk
    · have ht : Safe σ (s.takeRequest p) := hk.trans (State.takeRequest_keeps (Keeps.refl _)).safe
      dsimp only
      split
      · refine Safe.trans ?_ (State.drain_keeps (Keeps.refl _)).safe
        exact State.answer_safe ht trivial
      · refine Safe.trans ?_ (State.drain_keeps (Keeps.refl _)).safe
        exact State.answer_safe ht (State.route_safe ht hf)
  · exact hk

/-- A mailbox command leaves the machine as safe as its handler does. -/
theorem mailbox_safe {s : State} {d : CmdDef} {f : Req → State → Answer} {dt : Nat} {m : Mbox}
    (hf : ∀ r t, Safe s t → (f r t).Leaves Safe s) : Leaves Safe s (mailbox d f dt m s) := by
  intro t ht
  have he : Keeps s (s.elapse dt) := State.elapse_keeps (Keeps.refl s)
  unfold mailbox at ht
  dsimp only at ht
  split at ht
  · cases ht; exact (State.refusePort_keeps he).safe
  · split at ht
    · cases ht; exact State.serve_safe he.safe hf
    · cases ht; exact State.serve_safe (State.submit_keeps he).safe hf

end Sys2Proof.Machine
end

