-- ==== Sys2Proof/Laws/KeepsObjects.lean ====
section
/-! SUPPORT. What the operations of Machine/Objects.lean keep (see Laws/Keeps.lean). -/
namespace Sys2Proof.Machine

theorem State.settleObjs_keeps {σ : State} {s : State} {old : State} {c : Nat} (hk : Keeps σ s) :
    Keeps σ (State.settleObjs s old c) := by
  unfold State.settleObjs
  repeat' first
    | with_reducible exact hk
    | with_reducible assumption
    | with_reducible apply State.modObj_keeps
    | with_reducible refine ite_keeps (fun _ => ?_) (fun _ => ?_)
    | (with_reducible refine foldl_keeps ?_ ?_; intro _ _ _)
    | rfl
    | split
    | dsimp only
    | fail_if_no_progress with_reducible refine Keeps.mk_of ?_ ?_

theorem State.settle_keeps {σ : State} {s old : State} {e : Nat} (hk : Keeps σ s) :
    Keeps σ (State.settle s old e) := by
  unfold State.settle
  repeat' first
    | with_reducible exact hk
    | with_reducible assumption
    | with_reducible apply State.settleObjs_keeps

theorem State.enqueue_keeps {σ : State} {s : State} {c : Nat} {o : Option Nat} (hk : Keeps σ s) :
    Keeps σ (State.enqueue s c o) := by
  unfold State.enqueue
  repeat' first
    | with_reducible exact hk
    | with_reducible assumption
    | rfl
    | split
    | dsimp only
    | fail_if_no_progress with_reducible refine Keeps.mk_of ?_ ?_

theorem State.withdraw_keeps {σ : State} {s : State} {c : Nat} {o : Option Nat} (hk : Keeps σ s) :
    Keeps σ (State.withdraw s c o) := by
  unfold State.withdraw
  repeat' first
    | with_reducible exact hk
    | with_reducible assumption
    | rfl
    | split
    | dsimp only
    | fail_if_no_progress with_reducible refine Keeps.mk_of ?_ ?_

theorem State.sendIgnored_keeps {σ : State} {s : State} {c : Nat} (hk : Keeps σ s) :
    Keeps σ (State.sendIgnored s c) := by
  unfold State.sendIgnored
  repeat' first
    | with_reducible exact hk
    | with_reducible assumption
    | with_reducible apply State.modChan_keeps

theorem State.checkBuffer_keeps {σ : State} {s : State} {c o : Nat} (hk : Keeps σ s) :
    Keeps σ (State.checkBuffer s c o) := by
  unfold State.checkBuffer
  repeat' first
    | with_reducible exact hk
    | with_reducible assumption
    | with_reducible apply State.modObj_keeps
    | rfl
    | split

theorem State.healBuffer_keeps {σ : State} {s : State} {c o : Nat} {b : Bool} (hk : Keeps σ s) :
    Keeps σ (State.healBuffer s c o b) := by
  unfold State.healBuffer
  repeat' first
    | with_reducible exact hk
    | with_reducible assumption
    | rfl
    | split
    | dsimp only
    | fail_if_no_progress with_reducible refine Keeps.mk_of ?_ ?_

theorem State.prefetch_keeps {σ : State} {s : State} {c o : Nat} (hk : Keeps σ s) :
    Keeps σ (State.prefetch s c o) := by
  unfold State.prefetch
  repeat' first
    | with_reducible exact hk
    | with_reducible assumption
    | with_reducible apply State.modObj_keeps

theorem State.displace_keeps {σ : State} {s : State} {e : Nat} {ended : Bool} (hk : Keeps σ s) :
    Keeps σ (State.displace s e ended) := by
  unfold State.displace
  repeat' first
    | with_reducible exact hk
    | with_reducible assumption
    | with_reducible apply State.modChan_keeps
    | with_reducible refine ite_keeps (fun _ => ?_) (fun _ => ?_)
    | rfl
    | split
    | dsimp only
    | fail_if_no_progress with_reducible refine Keeps.mk_of ?_ ?_

theorem State.refillFrom_keeps {σ : State} {s : State} {e : Nat} {n' : Nat} (hk : Keeps σ s) :
    Keeps σ (State.refillFrom s e n') := by
  induction n' generalizing s with
  | zero => exact hk
  | succ n' ih =>
    unfold State.refillFrom
    repeat' first
    | with_reducible exact hk
    | with_reducible assumption
    | with_reducible apply ih
    | with_reducible apply State.checkBuffer_keeps
    | with_reducible apply State.modChan_keeps
    | with_reducible apply State.prefetch_keeps
    | with_reducible apply State.displace_keeps
    | rfl
    | split
    | dsimp only

theorem State.refill_keeps {σ : State} {s : State} {e : Nat} (hk : Keeps σ s) :
    Keeps σ (State.refill s e) := by
  unfold State.refill
  repeat' first
    | with_reducible exact hk
    | with_reducible assumption
    | with_reducible apply State.refillFrom_keeps

theorem State.endRequest_keeps {σ : State} {s : State} {c : Nat} {o : Nat} (hk : Keeps σ s) :
    Keeps σ (State.endRequest s c o) := by
  unfold State.endRequest
  repeat' first
    | with_reducible exact hk
    | with_reducible assumption
    | with_reducible apply State.displace_keeps
    | with_reducible apply State.modObj_keeps
    | with_reducible refine ite_keeps (fun _ => ?_) (fun _ => ?_)
    | rfl
    | split
    | dsimp only
    | fail_if_no_progress with_reducible refine Keeps.mk_of ?_ ?_

theorem State.discardRequest_keeps {σ : State} {s : State} {c o : Nat} {count : Bool} (hk : Keeps σ s) :
    Keeps σ (State.discardRequest s c o count) := by
  unfold State.discardRequest
  repeat' first
    | with_reducible exact hk
    | with_reducible assumption
    | with_reducible apply State.endRequest_keeps
    | with_reducible apply State.sendIgnored_keeps
    | with_reducible apply State.withdraw_keeps
    | rfl
    | split

theorem State.addRequest_keeps {σ : State} {s : State} {c : Nat} {o : Nat} (hk : Keeps σ s) :
    Keeps σ (State.addRequest s c o) := by
  unfold State.addRequest
  repeat' first
    | with_reducible exact hk
    | with_reducible assumption
    | with_reducible apply State.enqueue_keeps
    | with_reducible apply State.modObj_keeps
    | with_reducible apply State.refill_keeps
    | with_reducible apply State.sendIgnored_keeps
    | with_reducible refine ite_keeps (fun _ => ?_) (fun _ => ?_)
    | rfl
    | split
    | dsimp only
    | fail_if_no_progress with_reducible refine Keeps.mk_of ?_ ?_

theorem State.requestSend_keeps {σ : State} {s : State} {c : Nat} {o : Nat} (hk : Keeps σ s) :
    Keeps σ (State.requestSend s c o) := by
  unfold State.requestSend
  repeat' first
    | with_reducible exact hk
    | with_reducible assumption
    | with_reducible apply State.addRequest_keeps
    | with_reducible apply State.sendIgnored_keeps
    | with_reducible refine ite_keeps (fun _ => ?_) (fun _ => ?_)
    | rfl
    | split
    | dsimp only

theorem State.putPayload_keeps {σ : State} {s : State} {c : Nat} {o : Nat} {bs : List Byte} (hk : Keeps σ s) :
    Keeps σ (State.putPayload s c o bs) := by
  unfold State.putPayload
  repeat' first
    | with_reducible exact hk
    | with_reducible assumption
    | with_reducible apply State.healBuffer_keeps
    | with_reducible apply State.modObj_keeps
    | with_reducible apply State.refill_keeps
    | with_reducible refine ite_keeps (fun _ => ?_) (fun _ => ?_)
    | rfl
    | split
    | dsimp only
    | fail_if_no_progress with_reducible refine Keeps.mk_of ?_ ?_

theorem State.newPayload_keeps {σ : State} {s : State} {c o : Nat} (hk : Keeps σ s) :
    Keeps σ (State.newPayload s c o) := by
  unfold State.newPayload
  repeat' first
    | with_reducible exact hk
    | with_reducible assumption
    | with_reducible apply State.modObj_keeps
    | rfl
    | split

theorem State.writePayload_keeps {σ : State} {s : State} {c o : Nat} {bs : List Byte} (hk : Keeps σ s) :
    Keeps σ (State.writePayload s c o bs) := by
  unfold State.writePayload
  repeat' first
    | with_reducible exact hk
    | with_reducible assumption
    | with_reducible apply State.modObj_keeps
    | with_reducible apply State.putPayload_keeps
    | rfl
    | split

theorem State.writeDeferred_keeps {σ : State} {s : State} {c o : Nat} (hk : Keeps σ s) :
    Keeps σ (State.writeDeferred s c o) := by
  unfold State.writeDeferred
  repeat' first
    | with_reducible exact hk
    | with_reducible assumption
    | with_reducible apply State.modObj_keeps
    | with_reducible apply State.putPayload_keeps
    | rfl
    | split
    | dsimp only

theorem State.rxUpdate_keeps {σ : State} {s : State} {c : Nat} {o : Nat} {f : Frame} (hk : Keeps σ s) :
    Keeps σ (State.rxUpdate s c o f) := by
  unfold State.rxUpdate
  repeat' first
    | with_reducible exact hk
    | with_reducible assumption
    | with_reducible apply State.emit_keeps
    | with_reducible apply State.healBuffer_keeps
    | with_reducible apply State.modChan_keeps
    | with_reducible apply State.modObj_keeps
    | with_reducible apply State.objItem_keeps
    | with_reducible apply State.ring_keeps
    | with_reducible refine ite_keeps (fun _ => ?_) (fun _ => ?_)
    | rfl
    | split
    | dsimp only
    | fail_if_no_progress with_reducible refine Keeps.mk_of ?_ ?_

end Sys2Proof.Machine
end

