-- ==== Sys2Proof/Laws/KeepsAxisBase.lean ====
section
/-! SUPPORT. What the operations of Machine/AxisBase.lean keep (see Laws/Keeps.lean). -/
namespace Sys2Proof.Machine

theorem State.modSig_keeps {σ : State} {s : State} {id : Nat} {f : SigRec → SigRec} (hk : Keeps σ s) :
    Keeps σ (State.modSig s id f) := by
  unfold State.modSig
  repeat' first
    | with_reducible exact hk
    | with_reducible assumption
    | with_reducible apply State.refresh_keeps
    | with_reducible refine ite_keeps (fun _ => ?_) (fun _ => ?_)
    | rfl
    | split
    | dsimp only
    | fail_if_no_progress with_reducible refine Keeps.mk_of ?_ ?_

theorem State.modGroup_keeps {σ : State} {s : State} {g : Nat} {f : GroupRt → GroupRt} (hk : Keeps σ s) :
    Keeps σ (State.modGroup s g f) := by
  unfold State.modGroup
  repeat' first
    | with_reducible exact hk
    | with_reducible assumption
    | with_reducible apply State.refresh_keeps
    | with_reducible refine ite_keeps (fun _ => ?_) (fun _ => ?_)
    | rfl
    | split
    | dsimp only
    | fail_if_no_progress with_reducible refine Keeps.mk_of ?_ ?_

theorem State.axState_keeps {σ : State} {s : State} {a : Nat} {st : AxState} {reason : Nat} (hk : Keeps σ s) :
    Keeps σ (State.axState s a st reason) := by
  unfold State.axState
  repeat' first
    | with_reducible exact hk
    | with_reducible assumption
    | with_reducible apply State.event_keeps
    | with_reducible apply State.modAxis_keeps
    | with_reducible refine ite_keeps (fun _ => ?_) (fun _ => ?_)
    | rfl
    | split
    | dsimp only
    | fail_if_no_progress with_reducible refine Keeps.mk_of ?_ ?_

theorem State.axFlags_keeps {σ : State} {s : State} {a bits : Nat} (hk : Keeps σ s) :
    Keeps σ (State.axFlags s a bits) := by
  unfold State.axFlags
  repeat' first
    | with_reducible exact hk
    | with_reducible assumption
    | with_reducible apply State.event_keeps
    | with_reducible apply State.modAxis_keeps
    | (with_reducible refine foldl_keeps ?_ ?_; intro _ _ _)
    | rfl
    | split

theorem State.axPlan_keeps {σ : State} {s : State} {a : Nat} {goal : Int} (hk : Keeps σ s) :
    Keeps σ (State.axPlan s a goal) := by
  unfold State.axPlan
  repeat' first
    | with_reducible exact hk
    | with_reducible assumption
    | with_reducible apply State.axFlags_keeps
    | with_reducible apply State.modAxis_keeps

theorem State.axPlanStop_keeps {σ : State} {s : State} {a : Nat} (hk : Keeps σ s) :
    Keeps σ (State.axPlanStop s a) := by
  unfold State.axPlanStop
  repeat' first
    | with_reducible exact hk
    | with_reducible assumption
    | with_reducible apply State.modAxis_keeps

theorem State.axStopNow_keeps {σ : State} {s : State} {a reason : Nat} (hk : Keeps σ s) :
    Keeps σ (State.axStopNow s a reason) := by
  unfold State.axStopNow
  repeat' first
    | with_reducible exact hk
    | with_reducible assumption
    | with_reducible apply State.axPlanStop_keeps
    | with_reducible apply State.axState_keeps
    | rfl
    | split

theorem State.axTarget_keeps {σ : State} {s : State} {a : Nat} {goal : Int} {reason : Nat} (hk : Keeps σ s) :
    Keeps σ (State.axTarget s a goal reason) := by
  unfold State.axTarget
  repeat' first
    | with_reducible exact hk
    | with_reducible assumption
    | with_reducible apply State.axPlan_keeps
    | with_reducible apply State.axState_keeps

theorem State.axHold_keeps {σ : State} {s : State} {a reason : Nat} (hk : Keeps σ s) :
    Keeps σ (State.axHold s a reason) := by
  unfold State.axHold
  repeat' first
    | with_reducible exact hk
    | with_reducible assumption
    | with_reducible apply State.axState_keeps
    | with_reducible apply State.modAxis_keeps

theorem State.axReact_keeps {σ : State} {s : State} {a r : Nat} (hk : Keeps σ s) :
    Keeps σ (State.axReact s a r) := by
  unfold State.axReact
  repeat' first
    | with_reducible exact hk
    | with_reducible assumption
    | with_reducible apply State.axHold_keeps
    | with_reducible apply State.axStopNow_keeps
    | with_reducible apply State.modAxis_keeps
    | rfl
    | split
    | dsimp only

theorem State.fbDetect_keeps {σ : State} {s : State} {a : Nat} {k : Nat} {m : Int} {reached : Bool} (hk : Keeps σ s) :
    Keeps σ (State.fbDetect s a k m reached) := by
  unfold State.fbDetect
  repeat' first
    | with_reducible exact hk
    | with_reducible assumption
    | with_reducible apply State.axFlags_keeps
    | with_reducible apply State.axReact_keeps
    | with_reducible apply State.condOn_keeps
    | with_reducible apply State.event_keeps
    | with_reducible apply State.modAxis_keeps
    | with_reducible apply State.raiseU_keeps
    | with_reducible refine ite_keeps (fun _ => ?_) (fun _ => ?_)
    | rfl
    | split
    | dsimp only

theorem State.fbEnd_keeps {σ : State} {s : State} {a k : Nat} (hk : Keeps σ s) :
    Keeps σ (State.fbEnd s a k) := by
  unfold State.fbEnd
  repeat' first
    | with_reducible exact hk
    | with_reducible assumption
    | with_reducible apply State.condOff_keeps
    | with_reducible apply State.modAxis_keeps
    | rfl
    | split

theorem State.fbUpdate_keeps {σ : State} {s : State} {a : Nat} {r : SigRec} (hk : Keeps σ s) :
    Keeps σ (State.fbUpdate s a r) := by
  unfold State.fbUpdate
  repeat' first
    | with_reducible exact hk
    | with_reducible assumption
    | with_reducible apply State.axFlags_keeps
    | with_reducible apply State.fbDetect_keeps
    | with_reducible apply State.fbEnd_keeps
    | with_reducible apply State.modAxis_keeps
    | with_reducible apply State.raiseU_keeps
    | with_reducible refine ite_keeps (fun _ => ?_) (fun _ => ?_)
    | rfl
    | split
    | dsimp only
    | fail_if_no_progress with_reducible refine Keeps.mk_of ?_ ?_

theorem State.fbNotify_keeps {σ : State} {s : State} {id : Nat} (hk : Keeps σ s) :
    Keeps σ (State.fbNotify s id) := by
  unfold State.fbNotify
  repeat' first
    | with_reducible exact hk
    | with_reducible assumption
    | with_reducible apply State.fbUpdate_keeps
    | (with_reducible refine foldl_keeps ?_ ?_; intro _ _ _)
    | rfl
    | split

theorem State.fbCheck_keeps {σ : State} {s : State} {a : Nat} (hk : Keeps σ s) :
    Keeps σ (State.fbCheck s a) := by
  unfold State.fbCheck
  repeat' first
    | with_reducible exact hk
    | with_reducible assumption
    | with_reducible apply State.fbDetect_keeps
    | with_reducible apply State.modAxis_keeps
    | with_reducible refine ite_keeps (fun _ => ?_) (fun _ => ?_)
    | (with_reducible refine foldl_keeps ?_ ?_; intro _ _ _)
    | rfl
    | split
    | dsimp only
    | fail_if_no_progress with_reducible refine Keeps.mk_of ?_ ?_

theorem State.fbExpect_keeps {σ : State} {s : State} {c : Nat} {o : Nat} {d : Due} (hk : Keeps σ s) :
    Keeps σ (State.fbExpect s c o d) := by
  unfold State.fbExpect
  repeat' first
    | with_reducible exact hk
    | with_reducible assumption
    | with_reducible apply State.modAxis_keeps
    | with_reducible refine ite_keeps (fun _ => ?_) (fun _ => ?_)
    | (with_reducible refine foldl_keeps ?_ ?_; intro _ _ _)
    | rfl
    | split
    | dsimp only
    | fail_if_no_progress with_reducible refine Keeps.mk_of ?_ ?_

theorem State.axFallback_keeps {σ : State} {s : State} {a : Nat} {f : Fallback} (hk : Keeps σ s) :
    Keeps σ (State.axFallback s a f) := by
  unfold State.axFallback
  repeat' first
    | with_reducible exact hk
    | with_reducible assumption
    | with_reducible apply State.axStopNow_keeps
    | with_reducible apply State.axTarget_keeps
    | with_reducible apply State.modAxis_keeps
    | rfl
    | split
    | dsimp only

theorem State.axFallbackOver_keeps {σ : State} {s : State} {p : Nat} (hk : Keeps σ s) :
    Keeps σ (State.axFallbackOver s p) := by
  unfold State.axFallbackOver
  repeat' first
    | with_reducible exact hk
    | with_reducible assumption
    | with_reducible apply State.modAxis_keeps
    | (with_reducible refine foldl_keeps ?_ ?_; intro _ _ _)
    | rfl
    | split

end Sys2Proof.Machine
end

