-- ==== Sys2Proof/Laws/KeepsStaging.lean ====
section
/-! SUPPORT. What the operations of Machine/Staging.lean keep (see Laws/Keeps.lean). -/
namespace Sys2Proof.Machine

theorem State.rewriteStaged_keeps {σ : State} {s : State} {tables : List Nat} (hk : Keeps σ s) :
    Keeps σ (State.rewriteStaged s tables) := by
  unfold State.rewriteStaged
  repeat' first
    | with_reducible exact hk
    | with_reducible assumption
    | with_reducible refine ite_keeps (fun _ => ?_) (fun _ => ?_)
    | rfl
    | split
    | dsimp only
    | fail_if_no_progress with_reducible refine Keeps.mk_of ?_ ?_

theorem State.restage_keeps {σ : State} {s : State} {p : Nat} {f : Stage → Stage} (hk : Keeps σ s) :
    Keeps σ (State.restage s p f) := by
  unfold State.restage
  repeat' first
    | with_reducible exact hk
    | with_reducible assumption
    | with_reducible apply State.modStage_keeps
    | with_reducible apply State.rewriteStaged_keeps
    | with_reducible refine ite_keeps (fun _ => ?_) (fun _ => ?_)
    | rfl
    | split
    | dsimp only

theorem State.swapRoles_keeps {σ : State} {s : State} {tables : List Nat} (hk : Keeps σ s) :
    Keeps σ (State.swapRoles s tables) := by
  unfold State.swapRoles
  repeat' first
    | with_reducible exact hk
    | with_reducible assumption
    | with_reducible refine ite_keeps (fun _ => ?_) (fun _ => ?_)
    | (with_reducible refine foldl_keeps ?_ ?_; intro _ _ _)
    | rfl
    | split
    | dsimp only
    | fail_if_no_progress with_reducible refine Keeps.mk_of ?_ ?_

theorem State.dropSelectors_keeps {σ : State} {s : State} {q : Nat} (hk : Keeps σ s) :
    Keeps σ (State.dropSelectors s q) := by
  unfold State.dropSelectors
  repeat' first
    | with_reducible exact hk
    | with_reducible assumption
    | with_reducible refine State.modPart_keeps ?_ (fun _ => rfl) (fun _ => rfl) (fun _ => rfl)
    | with_reducible refine ite_keeps (fun _ => ?_) (fun _ => ?_)
    | (with_reducible refine foldl_keeps ?_ ?_; intro _ _ _)
    | rfl
    | split
    | dsimp only
    | fail_if_no_progress with_reducible refine Keeps.mk_of ?_ ?_

/-- Taking resources out of the expert grants gives no right. -/
theorem State.changeOwner_keeps {σ : State} {s : State} {r : PRes} {i new : Nat} (hk : Keeps σ s) :
    Keeps σ (State.changeOwner s r i new) := by
  unfold State.changeOwner
  dsimp only
  split
  · exact hk
  · apply State.event_keeps
    apply State.event_keeps
    refine foldl_keeps ?_ ?_
    · intro _ _ h
      split
      · exact State.event_keeps h
      · exact h
    · have hb : Keeps σ ({ s with
          stages := s.stages.map (fun g : Stage => g.dropRes (resKey r i))
          expert := SMap.erase s.expert (resKey r i)
          revoked := SMap.erase s.revoked (resKey r i) }.setPar r.ownerKey i new) := by
        apply State.setPar_keeps
        refine hk.trans ⟨⟨rfl, fun h => ⟨h.mem, h.log, h.parts, h.recs, ?_⟩⟩,
          ⟨rfl, fun w => ⟨?_, fun k p x => ?_⟩, rfl, rfl, rfl, rfl, rfl⟩⟩
        · exact SMap.wfFrom_erase _ h.grants
        · exact SMap.wfFrom_erase _ w
        · by_cases e : k = resKey r i
          · subst e
            have := SMap.find_erase_self (resKey r i) w
            simp [SMap.get, this, bitOf] at x
          · simpa [SMap.get, SMap.find_erase_other _ e] using x
      split
      · exact State.dropSelectors_keeps hb
      · exact hb

end Sys2Proof.Machine
end

