-- ==== Sys2Proof/Laws/KeepsSignals.lean ====
section
/-! SUPPORT. What the operations of Machine/Signals.lean keep (see Laws/Keeps.lean). -/
namespace Sys2Proof.Machine

theorem State.modSigStat_keeps {σ : State} {s : State} {c : Nat} {f : SigStat → SigStat} (hk : Keeps σ s) :
    Keeps σ (State.modSigStat s c f) := by
  unfold State.modSigStat
  repeat' first
    | with_reducible exact hk
    | with_reducible assumption
    | with_reducible apply State.modChan_keeps

theorem State.sigUpdate_keeps {σ : State} {s : State} {c : Nat} {g : Group} {aux : W64} (hk : Keeps σ s) :
    Keeps σ (State.sigUpdate s c g aux) := by
  unfold State.sigUpdate
  repeat' first
    | with_reducible exact hk
    | with_reducible assumption
    | with_reducible apply State.emit_keeps
    | rfl
    | split

theorem State.unpackSig_keeps {σ : State} {s : State} {c : Nat} {x : SigSet} {g : Group} {f : Frame} {d : Nat × Sig} (hk : Keeps σ s) :
    Keeps σ (State.unpackSig s c x g f d) := by
  unfold State.unpackSig
  repeat' first
    | with_reducible exact hk
    | with_reducible assumption
    | with_reducible apply State.fbNotify_keeps
    | with_reducible apply State.modSig_keeps
    | with_reducible apply State.modSigStat_keeps
    | rfl
    | split
    | dsimp only

theorem State.unpackGroup_keeps {σ : State} {s : State} {c : Nat} {x : SigSet} {f : Frame} {g : Group} (hk : Keeps σ s) :
    Keeps σ (State.unpackGroup s c x f g) := by
  unfold State.unpackGroup
  repeat' first
    | with_reducible exact hk
    | with_reducible assumption
    | with_reducible apply State.modGroup_keeps
    | with_reducible apply State.sigUpdate_keeps
    | with_reducible apply State.unpackSig_keeps
    | (with_reducible refine foldl_keeps ?_ ?_; intro _ _ _)

theorem State.unpack_keeps {σ : State} {s : State} {c sel : Nat} {f : Frame} (hk : Keeps σ s) :
    Keeps σ (State.unpack s c sel f) := by
  unfold State.unpack
  repeat' first
    | with_reducible exact hk
    | with_reducible assumption
    | with_reducible apply State.unpackGroup_keeps
    | (with_reducible refine foldl_keeps ?_ ?_; intro _ _ _)

theorem State.packSig_keeps {σ : State} {s : State} {c : Nat} {x : SigSet} {bs : List Byte} {d : Nat × Sig} (hk : Keeps σ s) :
    Keeps σ (State.packSig s c x bs d).1 := by
  unfold State.packSig
  repeat' first
    | with_reducible exact hk
    | with_reducible assumption
    | with_reducible apply State.modSig_keeps
    | with_reducible apply State.modSigStat_keeps
    | with_reducible refine ite_keeps (fun _ => ?_) (fun _ => ?_)
    | rfl
    | split
    | dsimp only
    | fail_if_no_progress with_reducible refine Keeps.mk_of ?_ ?_

theorem State.packGroup_keeps {σ : State} {s : State} {c : Nat} {x : SigSet} {bs : List Byte} {g : Group} (hk : Keeps σ s) :
    Keeps σ (State.packGroup s c x bs g).1 := by
  unfold State.packGroup
  repeat' first
    | with_reducible exact hk
    | with_reducible assumption
    | with_reducible apply State.modGroup_keeps
    | with_reducible apply State.packSig_keeps
    | (with_reducible refine foldl_fst_keeps ?_ ?_; intro _ _ _)

theorem State.packObj_keeps {σ : State} {s : State} {c o : Nat} (hk : Keeps σ s) :
    Keeps σ (State.packObj s c o) := by
  unfold State.packObj
  repeat' first
    | with_reducible exact hk
    | with_reducible assumption
    | with_reducible apply State.modSigStat_keeps
    | with_reducible apply State.packGroup_keeps
    | with_reducible apply State.writePayload_keeps
    | (with_reducible refine foldl_fst_keeps ?_ ?_; intro _ _ _)
    | rfl
    | split
    | dsimp only

theorem State.gwAdd_keeps {σ : State} {s : State} {c : Nat} {j : GwJob} (hk : Keeps σ s) :
    Keeps σ (State.gwAdd s c j) := by
  unfold State.gwAdd
  repeat' first
    | with_reducible exact hk
    | with_reducible assumption
    | with_reducible refine ite_keeps (fun _ => ?_) (fun _ => ?_)
    | rfl
    | split
    | dsimp only
    | fail_if_no_progress with_reducible refine Keeps.mk_of ?_ ?_

theorem State.gwRequest_keeps {σ : State} {s : State} {c : Nat} {sel : Nat} {f : Frame} (hk : Keeps σ s) :
    Keeps σ (State.gwRequest s c sel f) := by
  unfold State.gwRequest
  repeat' first
    | with_reducible exact hk
    | with_reducible assumption
    | with_reducible apply State.gwAdd_keeps
    | with_reducible apply State.unpack_keeps
    | with_reducible refine ite_keeps (fun _ => ?_) (fun _ => ?_)
    | rfl
    | split
    | dsimp only

theorem State.packRequest_keeps {σ : State} {s : State} {c : Nat} {o : Nat} (hk : Keeps σ s) :
    Keeps σ (State.packRequest s c o) := by
  unfold State.packRequest
  repeat' first
    | with_reducible exact hk
    | with_reducible assumption
    | with_reducible apply State.gwAdd_keeps
    | with_reducible refine ite_keeps (fun _ => ?_) (fun _ => ?_)
    | rfl
    | split
    | dsimp only

theorem State.packThenSend_keeps {σ : State} {s : State} {c : Nat} {o : Nat} (hk : Keeps σ s) :
    Keeps σ (State.packThenSend s c o) := by
  unfold State.packThenSend
  repeat' first
    | with_reducible exact hk
    | with_reducible assumption
    | with_reducible refine ite_keeps (fun _ => ?_) (fun _ => ?_)
    | rfl
    | split
    | dsimp only
    | fail_if_no_progress with_reducible refine Keeps.mk_of ?_ ?_

theorem State.serveJob_keeps {σ : State} {s : State} {r : GwReq} (hk : Keeps σ s) :
    Keeps σ (State.serveJob s r) := by
  unfold State.serveJob
  repeat' first
    | with_reducible exact hk
    | with_reducible assumption
    | with_reducible apply State.packObj_keeps
    | with_reducible apply State.requestSend_keeps
    | with_reducible apply State.unpack_keeps
    | with_reducible refine ite_keeps (fun _ => ?_) (fun _ => ?_)
    | rfl
    | split
    | dsimp only

theorem State.serveReq_keeps {σ : State} {s : State} {r : GwReq} (hk : Keeps σ s) :
    Keeps σ (State.serveReq s r) := by
  unfold State.serveReq
  repeat' first
    | with_reducible exact hk
    | with_reducible assumption
    | with_reducible apply State.serveJob_keeps
    | with_reducible refine ite_keeps (fun _ => ?_) (fun _ => ?_)
    | rfl
    | split
    | dsimp only
    | fail_if_no_progress with_reducible refine Keeps.mk_of ?_ ?_

theorem State.serveTo_keeps {σ : State} {s : State} {u : Nat} {p : GwReq → Bool} (hk : Keeps σ s) :
    Keeps σ (State.serveTo s u p) := by
  unfold State.serveTo
  repeat' first
    | with_reducible exact hk
    | with_reducible assumption
    | with_reducible apply State.serveReq_keeps
    | with_reducible refine ite_keeps (fun _ => ?_) (fun _ => ?_)
    | (with_reducible refine foldl_keeps ?_ ?_; intro _ _ _)
    | rfl
    | split
    | dsimp only

theorem State.unpackNext_keeps {σ : State} {s : State} {u : Nat} (hk : Keeps σ s) :
    Keeps σ (State.unpackNext s u) := by
  unfold State.unpackNext
  repeat' first
    | with_reducible exact hk
    | with_reducible assumption
    | with_reducible apply State.serveTo_keeps
    | with_reducible apply State.unpack_keeps
    | with_reducible refine ite_keeps (fun _ => ?_) (fun _ => ?_)
    | rfl
    | split
    | dsimp only

theorem State.packNext_keeps {σ : State} {s : State} {c : Nat} {o : Nat} (hk : Keeps σ s) :
    Keeps σ (State.packNext s c o) := by
  unfold State.packNext
  repeat' first
    | with_reducible exact hk
    | with_reducible assumption
    | with_reducible apply State.serveTo_keeps
    | with_reducible refine ite_keeps (fun _ => ?_) (fun _ => ?_)
    | rfl
    | split
    | dsimp only

theorem State.gatewayDue_keeps {σ : State} {s : State} (hk : Keeps σ s) :
    Keeps σ (State.gatewayDue s) := by
  unfold State.gatewayDue
  repeat' first
    | with_reducible exact hk
    | with_reducible assumption
    | with_reducible apply State.serveReq_keeps
    | with_reducible refine ite_keeps (fun _ => ?_) (fun _ => ?_)
    | (with_reducible refine foldl_keeps ?_ ?_; intro _ _ _)
    | rfl
    | split
    | dsimp only

theorem State.packNow_keeps {σ : State} {s : State} {c : Nat} {o : Nat} (hk : Keeps σ s) :
    Keeps σ (State.packNow s c o) := by
  unfold State.packNow
  repeat' first
    | with_reducible exact hk
    | with_reducible assumption
    | with_reducible apply State.packObj_keeps
    | with_reducible apply State.serveReq_keeps
    | with_reducible refine ite_keeps (fun _ => ?_) (fun _ => ?_)
    | (with_reducible refine foldl_keeps ?_ ?_; intro _ _ _)
    | rfl
    | split
    | dsimp only

theorem State.writeGroup_keeps {σ : State} {s : State} {c : Nat} {g : Group} {es : List (Nat × W64)} {time : W64} {co : W64} (hk : Keeps σ s) :
    Keeps σ (State.writeGroup s c g es time co) := by
  unfold State.writeGroup
  repeat' first
    | with_reducible exact hk
    | with_reducible assumption
    | with_reducible apply State.modGroup_keeps
    | with_reducible apply State.modSig_keeps
    | with_reducible apply State.packRequest_keeps
    | with_reducible refine ite_keeps (fun _ => ?_) (fun _ => ?_)
    | (with_reducible refine foldl_keeps ?_ ?_; intro _ _ _)
    | rfl
    | split
    | dsimp only
    | fail_if_no_progress with_reducible refine Keeps.mk_of ?_ ?_

theorem State.applySigWrite_keeps {σ : State} {s : State} {core : Nat} {es : List (Nat × W64)} {send : Bool} (hk : Keeps σ s) :
    Keeps σ (State.applySigWrite s core es send) := by
  unfold State.applySigWrite
  repeat' first
    | with_reducible exact hk
    | with_reducible assumption
    | with_reducible apply State.newPayload_keeps
    | with_reducible apply State.packThenSend_keeps
    | with_reducible apply State.sendIgnored_keeps
    | with_reducible apply State.sigUpdate_keeps
    | with_reducible apply State.writeGroup_keeps
    | with_reducible refine ite_keeps (fun _ => ?_) (fun _ => ?_)
    | (with_reducible refine foldl_keeps ?_ ?_; intro _ _ _)
    | rfl
    | split
    | dsimp only

theorem State.staleGroup_keeps {σ : State} {s : State} {c : Nat} {g : Group} (hk : Keeps σ s) :
    Keeps σ (State.staleGroup s c g) := by
  unfold State.staleGroup
  repeat' first
    | with_reducible exact hk
    | with_reducible assumption
    | with_reducible apply State.event_keeps
    | with_reducible apply State.modGroup_keeps
    | with_reducible apply State.modSig_keeps
    | with_reducible apply State.modSigStat_keeps
    | with_reducible apply State.raiseU_keeps
    | (with_reducible refine foldl_keeps ?_ ?_; intro _ _ _)
    | rfl
    | split
    | dsimp only

theorem State.staleCheck_keeps {σ : State} {s : State} {c : Nat} (hk : Keeps σ s) :
    Keeps σ (State.staleCheck s c) := by
  unfold State.staleCheck
  repeat' first
    | with_reducible exact hk
    | with_reducible assumption
    | with_reducible apply State.staleGroup_keeps
    | (with_reducible refine foldl_keeps ?_ ?_; intro _ _ _)

theorem State.switchSigs_keeps {σ : State} {s : State} {new : List (Nat × SigSet)} (hk : Keeps σ s) :
    Keeps σ (State.switchSigs s new) := by
  unfold State.switchSigs
  repeat' first
    | with_reducible exact hk
    | with_reducible assumption
    | with_reducible apply State.modChan_keeps
    | with_reducible apply State.modGroup_keeps
    | with_reducible apply State.modSig_keeps
    | (with_reducible refine foldl_keeps ?_ ?_; intro _ _ _)
    | rfl
    | split
    | dsimp only

end Sys2Proof.Machine
end

