-- ==== Sys2Proof/Laws/KeepsFilter.lean ====
section
/-! SUPPORT. What the operations of Machine/Filter.lean keep (see Laws/Keeps.lean). -/
namespace Sys2Proof.Machine

theorem State.modRing_keeps {σ : State} {s : State} {c : Nat} {f : Ring → Ring} (hk : Keeps σ s) :
    Keeps σ (State.modRing s c f) := by
  unfold State.modRing
  repeat' first
    | with_reducible exact hk
    | with_reducible assumption
    | with_reducible apply State.modChan_keeps

theorem State.cutFast_keeps {σ : State} {s : State} {e : Nat} (hk : Keeps σ s) :
    Keeps σ (State.cutFast s e) := by
  unfold State.cutFast
  repeat' first
    | with_reducible exact hk
    | with_reducible assumption
    | with_reducible apply State.modChan_keeps
    | with_reducible refine ite_keeps (fun _ => ?_) (fun _ => ?_)
    | rfl
    | split
    | dsimp only
    | fail_if_no_progress with_reducible refine Keeps.mk_of ?_ ?_

theorem State.ringWrite_keeps {σ : State} {s : State} {c : Nat} {f0 : Frame} (hk : Keeps σ s) :
    Keeps σ (State.ringWrite s c f0) := by
  unfold State.ringWrite
  repeat' first
    | with_reducible exact hk
    | with_reducible assumption
    | with_reducible apply State.event_keeps
    | with_reducible apply State.modRing_keeps
    | with_reducible apply State.raiseU_keeps
    | with_reducible apply State.ring_keeps
    | with_reducible apply State.storeWrite_keeps
    | with_reducible refine ite_keeps (fun _ => ?_) (fun _ => ?_)
    | rfl
    | split
    | dsimp only
    | fail_if_no_progress with_reducible refine Keeps.mk_of ?_ ?_

theorem State.frameItem_keeps {σ : State} {s : State} {core x q ty rule : Nat} {f : Frame} (hk : Keeps σ s) :
    Keeps σ (State.frameItem s core x q ty rule f) := by
  unfold State.frameItem
  repeat' first
    | with_reducible exact hk
    | with_reducible assumption
    | with_reducible apply State.emit_keeps

theorem State.ruleActions_keeps {σ : State} {s : State} {core x i : Nat} {r : Rule} {f : Frame} (hk : Keeps σ s) :
    Keeps σ (State.ruleActions s core x i r f) := by
  unfold State.ruleActions
  repeat' first
    | with_reducible exact hk
    | with_reducible assumption
    | with_reducible apply State.frameItem_keeps
    | with_reducible apply State.gwRequest_keeps
    | with_reducible apply State.rxUpdate_keeps
    | rfl
    | split

theorem State.evalRules_keeps {σ s : State} {core x : Nat} {f : Frame} {rs : List Rule} {i : Nat} {hit : Bool}
    (hk : Keeps σ s) : Keeps σ (s.evalRules core x f rs i hit) := by
  induction rs generalizing s i hit with
  | nil =>
    unfold State.evalRules
    split
    · exact hk
    · exact State.modRing_keeps hk
  | cons r rs ih =>
    unfold State.evalRules
    dsimp only
    split
    · split
      · exact ih (State.ruleActions_keeps hk)
      · exact State.ruleActions_keeps hk
    · exact ih hk

theorem State.takeEntry_keeps {σ : State} {s : State} {c : Nat} (hk : Keeps σ s) :
    Keeps σ (State.takeEntry s c) := by
  unfold State.takeEntry
  repeat' first
    | with_reducible exact hk
    | with_reducible assumption
    | with_reducible apply State.evalRules_keeps
    | with_reducible apply State.frameItem_keeps
    | with_reducible apply State.modRing_keeps
    | rfl
    | split
    | dsimp only

theorem State.tellDone_keeps {σ : State} {s : State} {c : Nat} (hk : Keeps σ s) :
    Keeps σ (State.tellDone s c) := by
  unfold State.tellDone
  repeat' first
    | with_reducible exact hk
    | with_reducible assumption
    | with_reducible apply State.emit_keeps
    | with_reducible apply State.modRing_keeps
    | with_reducible apply State.ring_keeps
    | with_reducible refine ite_keeps (fun _ => ?_) (fun _ => ?_)
    | (with_reducible refine foldl_keeps ?_ ?_; intro _ _ _)
    | rfl
    | split
    | dsimp only
    | fail_if_no_progress with_reducible refine Keeps.mk_of ?_ ?_

theorem State.takeEntries_keeps {σ : State} {s : State} {c : Nat} {n' : Nat} (hk : Keeps σ s) :
    Keeps σ (State.takeEntries s c n') := by
  induction n' generalizing s with
  | zero => exact hk
  | succ n' ih =>
    unfold State.takeEntries
    repeat' first
    | with_reducible exact hk
    | with_reducible assumption
    | with_reducible apply ih
    | with_reducible apply State.takeEntry_keeps
    | with_reducible apply State.tellDone_keeps

theorem State.switchObj_keeps {σ : State} {s : State} {old : State} {c : Nat} {o : Nat} (hk : Keeps σ s) :
    Keeps σ (State.switchObj s old c o) := by
  unfold State.switchObj
  repeat' first
    | with_reducible exact hk
    | with_reducible assumption
    | with_reducible apply State.modChan_keeps
    | with_reducible apply State.modObj_keeps
    | with_reducible apply State.sendIgnored_keeps
    | with_reducible apply State.withdraw_keeps
    | with_reducible refine ite_keeps (fun _ => ?_) (fun _ => ?_)
    | rfl
    | split
    | dsimp only
    | fail_if_no_progress with_reducible refine Keeps.mk_of ?_ ?_

end Sys2Proof.Machine
end

