-- ==== Sys2Proof/Laws/KeepsAxes.lean ====
section
/-! SUPPORT. What the operations of Machine/Axes.lean keep (see Laws/Keeps.lean). -/
namespace Sys2Proof.Machine

theorem State.axLimits_keeps {σ : State} {s : State} {a : Nat} (hk : Keeps σ s) :
    Keeps σ (State.axLimits s a) := by
  unfold State.axLimits
  repeat' first
    | with_reducible exact hk
    | with_reducible assumption
    | with_reducible apply State.axPlan_keeps
    | with_reducible apply State.axPlanStop_keeps
    | with_reducible apply State.modAxis_keeps
    | with_reducible refine ite_keeps (fun _ => ?_) (fun _ => ?_)
    | rfl
    | split
    | dsimp only
    | fail_if_no_progress with_reducible refine Keeps.mk_of ?_ ?_

theorem State.axWrite_keeps {σ : State} {s : State} {a : Nat} {x tf : W64} (hk : Keeps σ s) :
    Keeps σ (State.axWrite s a x tf) := by
  unfold State.axWrite
  repeat' first
    | with_reducible exact hk
    | with_reducible assumption
    | with_reducible apply State.writeGroup_keeps
    | (with_reducible refine foldl_keeps ?_ ?_; intro _ _ _)

theorem State.axSat_keeps {σ : State} {s : State} {a flags : Nat} (hk : Keeps σ s) :
    Keeps σ (State.axSat s a flags) := by
  unfold State.axSat
  repeat' first
    | with_reducible exact hk
    | with_reducible assumption
    | with_reducible apply State.axFlags_keeps
    | with_reducible apply State.raiseU_keeps
    | rfl
    | split

theorem State.axStarved_keeps {σ : State} {s : State} {a : Nat} {b : Bool} (hk : Keeps σ s) :
    Keeps σ (State.axStarved s a b) := by
  unfold State.axStarved
  repeat' first
    | with_reducible exact hk
    | with_reducible assumption
    | with_reducible apply State.axFlags_keeps
    | with_reducible apply State.condOff_keeps
    | with_reducible apply State.condOn_keeps
    | with_reducible apply State.modAxis_keeps
    | with_reducible apply State.raiseU_keeps
    | with_reducible refine ite_keeps (fun _ => ?_) (fun _ => ?_)
    | rfl
    | split
    | dsimp only

theorem State.axStill_keeps {σ : State} {s : State} {a : Nat} (hk : Keeps σ s) :
    Keeps σ (State.axStill s a) := by
  unfold State.axStill
  repeat' first
    | with_reducible exact hk
    | with_reducible assumption
    | with_reducible apply State.addRequest_keeps
    | with_reducible apply State.axState_keeps
    | with_reducible apply State.modAxis_keeps
    | with_reducible apply State.release_keeps
    | with_reducible refine ite_keeps (fun _ => ?_) (fun _ => ?_)
    | rfl
    | split
    | dsimp only
    | fail_if_no_progress with_reducible refine Keeps.mk_of ?_ ?_

theorem State.axMoved_keeps {σ : State} {s : State} {a : Nat} {h : Nat} {m : Mot} (hk : Keeps σ s) :
    Keeps σ (State.axMoved s a h m) := by
  unfold State.axMoved
  repeat' first
    | with_reducible exact hk
    | with_reducible assumption
    | with_reducible apply State.axSat_keeps
    | with_reducible apply State.modAxis_keeps
    | with_reducible refine ite_keeps (fun _ => ?_) (fun _ => ?_)
    | rfl
    | split
    | dsimp only
    | fail_if_no_progress with_reducible refine Keeps.mk_of ?_ ?_

theorem State.axEval_keeps {σ : State} {s0 : State} {a : Nat} {x : W64} {tf : W64} {w : Int} {time : Bool} (hk : Keeps σ s0) :
    Keeps σ (State.axEval s0 a x tf w time) := by
  unfold State.axEval
  repeat' first
    | with_reducible exact hk
    | with_reducible assumption
    | with_reducible apply State.axFlags_keeps
    | with_reducible apply State.axLimits_keeps
    | with_reducible apply State.axMoved_keeps
    | with_reducible apply State.axSat_keeps
    | with_reducible apply State.axStarved_keeps
    | with_reducible apply State.axStill_keeps
    | with_reducible apply State.axWrite_keeps
    | with_reducible apply State.modAxis_keeps
    | with_reducible refine ite_keeps (fun _ => ?_) (fun _ => ?_)
    | rfl
    | split
    | dsimp only
    | fail_if_no_progress with_reducible refine Keeps.mk_of ?_ ?_

theorem State.axEvalAll_keeps {σ : State} {s : State} {c o : Nat} {x tf : W64} {w : Int} {time : Bool} (hk : Keeps σ s) :
    Keeps σ (State.axEvalAll s c o x tf w time) := by
  unfold State.axEvalAll
  repeat' first
    | with_reducible exact hk
    | with_reducible assumption
    | with_reducible apply State.axEval_keeps
    | (with_reducible refine foldl_keeps ?_ ?_; intro _ _ _)

theorem State.axStreamItem_keeps {σ : State} {s : State} {a : Nat} {new : List (W64 × Int)} (hk : Keeps σ s) :
    Keeps σ (State.axStreamItem s a new) := by
  unfold State.axStreamItem
  repeat' first
    | with_reducible exact hk
    | with_reducible assumption
    | with_reducible apply State.modAxis_keeps
    | rfl
    | split
    | dsimp only

theorem State.axCmdItem_keeps {σ : State} {s : State} {a : Nat} {op : Nat} {goal : Int} (hk : Keeps σ s) :
    Keeps σ (State.axCmdItem s a op goal) := by
  unfold State.axCmdItem
  repeat' first
    | with_reducible exact hk
    | with_reducible assumption
    | with_reducible apply State.axLimits_keeps
    | with_reducible apply State.axState_keeps
    | with_reducible apply State.axStopNow_keeps
    | with_reducible apply State.axTarget_keeps
    | with_reducible apply State.modAxis_keeps
    | with_reducible apply State.release_keeps
    | with_reducible refine ite_keeps (fun _ => ?_) (fun _ => ?_)
    | rfl
    | split
    | dsimp only
    | fail_if_no_progress with_reducible refine Keeps.mk_of ?_ ?_

theorem State.axStopCmd_keeps {σ : State} {s : State} {a : Nat} {release : Bool} (hk : Keeps σ s) :
    Keeps σ (State.axStopCmd s a release) := by
  unfold State.axStopCmd
  repeat' first
    | with_reducible exact hk
    | with_reducible assumption
    | with_reducible apply State.axState_keeps
    | with_reducible apply State.axStopNow_keeps
    | with_reducible apply State.modAxis_keeps
    | rfl
    | split
    | dsimp only

theorem State.unlinkSig_keeps {σ : State} {s : State} {id : Nat} (hk : Keeps σ s) :
    Keeps σ (State.unlinkSig s id) := by
  unfold State.unlinkSig
  repeat' first
    | with_reducible exact hk
    | with_reducible assumption
    | with_reducible apply State.modGroup_keeps
    | with_reducible apply State.modSig_keeps
    | with_reducible refine ite_keeps (fun _ => ?_) (fun _ => ?_)
    | rfl
    | split
    | dsimp only
    | fail_if_no_progress with_reducible refine Keeps.mk_of ?_ ?_

theorem State.axSwitch_keeps {σ : State} {s : State} {old : State} {a : Nat} (hk : Keeps σ s) :
    Keeps σ (State.axSwitch s old a) := by
  unfold State.axSwitch
  repeat' first
    | with_reducible exact hk
    | with_reducible assumption
    | with_reducible apply State.axState_keeps
    | with_reducible apply State.modAxis_keeps
    | with_reducible apply State.unlinkSig_keeps
    | with_reducible refine ite_keeps (fun _ => ?_) (fun _ => ?_)
    | rfl
    | split
    | dsimp only
    | fail_if_no_progress with_reducible refine Keeps.mk_of ?_ ?_

end Sys2Proof.Machine
end

