-- ==== Sys2Proof/Laws/KeepsSched.lean ====
section
/-! SUPPORT. What the operations of Machine/Sched.lean keep (see Laws/Keeps.lean). -/
namespace Sys2Proof.Machine

theorem State.modRt_keeps {σ : State} {s : State} {c : Nat} {f : SchedRt → SchedRt} (hk : Keeps σ s) :
    Keeps σ (State.modRt s c f) := by
  unfold State.modRt
  repeat' first
    | with_reducible exact hk
    | with_reducible assumption
    | with_reducible apply State.modChan_keeps

theorem State.schedState_keeps {σ : State} {s : State} {c : Nat} {st : SchedState} {reason : Nat} (hk : Keeps σ s) :
    Keeps σ (State.schedState s c st reason) := by
  unfold State.schedState
  repeat' first
    | with_reducible exact hk
    | with_reducible assumption
    | with_reducible apply State.event_keeps
    | with_reducible apply State.modRt_keeps
    | rfl
    | split
    | dsimp only

theorem State.countMiss_keeps {σ : State} {s : State} {c : Nat} {d : Sched} {x : W64} (hk : Keeps σ s) :
    Keeps σ (State.countMiss s c d x) := by
  unfold State.countMiss
  repeat' first
    | with_reducible exact hk
    | with_reducible assumption
    | with_reducible apply State.modRt_keeps
    | with_reducible apply State.raiseU_keeps
    | rfl
    | split
    | dsimp only

theorem State.schedPassed_keeps {σ : State} {s : State} {c : Nat} {d : Sched} {x : W64} (hk : Keeps σ s) :
    Keeps σ (State.schedPassed s c d x) := by
  unfold State.schedPassed
  repeat' first
    | with_reducible exact hk
    | with_reducible assumption
    | with_reducible apply State.modRt_keeps

theorem State.armedPassed_keeps {σ : State} {s : State} {c : Nat} {d : Sched} {x : Armed} (hk : Keeps σ s) :
    Keeps σ (State.armedPassed s c d x) := by
  unfold State.armedPassed
  repeat' first
    | with_reducible exact hk
    | with_reducible assumption
    | with_reducible apply State.modRt_keeps
    | with_reducible apply State.schedPassed_keeps
    | with_reducible refine ite_keeps (fun _ => ?_) (fun _ => ?_)
    | rfl
    | split
    | dsimp only
    | fail_if_no_progress with_reducible refine Keeps.mk_of ?_ ?_

theorem State.disarm_keeps {σ : State} {s : State} {c : Nat} (hk : Keeps σ s) :
    Keeps σ (State.disarm s c) := by
  unfold State.disarm
  repeat' first
    | with_reducible exact hk
    | with_reducible assumption
    | with_reducible apply State.modChan_keeps
    | with_reducible apply State.modRt_keeps
    | with_reducible apply State.refill_keeps
    | with_reducible refine ite_keeps (fun _ => ?_) (fun _ => ?_)
    | rfl
    | split
    | dsimp only
    | fail_if_no_progress with_reducible refine Keeps.mk_of ?_ ?_

theorem State.schedTurn_keeps {σ : State} {s : State} {n : Nat} (hk : Keeps σ s) :
    Keeps σ (State.schedTurn s n) := by
  unfold State.schedTurn
  repeat' first
    | with_reducible exact hk
    | with_reducible assumption
    | with_reducible apply State.disarm_keeps
    | with_reducible apply State.modRt_keeps
    | (with_reducible refine foldl_keeps ?_ ?_; intro _ _ _)
    | rfl
    | split

theorem State.schedCross_keeps {σ : State} {s : State} {c : Nat} (hk : Keeps σ s) :
    Keeps σ (State.schedCross s c) := by
  unfold State.schedCross
  repeat' first
    | with_reducible exact hk
    | with_reducible assumption
    | with_reducible apply State.modRt_keeps
    | with_reducible apply State.schedState_keeps
    | with_reducible refine ite_keeps (fun _ => ?_) (fun _ => ?_)
    | rfl
    | split
    | dsimp only
    | fail_if_no_progress with_reducible refine Keeps.mk_of ?_ ?_

theorem State.schedUpdate_keeps {σ : State} {s : State} {c : Nat} (hk : Keeps σ s) :
    Keeps σ (State.schedUpdate s c) := by
  unfold State.schedUpdate
  repeat' first
    | with_reducible exact hk
    | with_reducible assumption
    | with_reducible apply State.schedCross_keeps
    | with_reducible apply State.schedState_keeps
    | with_reducible refine ite_keeps (fun _ => ?_) (fun _ => ?_)
    | rfl
    | split
    | dsimp only

theorem State.oldMiss_keeps {σ : State} {t : State} {c : Nat} {d : Sched} {b : W64} {bk : Bool} {x : W64} (hk : Keeps σ t) :
    Keeps σ (State.oldMiss t c d b bk x) := by
  unfold State.oldMiss
  repeat' first
    | with_reducible exact hk
    | with_reducible assumption
    | with_reducible apply State.countMiss_keeps
    | with_reducible apply State.modRt_keeps
    | rfl
    | split

theorem oldMissWalk_keeps {σ : State} {c : Nat} {d : Sched} {b : W64} {bk : Bool} {q : W64} {back : Bool} {n : Nat} {x : W64}
    {s : State} (hk : Keeps σ s) : Keeps σ (oldMissWalk c d b bk q back n x s) := by
  induction n generalizing x s with
  | zero => exact hk
  | succ n ih =>
    unfold oldMissWalk
    split
    · split
      · exact ih (State.oldMiss_keeps hk)
      · exact hk
    · exact hk

theorem State.schedOldMisses_keeps {σ : State} {s : State} {c : Nat} (hk : Keeps σ s) :
    Keeps σ (State.schedOldMisses s c) := by
  unfold State.schedOldMisses
  repeat' first
    | with_reducible exact hk
    | with_reducible assumption
    | with_reducible apply oldMissWalk_keeps
    | rfl
    | split
    | dsimp only

theorem State.schedHush_keeps {σ : State} {s : State} {c : Nat} (hk : Keeps σ s) :
    Keeps σ (State.schedHush s c) := by
  unfold State.schedHush
  repeat' first
    | with_reducible exact hk
    | with_reducible assumption
    | with_reducible apply State.armedPassed_keeps
    | with_reducible apply State.disarm_keeps
    | with_reducible apply State.modRt_keeps
    | with_reducible refine ite_keeps (fun _ => ?_) (fun _ => ?_)
    | rfl
    | split
    | dsimp only
    | fail_if_no_progress with_reducible refine Keeps.mk_of ?_ ?_

theorem State.schedExpire_keeps {σ : State} {s0 : State} {c : Nat} (hk : Keeps σ s0) :
    Keeps σ (State.schedExpire s0 c) := by
  unfold State.schedExpire
  repeat' first
    | with_reducible exact hk
    | with_reducible assumption
    | with_reducible apply State.armedPassed_keeps
    | with_reducible apply State.countMiss_keeps
    | with_reducible apply State.disarm_keeps
    | with_reducible apply State.modRt_keeps
    | with_reducible apply State.schedHush_keeps
    | with_reducible refine ite_keeps (fun _ => ?_) (fun _ => ?_)
    | rfl
    | split
    | dsimp only
    | fail_if_no_progress with_reducible refine Keeps.mk_of ?_ ?_

theorem State.blockedBy_keeps {σ : State} {s : State} {c : Nat} {sof : W64} {id : Option W32} (hk : Keeps σ s) :
    Keeps σ (State.blockedBy s c sof id) := by
  unfold State.blockedBy
  repeat' first
    | with_reducible exact hk
    | with_reducible assumption
    | with_reducible apply State.modRt_keeps
    | with_reducible refine ite_keeps (fun _ => ?_) (fun _ => ?_)
    | rfl
    | split
    | dsimp only
    | fail_if_no_progress with_reducible refine Keeps.mk_of ?_ ?_

theorem State.armOne_keeps {σ : State} {s : State} {c : Nat} {d : Sched} {i : Nat} {x : W64} {back : Bool} (hk : Keeps σ s) :
    Keeps σ (State.armOne s c d i x back) := by
  unfold State.armOne
  repeat' first
    | with_reducible exact hk
    | with_reducible assumption
    | with_reducible apply State.axEvalAll_keeps
    | with_reducible apply State.checkBuffer_keeps
    | with_reducible apply State.countMiss_keeps
    | with_reducible apply State.displace_keeps
    | with_reducible apply State.modChan_keeps
    | with_reducible apply State.modObj_keeps
    | with_reducible apply State.modRt_keeps
    | with_reducible apply State.packNow_keeps
    | with_reducible apply State.prefetch_keeps
    | with_reducible apply State.raiseU_keeps
    | with_reducible apply State.schedPassed_keeps
    | with_reducible refine ite_keeps (fun _ => ?_) (fun _ => ?_)
    | rfl
    | split
    | dsimp only
    | fail_if_no_progress with_reducible refine Keeps.mk_of ?_ ?_

theorem State.schedArm_keeps {σ : State} {s : State} {c : Nat} {n' : Nat} (hk : Keeps σ s) :
    Keeps σ (State.schedArm s c n') := by
  induction n' generalizing s with
  | zero => exact hk
  | succ n' ih =>
    unfold State.schedArm
    repeat' first
    | with_reducible exact hk
    | with_reducible assumption
    | with_reducible apply ih
    | with_reducible apply State.armOne_keeps
    | with_reducible apply State.countMiss_keeps
    | with_reducible apply State.modRt_keeps
    | with_reducible apply State.schedPassed_keeps
    | rfl
    | split
    | dsimp only

theorem State.schedTick_keeps {σ : State} {s : State} {c : Nat} (hk : Keeps σ s) :
    Keeps σ (State.schedTick s c) := by
  unfold State.schedTick
  repeat' first
    | with_reducible exact hk
    | with_reducible assumption
    | with_reducible apply State.modRt_keeps
    | with_reducible apply State.schedArm_keeps
    | with_reducible apply State.schedExpire_keeps
    | with_reducible apply State.schedOldMisses_keeps
    | with_reducible apply State.schedUpdate_keeps
    | with_reducible refine ite_keeps (fun _ => ?_) (fun _ => ?_)
    | rfl
    | split
    | dsimp only
    | fail_if_no_progress with_reducible refine Keeps.mk_of ?_ ?_

theorem State.takeOff_keeps {σ : State} {s : State} {e : Nat} {w : TxWhat} {sched : Bool} {f : Frame} {sof : W64} (hk : Keeps σ s) :
    Keeps σ (State.takeOff s e w sched f sof) := by
  unfold State.takeOff
  repeat' first
    | with_reducible exact hk
    | with_reducible assumption
    | with_reducible apply State.modChan_keeps
    | with_reducible refine ite_keeps (fun _ => ?_) (fun _ => ?_)
    | rfl
    | split
    | dsimp only
    | fail_if_no_progress with_reducible refine Keeps.mk_of ?_ ?_

theorem State.fireFirst_keeps {σ : State} {s : State} {c : Nat} {d : Sched} {x : Armed} {sof : W64} {blocker : Option W32} (hk : Keeps σ s) :
    Keeps σ (State.fireFirst s c d x sof blocker) := by
  unfold State.fireFirst
  repeat' first
    | with_reducible exact hk
    | with_reducible assumption
    | with_reducible apply State.armedPassed_keeps
    | with_reducible apply State.fbExpect_keeps
    | with_reducible apply State.modObj_keeps
    | with_reducible apply State.modRt_keeps
    | with_reducible refine ite_keeps (fun _ => ?_) (fun _ => ?_)
    | rfl
    | split
    | dsimp only
    | fail_if_no_progress with_reducible refine Keeps.mk_of ?_ ?_

theorem State.flightDone_keeps {σ : State} {s : State} {c : Nat} {f : Frame} (hk : Keeps σ s) :
    Keeps σ (State.flightDone s c f) := by
  unfold State.flightDone
  repeat' first
    | with_reducible exact hk
    | with_reducible assumption
    | with_reducible apply State.modRt_keeps
    | rfl
    | split

theorem State.flightFail_keeps {σ : State} {s : State} {c : Nat} {again : Bool} (hk : Keeps σ s) :
    Keeps σ (State.flightFail s c again) := by
  unfold State.flightFail
  repeat' first
    | with_reducible exact hk
    | with_reducible assumption
    | with_reducible apply State.modRt_keeps

theorem State.schedClose_keeps {σ : State} {s : State} {c : Nat} {d : Sched} {n' : Nat} (hk : Keeps σ s) :
    Keeps σ (State.schedClose s c d n') := by
  induction n' generalizing s with
  | zero => exact hk
  | succ n' ih =>
    unfold State.schedClose
    repeat' first
    | with_reducible exact hk
    | with_reducible assumption
    | with_reducible apply ih
    | with_reducible apply State.schedPassed_keeps
    | with_reducible apply State.countMiss_keeps
    | with_reducible apply State.modRt_keeps
    | with_reducible refine ite_keeps (fun _ => ?_) (fun _ => ?_)
    | split
    | dsimp only

theorem State.switchSched_keeps {σ : State} {s : State} {c : Nat} {new : Option Sched} {b : Option W64} (hk : Keeps σ s) :
    Keeps σ (State.switchSched s c new b) := by
  unfold State.switchSched
  refine State.modChan_keeps ?_
  have h : ∀ p : Bool, Keeps σ (if p then s else s.disarm c) := fun p =>
    ite_keeps (fun _ => hk) fun _ => State.disarm_keeps hk
  cases (s.chan c).sched with
  | none => exact h _
  | some x => exact ite_keeps (fun _ => h _) fun _ => State.schedClose_keeps (h _)

theorem State.schedOpened_keeps {σ : State} {s : State} {c : Nat} (hk : Keeps σ s) :
    Keeps σ (State.schedOpened s c) := by
  unfold State.schedOpened
  repeat' first
    | with_reducible exact hk
    | with_reducible assumption
    | with_reducible apply State.disarm_keeps
    | with_reducible apply State.modRt_keeps
    | rfl
    | split

end Sys2Proof.Machine
end

