-- ==== Sys2Proof/Laws/KeepsChanBase.lean ====
section
/-! SUPPORT. What the operations of Machine/ChanBase.lean keep (see Laws/Keeps.lean). -/
namespace Sys2Proof.Machine

theorem State.modErr_keeps {σ : State} {s : State} {c : Nat} {f : ChErr → ChErr} (hk : Keeps σ s) :
    Keeps σ (State.modErr s c f) := by
  unfold State.modErr
  repeat' first
    | with_reducible exact hk
    | with_reducible assumption
    | with_reducible apply State.modChan_keeps

theorem State.modDiag_keeps {σ : State} {s : State} {c : Nat} {f : Diag → Diag} (hk : Keeps σ s) :
    Keeps σ (State.modDiag s c f) := by
  unfold State.modDiag
  repeat' first
    | with_reducible exact hk
    | with_reducible assumption
    | with_reducible apply State.modChan_keeps

theorem State.modStat_keeps {σ : State} {s : State} {c : Nat} {f : ChStat → ChStat} (hk : Keeps σ s) :
    Keeps σ (State.modStat s c f) := by
  unfold State.modStat
  repeat' first
    | with_reducible exact hk
    | with_reducible assumption
    | with_reducible apply State.modChan_keeps

theorem State.chanEvent_keeps {σ : State} {s : State} {c ty : Nat} {payload : List Byte} (hk : Keeps σ s) :
    Keeps σ (State.chanEvent s c ty payload) := by
  unfold State.chanEvent
  repeat' first
    | with_reducible exact hk
    | with_reducible assumption
    | with_reducible apply State.event_keeps

theorem State.errEvent_keeps {σ : State} {s : State} {c : Nat} {old : ErrSt} (hk : Keeps σ s) :
    Keeps σ (State.errEvent s c old) := by
  unfold State.errEvent
  repeat' first
    | with_reducible exact hk
    | with_reducible assumption
    | with_reducible apply State.chanEvent_keeps

theorem State.errState_keeps {σ : State} {s : State} {c : Nat} {st : ErrSt} (hk : Keeps σ s) :
    Keeps σ (State.errState s c st) := by
  unfold State.errState
  repeat' first
    | with_reducible exact hk
    | with_reducible assumption
    | with_reducible apply State.errEvent_keeps
    | with_reducible apply State.modErr_keeps
    | with_reducible apply State.schedUpdate_keeps
    | rfl
    | split
    | dsimp only

theorem State.addCause_keeps {σ : State} {s : State} {c : Nat} {cause : Nat} (hk : Keeps σ s) :
    Keeps σ (State.addCause s c cause) := by
  unfold State.addCause
  repeat' first
    | with_reducible exact hk
    | with_reducible assumption
    | with_reducible apply State.displace_keeps
    | with_reducible apply State.modErr_keeps
    | with_reducible apply State.raiseU_keeps
    | with_reducible refine ite_keeps (fun _ => ?_) (fun _ => ?_)
    | rfl
    | split
    | dsimp only
    | fail_if_no_progress with_reducible refine Keeps.mk_of ?_ ?_

theorem State.enterBusOff_keeps {σ : State} {s : State} {c : Nat} (hk : Keeps σ s) :
    Keeps σ (State.enterBusOff s c) := by
  unfold State.enterBusOff
  repeat' first
    | with_reducible exact hk
    | with_reducible assumption
    | with_reducible apply State.addCause_keeps
    | with_reducible apply State.errState_keeps
    | with_reducible apply State.modDiag_keeps
    | with_reducible apply State.modErr_keeps
    | with_reducible apply State.raiseU_keeps
    | rfl
    | split
    | dsimp only

theorem State.setCounts_keeps {σ : State} {s : State} {c tec recv : Nat} (hk : Keeps σ s) :
    Keeps σ (State.setCounts s c tec recv) := by
  unfold State.setCounts
  repeat' first
    | with_reducible exact hk
    | with_reducible assumption
    | with_reducible apply State.enterBusOff_keeps
    | with_reducible apply State.errEvent_keeps
    | with_reducible apply State.errState_keeps
    | with_reducible apply State.modDiag_keeps
    | with_reducible apply State.modErr_keeps
    | with_reducible apply State.raiseU_keeps
    | rfl
    | split
    | dsimp only

theorem State.bumpCounts_keeps {σ : State} {s : State} {c : Nat} {f g : Nat → Nat} (hk : Keeps σ s) :
    Keeps σ (State.bumpCounts s c f g) := by
  unfold State.bumpCounts
  repeat' first
    | with_reducible exact hk
    | with_reducible assumption
    | with_reducible apply State.setCounts_keeps
    | rfl
    | split
    | dsimp only

theorem State.loneEvent_keeps {σ : State} {s : State} {c entered : Nat} (hk : Keeps σ s) :
    Keeps σ (State.loneEvent s c entered) := by
  unfold State.loneEvent
  repeat' first
    | with_reducible exact hk
    | with_reducible assumption
    | with_reducible apply State.chanEvent_keeps

theorem State.loneDrop_keeps {σ : State} {s : State} {c : Nat} (hk : Keeps σ s) :
    Keeps σ (State.loneDrop s c) := by
  unfold State.loneDrop
  repeat' first
    | with_reducible exact hk
    | with_reducible assumption
    | with_reducible apply State.condOff_keeps
    | with_reducible apply State.modErr_keeps
    | rfl
    | split

theorem State.heard_keeps {σ : State} {s : State} {c : Nat} (hk : Keeps σ s) :
    Keeps σ (State.heard s c) := by
  unfold State.heard
  repeat' first
    | with_reducible exact hk
    | with_reducible assumption
    | with_reducible apply State.loneDrop_keeps
    | with_reducible apply State.loneEvent_keeps
    | with_reducible apply State.modErr_keeps
    | with_reducible apply State.refill_keeps
    | with_reducible apply State.settle_keeps
    | rfl
    | split
    | dsimp only

theorem State.endAttempt_keeps {σ : State} {s : State} {e : Nat} {w : TxWhat} (hk : Keeps σ s) :
    Keeps σ (State.endAttempt s e w) := by
  unfold State.endAttempt
  repeat' first
    | with_reducible exact hk
    | with_reducible assumption
    | with_reducible apply State.modChan_keeps
    | with_reducible refine ite_keeps (fun _ => ?_) (fun _ => ?_)
    | rfl
    | split
    | dsimp only
    | fail_if_no_progress with_reducible refine Keeps.mk_of ?_ ?_

theorem State.oneshotFail_keeps {σ : State} {s : State} {c o cause : Nat} {sof : W64} (hk : Keeps σ s) :
    Keeps σ (State.oneshotFail s c o cause sof) := by
  unfold State.oneshotFail
  repeat' first
    | with_reducible exact hk
    | with_reducible assumption
    | with_reducible apply State.chanEvent_keeps
    | with_reducible apply State.modObj_keeps
    | with_reducible apply State.modStat_keeps

theorem State.countNoack_keeps {σ : State} {s : State} {e : Nat} (hk : Keeps σ s) :
    Keeps σ (State.countNoack s e) := by
  unfold State.countNoack
  repeat' first
    | with_reducible exact hk
    | with_reducible assumption
    | with_reducible apply State.modDiag_keeps

theorem State.attemptFail_keeps {σ : State} {s : State} {e : Nat} {w : TxWhat} {cause : Nat} {sof : W64} (hk : Keeps σ s) :
    Keeps σ (State.attemptFail s e w cause sof) := by
  unfold State.attemptFail
  repeat' first
    | with_reducible exact hk
    | with_reducible assumption
    | with_reducible apply State.countNoack_keeps
    | with_reducible apply State.endAttempt_keeps
    | with_reducible apply State.endRequest_keeps
    | with_reducible apply State.flightFail_keeps
    | with_reducible apply State.modObj_keeps
    | with_reducible apply State.modRt_keeps
    | with_reducible apply State.oneshotFail_keeps
    | with_reducible apply State.refill_keeps
    | with_reducible refine ite_keeps (fun _ => ?_) (fun _ => ?_)
    | rfl
    | split
    | dsimp only
    | fail_if_no_progress with_reducible refine Keeps.mk_of ?_ ?_

theorem State.collideCount_keeps {σ : State} {s : State} {e : Nat} {c : Nat} {o : Nat} {fr : Frame} {kind : ErrKind} {f : Field} (hk : Keeps σ s) :
    Keeps σ (State.collideCount s e c o fr kind f) := by
  unfold State.collideCount
  repeat' first
    | with_reducible exact hk
    | with_reducible assumption
    | with_reducible apply State.chanEvent_keeps
    | with_reducible apply State.modDiag_keeps
    | with_reducible apply State.modObj_keeps
    | with_reducible apply State.raiseU_keeps
    | with_reducible refine ite_keeps (fun _ => ?_) (fun _ => ?_)
    | rfl
    | split
    | dsimp only
    | fail_if_no_progress with_reducible refine Keeps.mk_of ?_ ?_

theorem State.pinsIdle_keeps {σ : State} {s : State} {c : Nat} (hk : Keeps σ s) :
    Keeps σ (State.pinsIdle s c) := by
  unfold State.pinsIdle
  repeat' first
    | with_reducible exact hk
    | with_reducible assumption
    | with_reducible apply State.modChan_keeps
    | with_reducible refine ite_keeps (fun _ => ?_) (fun _ => ?_)
    | rfl
    | split
    | dsimp only
    | fail_if_no_progress with_reducible refine Keeps.mk_of ?_ ?_

theorem State.dropRequests_keeps {σ : State} {s : State} {c : Nat} {count : Bool} (hk : Keeps σ s) :
    Keeps σ (State.dropRequests s c count) := by
  unfold State.dropRequests
  repeat' first
    | with_reducible exact hk
    | with_reducible assumption
    | with_reducible apply State.discardRequest_keeps
    | (with_reducible refine foldl_keeps ?_ ?_; intro _ _ _)

theorem State.dropRelease_keeps {σ : State} {s : State} {c : Nat} (hk : Keeps σ s) :
    Keeps σ (State.dropRelease s c) := by
  unfold State.dropRelease
  repeat' first
    | with_reducible exact hk
    | with_reducible assumption
    | with_reducible apply State.modChan_keeps
    | with_reducible apply State.withdraw_keeps
    | with_reducible refine ite_keeps (fun _ => ?_) (fun _ => ?_)
    | rfl
    | split
    | dsimp only
    | fail_if_no_progress with_reducible refine Keeps.mk_of ?_ ?_

theorem State.stopEngine_keeps {σ : State} {s : State} {c : Nat} (hk : Keeps σ s) :
    Keeps σ (State.stopEngine s c) := by
  unfold State.stopEngine
  repeat' first
    | with_reducible exact hk
    | with_reducible assumption
    | with_reducible apply State.displace_keeps
    | with_reducible apply State.loneDrop_keeps
    | with_reducible apply State.modChan_keeps
    | with_reducible refine ite_keeps (fun _ => ?_) (fun _ => ?_)
    | rfl
    | split
    | dsimp only
    | fail_if_no_progress with_reducible refine Keeps.mk_of ?_ ?_

theorem State.wantRelease_keeps {σ : State} {s : State} {c : Nat} {m : ChMode} {origin : Nat} (hk : Keeps σ s) :
    Keeps σ (State.wantRelease s c m origin) := by
  unfold State.wantRelease
  repeat' first
    | with_reducible exact hk
    | with_reducible assumption
    | with_reducible apply State.enqueue_keeps
    | with_reducible apply State.modChan_keeps
    | rfl
    | split

theorem State.openDone_keeps {σ : State} {s : State} {c : Nat} {m : ChMode} {origin : Nat} (hk : Keeps σ s) :
    Keeps σ (State.openDone s c m origin) := by
  unfold State.openDone
  repeat' first
    | with_reducible exact hk
    | with_reducible assumption
    | with_reducible apply State.chanEvent_keeps
    | with_reducible apply State.errEvent_keeps
    | with_reducible apply State.modChan_keeps
    | with_reducible apply State.opened_keeps
    | with_reducible apply State.refill_keeps
    | with_reducible apply State.ring_keeps
    | with_reducible apply State.schedOpened_keeps
    | with_reducible apply State.schedUpdate_keeps
    | with_reducible apply State.settle_keeps
    | with_reducible refine ite_keeps (fun _ => ?_) (fun _ => ?_)
    | rfl
    | split
    | dsimp only
    | fail_if_no_progress with_reducible refine Keeps.mk_of ?_ ?_

theorem State.opened_keeps {σ : State} {s : State} {c : Nat} (hk : Keeps σ s) :
    Keeps σ (State.opened s c) := by
  unfold State.opened
  repeat' first
    | with_reducible exact hk
    | with_reducible assumption
    | with_reducible apply State.finish_keeps
    | with_reducible apply State.openDone_keeps
    | rfl
    | split

theorem State.retireMark_keeps {σ : State} {s : State} {c : Nat} {cause : Nat} {hand : Bool} (hk : Keeps σ s) :
    Keeps σ (State.retireMark s c cause hand) := by
  unfold State.retireMark
  repeat' first
    | with_reducible exact hk
    | with_reducible assumption
    | with_reducible apply State.dropRelease_keeps
    | with_reducible apply State.modChan_keeps
    | with_reducible apply State.pinsIdle_keeps
    | with_reducible apply State.stopEngine_keeps
    | with_reducible refine ite_keeps (fun _ => ?_) (fun _ => ?_)
    | rfl
    | split
    | dsimp only
    | fail_if_no_progress with_reducible refine Keeps.mk_of ?_ ?_

theorem State.retireEnd_keeps {σ : State} {s old : State} {c code : Nat} (hk : Keeps σ s) :
    Keeps σ (State.retireEnd s old c code) := by
  unfold State.retireEnd
  repeat' first
    | with_reducible exact hk
    | with_reducible assumption
    | with_reducible apply State.dropRequests_keeps
    | with_reducible apply State.modErr_keeps
    | with_reducible apply State.schedUpdate_keeps
    | with_reducible apply State.settle_keeps
    | rfl
    | split

theorem State.retireNow_keeps {σ : State} {s : State} {c : Nat} (hk : Keeps σ s) :
    Keeps σ (State.retireNow s c) := by
  unfold State.retireNow
  repeat' first
    | with_reducible exact hk
    | with_reducible assumption
    | with_reducible apply State.event_keeps
    | with_reducible apply State.finish_keeps
    | with_reducible apply State.modErr_keeps
    | with_reducible apply State.opened_keeps
    | with_reducible apply State.raiseU_keeps
    | with_reducible apply State.retireEnd_keeps
    | with_reducible apply State.retireMark_keeps
    | with_reducible refine ite_keeps (fun _ => ?_) (fun _ => ?_)
    | (with_reducible refine foldl_keeps ?_ ?_; intro _ _ _)
    | rfl
    | split
    | dsimp only
    | fail_if_no_progress with_reducible refine Keeps.mk_of ?_ ?_

theorem State.handover_keeps {σ : State} {s : State} {c : Nat} {force : Bool} (hk : Keeps σ s) :
    Keeps σ (State.handover s c force) := by
  unfold State.handover
  repeat' first
    | with_reducible exact hk
    | with_reducible assumption
    | with_reducible apply State.dropRequests_keeps
    | with_reducible apply State.event_keeps
    | with_reducible apply State.modChan_keeps
    | with_reducible apply State.modErr_keeps
    | with_reducible apply State.opened_keeps
    | with_reducible apply State.refill_keeps
    | with_reducible apply State.schedExpire_keeps
    | with_reducible apply State.schedUpdate_keeps
    | with_reducible apply State.settleObjs_keeps
    | with_reducible refine ite_keeps (fun _ => ?_) (fun _ => ?_)
    | rfl
    | split
    | dsimp only
    | fail_if_no_progress with_reducible refine Keeps.mk_of ?_ ?_

theorem State.handBack_keeps {σ : State} {s : State} {c : Nat} (hk : Keeps σ s) :
    Keeps σ (State.handBack s c) := by
  unfold State.handBack
  repeat' first
    | with_reducible exact hk
    | with_reducible assumption
    | with_reducible apply State.displace_keeps
    | with_reducible apply State.event_keeps
    | with_reducible apply State.modChan_keeps
    | with_reducible apply State.modErr_keeps
    | with_reducible apply State.refill_keeps
    | with_reducible apply State.schedUpdate_keeps
    | with_reducible apply State.settleObjs_keeps
    | with_reducible refine ite_keeps (fun _ => ?_) (fun _ => ?_)
    | rfl
    | split
    | dsimp only
    | fail_if_no_progress with_reducible refine Keeps.mk_of ?_ ?_

end Sys2Proof.Machine
end

