-- ==== Sys2Proof/Laws/KeepsChannels.lean ====
section
/-! SUPPORT. What the operations of Machine/Channels.lean keep (see Laws/Keeps.lean). -/
namespace Sys2Proof.Machine

theorem State.closeChan_keeps {σ : State} {s : State} {c : Nat} (hk : Keeps σ s) :
    Keeps σ (State.closeChan s c) := by
  unfold State.closeChan
  repeat' first
    | with_reducible exact hk
    | with_reducible assumption
    | with_reducible apply State.dropRelease_keeps
    | with_reducible apply State.dropRequests_keeps
    | with_reducible apply State.modChan_keeps
    | with_reducible apply State.pinsIdle_keeps
    | with_reducible apply State.schedUpdate_keeps
    | with_reducible apply State.settle_keeps
    | with_reducible apply State.stopEngine_keeps
    | rfl
    | split

theorem State.collideClear_keeps {σ : State} {s : State} {c o : Nat} (hk : Keeps σ s) :
    Keeps σ (State.collideClear s c o) := by
  unfold State.collideClear
  repeat' first
    | with_reducible exact hk
    | with_reducible assumption
    | with_reducible apply State.modObj_keeps

end Sys2Proof.Machine
end

