-- ==== Sys2Proof/Laws/KeepsQueues.lean ====
section
/-! SUPPORT. What the operations of Machine/Queues.lean keep (see Laws/Keeps.lean). -/
namespace Sys2Proof.Machine

theorem State.flush_keeps {σ : State} {s : State} {q : Nat} {origin : Nat} {reset : Bool} (hk : Keeps σ s) :
    Keeps σ (State.flush s q origin reset) := by
  unfold State.flush
  repeat' first
    | with_reducible exact hk
    | with_reducible assumption
    | with_reducible apply State.event_keeps
    | with_reducible apply State.modQueue_keeps
    | with_reducible apply State.refreshPage_keeps
    | with_reducible apply State.storeWrite_keeps
    | with_reducible refine State.modPart_keeps ?_ (fun _ => rfl) (fun _ => rfl) (fun _ => rfl)
    | with_reducible refine ite_keeps (fun _ => ?_) (fun _ => ?_)
    | rfl
    | split
    | dsimp only
    | fail_if_no_progress with_reducible refine Keeps.mk_of ?_ ?_

theorem State.ringH2d_keeps {σ : State} {s : State} {p : Nat} {q : Nat} (hk : Keeps σ s) :
    Keeps σ (State.ringH2d s p q) := by
  unfold State.ringH2d
  repeat' first
    | with_reducible exact hk
    | with_reducible assumption
    | with_reducible apply State.countIgnored_keeps
    | with_reducible apply State.modQueue_keeps
    | with_reducible refine ite_keeps (fun _ => ?_) (fun _ => ?_)
    | rfl
    | split
    | dsimp only
    | fail_if_no_progress with_reducible refine Keeps.mk_of ?_ ?_

theorem State.ringD2h_keeps {σ : State} {s : State} {p : Nat} {q : Nat} (hk : Keeps σ s) :
    Keeps σ (State.ringD2h s p q) := by
  unfold State.ringD2h
  repeat' first
    | with_reducible exact hk
    | with_reducible assumption
    | with_reducible apply State.countIgnored_keeps
    | with_reducible apply State.fire_keeps
    | with_reducible apply State.modQueue_keeps
    | with_reducible refine ite_keeps (fun _ => ?_) (fun _ => ?_)
    | rfl
    | split
    | dsimp only
    | fail_if_no_progress with_reducible refine Keeps.mk_of ?_ ?_

theorem State.ring_keeps {σ : State} {s : State} {p q : Nat} {d2h : Bool} (hk : Keeps σ s) :
    Keeps σ (State.ring s p q d2h) := by
  unfold State.ring
  repeat' first
    | with_reducible exact hk
    | with_reducible assumption
    | with_reducible apply State.countIgnored_keeps
    | with_reducible apply State.ringD2h_keeps
    | with_reducible apply State.ringH2d_keeps
    | rfl
    | split

end Sys2Proof.Machine
end

