-- ==== Sys2Proof/Laws/KeepsStore.lean ====
section
/-! SUPPORT. What the operations of Machine/Store.lean keep (see Laws/Keeps.lean). -/
namespace Sys2Proof.Machine

theorem State.swapRow_keeps {σ : State} {s : State} {row : Nat} (hk : Keeps σ s) :
    Keeps σ (State.swapRow s row) := by
  unfold State.swapRow
  repeat' first
    | with_reducible exact hk
    | with_reducible assumption
    | with_reducible apply State.raise_keeps
    | rfl
    | split
    | dsimp only
    | fail_if_no_progress with_reducible refine Keeps.mk_of ?_ ?_

theorem State.correctedError_keeps {σ : State} {s : State} {lane : Nat} (hk : Keeps σ s) :
    Keeps σ (State.correctedError s lane) := by
  unfold State.correctedError
  repeat' first
    | with_reducible exact hk
    | with_reducible assumption
    | with_reducible apply State.raise_keeps
    | rfl
    | split
    | dsimp only
    | fail_if_no_progress with_reducible refine Keeps.mk_of ?_ ?_

theorem State.loseSection_keeps {σ : State} {s : State} {c : Nat} (hk : Keeps σ s) :
    Keeps σ (State.loseSection s c) := by
  unfold State.loseSection
  repeat' first
    | with_reducible exact hk
    | with_reducible assumption
    | with_reducible apply State.disarm_keeps
    | with_reducible apply State.modChan_keeps

theorem State.loseEntry_keeps {σ : State} {s : State} {lane : Nat} (hk : Keeps σ s) :
    Keeps σ (State.loseEntry s lane) := by
  unfold State.loseEntry
  repeat' first
    | with_reducible exact hk
    | with_reducible assumption
    | with_reducible apply State.axSwitch_keeps
    | with_reducible apply State.loseSection_keeps
    | with_reducible apply State.modChan_keeps
    | with_reducible apply State.raiseU_keeps
    | with_reducible apply State.setPar_keeps
    | with_reducible refine ite_keeps (fun _ => ?_) (fun _ => ?_)
    | rfl
    | split
    | dsimp only
    | fail_if_no_progress with_reducible refine Keeps.mk_of ?_ ?_

theorem State.uncorrectableError_keeps {σ : State} {s : State} {lane : Nat} (hk : Keeps σ s) :
    Keeps σ (State.uncorrectableError s lane) := by
  unfold State.uncorrectableError
  repeat' first
    | with_reducible exact hk
    | with_reducible assumption
    | with_reducible apply State.loseEntry_keeps
    | with_reducible apply State.raise_keeps
    | with_reducible apply State.raiseU_keeps
    | with_reducible apply State.swapRow_keeps
    | rfl
    | split
    | dsimp only
    | fail_if_no_progress with_reducible refine Keeps.mk_of ?_ ?_

theorem State.parityError_keeps {σ : State} {s : State} {detail : Nat} (hk : Keeps σ s) :
    Keeps σ (State.parityError s detail) := by
  unfold State.parityError
  repeat' first
    | with_reducible exact hk
    | with_reducible assumption
    | with_reducible apply State.loseEntry_keeps
    | with_reducible refine ite_keeps (fun _ => ?_) (fun _ => ?_)
    | rfl
    | split
    | dsimp only
    | fail_if_no_progress with_reducible refine Keeps.mk_of ?_ ?_

theorem State.laneError_keeps {σ : State} {s : State} {e : LaneError} (hk : Keeps σ s) :
    Keeps σ (State.laneError s e) := by
  unfold State.laneError
  repeat' first
    | with_reducible exact hk
    | with_reducible assumption
    | with_reducible apply State.correctedError_keeps
    | with_reducible apply State.uncorrectableError_keeps
    | rfl
    | split

end Sys2Proof.Machine
end

