-- ==== Sys2Proof/Laws/KeepsEpoch.lean ====
section
/-! SUPPORT. What the operations of Machine/Epoch.lean keep (see Laws/Keeps.lean). -/
namespace Sys2Proof.Machine

theorem State.supersede_keeps {σ : State} {s : State} {c subject : Nat} {old : Int} {move : Option (Int × Bool)} (hk : Keeps σ s) :
    Keeps σ (State.supersede s c subject old move) := by
  unfold State.supersede
  repeat' first
    | with_reducible exact hk
    | with_reducible assumption
    | with_reducible apply State.noteDecision_keeps
    | rfl
    | split

theorem State.switchTiming_keeps {σ : State} {s : State} {old : State} {c : Nat} (hk : Keeps σ s) :
    Keeps σ (State.switchTiming s old c) := by
  unfold State.switchTiming
  repeat' first
    | with_reducible exact hk
    | with_reducible assumption
    | with_reducible apply State.modChan_keeps
    | with_reducible apply State.opened_keeps
    | with_reducible apply State.supersede_keeps
    | with_reducible refine ite_keeps (fun _ => ?_) (fun _ => ?_)
    | rfl
    | split
    | dsimp only
    | fail_if_no_progress with_reducible refine Keeps.mk_of ?_ ?_

theorem State.switchStage_keeps {σ : State} {s : State} {g : Stage} {b : Option W64} (hk : Keeps σ s) :
    Keeps σ (State.switchStage s g b) := by
  unfold State.switchStage
  refine foldl_keeps (fun _ _ h => State.loseEntry_keeps h) (State.swapRoles_keeps ?_)
  refine foldl_keeps (fun _ _ h => State.refill_keeps (State.schedUpdate_keeps h)) ?_
  refine foldl_keeps (fun _ _ h => ite_keeps (fun _ => h) fun _ => State.modSync_keeps h) ?_
  refine foldl_keeps (fun _ _ h => State.switchTiming_keeps h) ?_
  refine foldl_keeps (fun _ _ h => State.axSwitch_keeps h) ?_
  refine foldl_keeps (fun _ _ h => State.settleObjs_keeps h) ?_
  refine foldl_keeps (fun _ _ h => State.switchObj_keeps h) ?_
  refine foldl_keeps (fun _ _ h => State.switchSched_keeps h) ?_
  have base : Keeps σ ((g.rules.foldl (fun (u : State) x => u.modChan x.1 fun ch => { ch with rules := x.2 })
      (g.params.foldl (fun (u : State) kv => u.setPar (kv.1 / 0x100000) (kv.1 % 0x100000) kv.2) s))) :=
    foldl_keeps (fun _ _ h => State.modChan_keeps h) (foldl_keeps (fun _ _ h => State.setPar_keeps h) hk)
  exact ite_keeps (fun _ => base) fun _ => State.switchSigs_keeps base

theorem State.rebalance_keeps {σ : State} {s : State} {c : Nat} (hk : Keeps σ s) :
    Keeps σ (State.rebalance s c) := by
  unfold State.rebalance
  repeat' first
    | with_reducible exact hk
    | with_reducible assumption
    | with_reducible apply State.modChan_keeps
    | with_reducible refine ite_keeps (fun _ => ?_) (fun _ => ?_)
    | (with_reducible refine foldl_keeps ?_ ?_; intro _ _ _)
    | (with_reducible refine foldl_fst_keeps ?_ ?_; intro _ _ _)
    | rfl
    | split
    | dsimp only
    | fail_if_no_progress with_reducible refine Keeps.mk_of ?_ ?_

theorem State.switchCommit_keeps {σ : State} {s : State} {k : Commit} (hk : Keeps σ s) :
    Keeps σ (State.switchCommit s k) := by
  unfold State.switchCommit
  repeat' first
    | with_reducible exact hk
    | with_reducible assumption
    | with_reducible apply State.event_keeps
    | with_reducible apply State.handover_keeps
    | with_reducible apply State.rebalance_keeps
    | with_reducible apply State.switchStage_keeps
    | with_reducible refine State.modPart_keeps ?_ (fun _ => rfl) (fun _ => rfl) (fun _ => rfl)
    | with_reducible refine ite_keeps (fun _ => ?_) (fun _ => ?_)
    | (with_reducible refine foldl_keeps ?_ ?_; intro _ _ _)
    | rfl
    | split
    | dsimp only
    | fail_if_no_progress with_reducible refine Keeps.mk_of ?_ ?_

theorem State.seekAll_keeps {σ : State} {s : State} (hk : Keeps σ s) :
    Keeps σ (State.seekAll s) := by
  unfold State.seekAll
  repeat' first
    | with_reducible exact hk
    | with_reducible assumption
    | rfl
    | split
    | dsimp only
    | fail_if_no_progress with_reducible refine Keeps.mk_of ?_ ?_

theorem State.switchIf_keeps {σ : State} {s : State} {id : W32} (hk : Keeps σ s) :
    Keeps σ (State.switchIf s id) := by
  unfold State.switchIf
  repeat' first
    | with_reducible exact hk
    | with_reducible assumption
    | with_reducible apply State.switchCommit_keeps
    | rfl
    | split

theorem State.switchAll_keeps {σ : State} {s : State} (hk : Keeps σ s) :
    Keeps σ (State.switchAll s) := by
  unfold State.switchAll
  repeat' first
    | with_reducible exact hk
    | with_reducible assumption
    | with_reducible apply State.seekAll_keeps
    | with_reducible apply State.switchIf_keeps
    | (with_reducible refine foldl_keeps ?_ ?_; intro _ _ _)

end Sys2Proof.Machine
end

