-- ==== Sys2Proof/Laws/KeepsCoords.lean ====
section
/-! SUPPORT. What the operations of Machine/Coords.lean keep (see Laws/Keeps.lean). -/
namespace Sys2Proof.Machine

theorem State.lcFix_keeps {σ : State} {s : State} {n : Nat} (hk : Keeps σ s) :
    Keeps σ (State.lcFix s n) := by
  unfold State.lcFix
  repeat' first
    | with_reducible exact hk
    | with_reducible assumption
    | with_reducible apply State.modLc_keeps

theorem State.lcRecord_keeps {σ : State} {s : State} {n : Nat} (hk : Keeps σ s) :
    Keeps σ (State.lcRecord s n) := by
  unfold State.lcRecord
  repeat' first
    | with_reducible exact hk
    | with_reducible assumption
    | with_reducible apply State.modLc_keeps

theorem State.lcScheds_keeps {σ : State} {s : State} {n : Nat} (hk : Keeps σ s) :
    Keeps σ (State.lcScheds s n) := by
  unfold State.lcScheds
  repeat' first
    | with_reducible exact hk
    | with_reducible assumption
    | with_reducible apply State.schedUpdate_keeps
    | (with_reducible refine foldl_keeps ?_ ?_; intro _ _ _)
    | rfl
    | split

theorem State.lcTurn_keeps {σ : State} {s : State} {n : Nat} (hk : Keeps σ s) :
    Keeps σ (State.lcTurn s n) := by
  unfold State.lcTurn
  repeat' first
    | with_reducible exact hk
    | with_reducible assumption
    | with_reducible apply State.modLc_keeps
    | with_reducible apply State.schedTurn_keeps
    | rfl
    | split
    | dsimp only

theorem State.lcSpeed_keeps {σ : State} {s : State} {n : Nat} (hk : Keeps σ s) :
    Keeps σ (State.lcSpeed s n) := by
  unfold State.lcSpeed
  repeat' first
    | with_reducible exact hk
    | with_reducible assumption
    | with_reducible apply State.condOff_keeps
    | with_reducible apply State.condOn_keeps
    | with_reducible apply State.raiseU_keeps
    | with_reducible refine ite_keeps (fun _ => ?_) (fun _ => ?_)

theorem State.syncRearm_keeps {σ : State} {s : State} {i : Nat} (hk : Keeps σ s) :
    Keeps σ (State.syncRearm s i) := by
  unfold State.syncRearm
  repeat' first
    | with_reducible exact hk
    | with_reducible assumption
    | with_reducible apply State.modSync_keeps

theorem State.lcMoved_keeps {σ : State} {s : State} {n : Nat} {old : W64} (hk : Keeps σ s) :
    Keeps σ (State.lcMoved s n old) := by
  unfold State.lcMoved
  repeat' first
    | with_reducible exact hk
    | with_reducible assumption
    | with_reducible apply State.lcRecord_keeps
    | with_reducible apply State.lcSpeed_keeps
    | with_reducible apply State.lcTurn_keeps
    | with_reducible apply State.logWrap_keeps
    | with_reducible apply State.syncRearm_keeps
    | with_reducible refine ite_keeps (fun _ => ?_) (fun _ => ?_)
    | (with_reducible refine foldl_keeps ?_ ?_; intro _ _ _)

theorem State.lcPut_keeps {σ : State} {s : State} {n : Nat} {v : W64} (hk : Keeps σ s) :
    Keeps σ (State.lcPut s n v) := by
  unfold State.lcPut
  repeat' first
    | with_reducible exact hk
    | with_reducible assumption
    | with_reducible apply State.lcRecord_keeps
    | with_reducible apply State.modLc_keeps
    | with_reducible apply State.schedTurn_keeps

theorem State.lcBegin_keeps {σ : State} {s : State} {n : Nat} {d : Int} (hk : Keeps σ s) :
    Keeps σ (State.lcBegin s n d) := by
  unfold State.lcBegin
  repeat' first
    | with_reducible exact hk
    | with_reducible assumption
    | with_reducible apply State.modLc_keeps

theorem State.lcBlend_keeps {σ : State} {s : State} {n : Nat} {target : W64} (hk : Keeps σ s) :
    Keeps σ (State.lcBlend s n target) := by
  unfold State.lcBlend
  repeat' first
    | with_reducible exact hk
    | with_reducible assumption
    | with_reducible apply State.lcBegin_keeps
    | with_reducible apply State.lcFix_keeps

theorem State.lcTrack_keeps {σ : State} {s : State} {n : Nat} (hk : Keeps σ s) :
    Keeps σ (State.lcTrack s n) := by
  unfold State.lcTrack
  repeat' first
    | with_reducible exact hk
    | with_reducible assumption
    | with_reducible apply State.lcRecord_keeps
    | with_reducible apply State.lcScheds_keeps
    | with_reducible apply State.modLc_keeps

theorem State.lcHold_keeps {σ : State} {s : State} {n : Nat} (hk : Keeps σ s) :
    Keeps σ (State.lcHold s n) := by
  unfold State.lcHold
  repeat' first
    | with_reducible exact hk
    | with_reducible assumption
    | with_reducible apply State.lcFix_keeps
    | with_reducible apply State.lcRecord_keeps
    | with_reducible apply State.lcScheds_keeps
    | with_reducible apply State.modLc_keeps

theorem State.lcFreeze_keeps {σ : State} {s : State} {n : Nat} {st : LcState} (hk : Keeps σ s) :
    Keeps σ (State.lcFreeze s n st) := by
  unfold State.lcFreeze
  repeat' first
    | with_reducible exact hk
    | with_reducible assumption
    | with_reducible apply State.condOff_keeps
    | with_reducible apply State.lcRecord_keeps
    | with_reducible apply State.lcScheds_keeps
    | with_reducible apply State.modLc_keeps

theorem State.lcLose_keeps {σ : State} {s : State} {n : Nat} (hk : Keeps σ s) :
    Keeps σ (State.lcLose s n) := by
  unfold State.lcLose
  repeat' first
    | with_reducible exact hk
    | with_reducible assumption
    | with_reducible apply State.condOn_keeps
    | with_reducible apply State.lcFreeze_keeps
    | with_reducible apply State.raiseU_keeps

theorem State.lcAcquire_keeps {σ : State} {s : State} {n : Nat} (hk : Keeps σ s) :
    Keeps σ (State.lcAcquire s n) := by
  unfold State.lcAcquire
  repeat' first
    | with_reducible exact hk
    | with_reducible assumption
    | with_reducible apply State.condOff_keeps
    | with_reducible apply State.lcRecord_keeps
    | with_reducible apply State.lcScheds_keeps
    | with_reducible apply State.modLc_keeps

theorem State.lcErr_keeps {σ : State} {s : State} {n : Nat} (hk : Keeps σ s) :
    Keeps σ (State.lcErr s n) := by
  unfold State.lcErr
  repeat' first
    | with_reducible exact hk
    | with_reducible assumption
    | with_reducible apply State.modLc_keeps

theorem State.lcReady_keeps {σ : State} {s : State} {n : Nat} (hk : Keeps σ s) :
    Keeps σ (State.lcReady s n) := by
  unfold State.lcReady
  repeat' first
    | with_reducible exact hk
    | with_reducible assumption
    | with_reducible apply State.lcTrack_keeps
    | with_reducible refine ite_keeps (fun _ => ?_) (fun _ => ?_)

theorem State.incCount_keeps {σ : State} {s : State} {n : Nat} {e : EncEdge} (hk : Keeps σ s) :
    Keeps σ (State.incCount s n e) := by
  unfold State.incCount
  repeat' first
    | with_reducible exact hk
    | with_reducible assumption
    | with_reducible apply State.modLc_keeps

theorem State.incError_keeps {σ : State} {s : State} {n : Nat} (hk : Keeps σ s) :
    Keeps σ (State.incError s n) := by
  unfold State.incError
  repeat' first
    | with_reducible exact hk
    | with_reducible assumption
    | with_reducible apply State.lcErr_keeps
    | with_reducible apply State.lcLose_keeps
    | with_reducible apply State.modLc_keeps
    | rfl
    | split
    | dsimp only

theorem State.indexMode_keeps {σ : State} {s : State} {n : Nat} (hk : Keeps σ s) :
    Keeps σ (State.indexMode s n) := by
  unfold State.indexMode
  repeat' first
    | with_reducible exact hk
    | with_reducible assumption
    | with_reducible apply State.lcPut_keeps
    | with_reducible apply State.modLc_keeps
    | with_reducible apply State.raiseU_keeps
    | with_reducible refine ite_keeps (fun _ => ?_) (fun _ => ?_)

theorem State.pulseEdge_keeps {σ : State} {s : State} {n : Nat} {set : Option W64} (hk : Keeps σ s) :
    Keeps σ (State.pulseEdge s n set) := by
  unfold State.pulseEdge
  repeat' first
    | with_reducible exact hk
    | with_reducible assumption
    | with_reducible apply State.lcBlend_keeps
    | with_reducible apply State.lcHold_keeps
    | with_reducible apply State.lcPut_keeps
    | with_reducible apply State.lcTrack_keeps
    | with_reducible apply State.modLc_keeps
    | with_reducible refine ite_keeps (fun _ => ?_) (fun _ => ?_)
    | rfl
    | split

theorem State.ssiInvalid_keeps {σ : State} {s : State} {n : Nat} {fast : Bool} (hk : Keeps σ s) :
    Keeps σ (State.ssiInvalid s n fast) := by
  unfold State.ssiInvalid
  repeat' first
    | with_reducible exact hk
    | with_reducible assumption
    | with_reducible apply State.lcErr_keeps
    | with_reducible apply State.lcHold_keeps
    | with_reducible apply State.modLc_keeps
    | with_reducible apply State.raiseU_keeps
    | with_reducible refine ite_keeps (fun _ => ?_) (fun _ => ?_)

theorem State.ssiTake_keeps {σ : State} {s : State} {n : Nat} {code : Nat} {r : SsiRead} (hk : Keeps σ s) :
    Keeps σ (State.ssiTake s n code r) := by
  unfold State.ssiTake
  repeat' first
    | with_reducible exact hk
    | with_reducible assumption
    | with_reducible apply State.lcBegin_keeps
    | with_reducible apply State.lcBlend_keeps
    | with_reducible apply State.lcFix_keeps
    | with_reducible apply State.lcMoved_keeps
    | with_reducible apply State.lcRecord_keeps
    | with_reducible apply State.lcTrack_keeps
    | with_reducible apply State.modLc_keeps
    | with_reducible refine ite_keeps (fun _ => ?_) (fun _ => ?_)
    | rfl
    | split
    | dsimp only

theorem State.telegram_keeps {σ : State} {s : State} {q : Nat} {bs : List Byte} (hk : Keeps σ s) :
    Keeps σ (State.telegram s q bs) := by
  unfold State.telegram
  repeat' first
    | with_reducible exact hk
    | with_reducible assumption
    | with_reducible apply State.lcBlend_keeps
    | with_reducible apply State.lcErr_keeps
    | with_reducible apply State.lcFix_keeps
    | with_reducible apply State.lcMoved_keeps
    | with_reducible apply State.lcPut_keeps
    | with_reducible apply State.lcRecord_keeps
    | with_reducible apply State.lcSpeed_keeps
    | with_reducible apply State.lcTrack_keeps
    | with_reducible apply State.modLc_keeps
    | with_reducible apply State.raiseU_keeps
    | with_reducible refine ite_keeps (fun _ => ?_) (fun _ => ?_)
    | rfl
    | split

theorem State.stepTime_keeps {σ : State} {s : State} (hk : Keeps σ s) :
    Keeps σ (State.stepTime s) := by
  unfold State.stepTime
  repeat' first
    | with_reducible exact hk
    | with_reducible assumption
    | with_reducible apply State.lcRecord_keeps
    | with_reducible refine ite_keeps (fun _ => ?_) (fun _ => ?_)
    | (with_reducible refine foldl_keeps ?_ ?_; intro _ _ _)
    | rfl
    | split
    | dsimp only
    | fail_if_no_progress with_reducible refine Keeps.mk_of ?_ ?_

theorem State.latchSets_keeps {σ : State} {s : State} {i : Nat} (hk : Keeps σ s) :
    Keeps σ (State.latchSets s i) := by
  unfold State.latchSets
  repeat' first
    | with_reducible exact hk
    | with_reducible assumption
    | with_reducible apply State.lcPut_keeps
    | with_reducible apply State.modLc_keeps
    | (with_reducible refine foldl_keeps ?_ ?_; intro _ _ _)
    | rfl
    | split

theorem State.latchDrain_keeps {σ : State} {s : State} {i : Nat} (hk : Keeps σ s) :
    Keeps σ (State.latchDrain s i) := by
  unfold State.latchDrain
  repeat' first
    | with_reducible exact hk
    | with_reducible assumption
    | with_reducible apply State.emit_keeps
    | with_reducible apply State.modLat_keeps
    | (with_reducible refine foldl_keeps ?_ ?_; intro _ _ _)

end Sys2Proof.Machine
end

