-- ==== Sys2Proof/Laws/KeepsPartition.lean ====
section
/-! SUPPORT. What the operations of Machine/Partition.lean keep (see Laws/Keeps.lean). -/
namespace Sys2Proof.Machine

theorem State.stopObjects_keeps {σ : State} {s : State} {c : Nat} (hk : Keeps σ s) :
    Keeps σ (State.stopObjects s c) := by
  unfold State.stopObjects
  repeat' first
    | with_reducible exact hk
    | with_reducible assumption
    | with_reducible apply State.dropRequests_keeps
    | with_reducible apply State.modObj_keeps
    | with_reducible apply State.schedHush_keeps
    | with_reducible refine ite_keeps (fun _ => ?_) (fun _ => ?_)
    | (with_reducible refine foldl_keeps ?_ ?_; intro _ _ _)
    | rfl
    | split
    | dsimp only
    | fail_if_no_progress with_reducible refine Keeps.mk_of ?_ ?_

theorem State.applyFallback_keeps {σ : State} {s : State} {p : Nat} {f : Fallback} (hk : Keeps σ s) :
    Keeps σ (State.applyFallback s p f) := by
  unfold State.applyFallback
  repeat' first
    | with_reducible exact hk
    | with_reducible assumption
    | with_reducible apply State.axFallback_keeps
    | with_reducible apply State.stopObjects_keeps
    | with_reducible refine State.modPart_keeps ?_ (fun _ => rfl) (fun _ => rfl) (fun _ => rfl)
    | (with_reducible refine foldl_keeps ?_ ?_; intro _ _ _)
    | rfl
    | split

theorem State.fallbackOver_keeps {σ : State} {s : State} {p : Nat} (hk : Keeps σ s) :
    Keeps σ (State.fallbackOver s p) := by
  unfold State.fallbackOver
  repeat' first
    | with_reducible exact hk
    | with_reducible assumption
    | with_reducible apply State.axFallbackOver_keeps
    | with_reducible refine State.modPart_keeps ?_ (fun _ => rfl) (fun _ => rfl) (fun _ => rfl)
    | with_reducible refine ite_keeps (fun _ => ?_) (fun _ => ?_)
    | rfl
    | split
    | dsimp only
    | fail_if_no_progress with_reducible refine Keeps.mk_of ?_ ?_

theorem State.handOverAll_keeps {σ : State} {s : State} {p q : Nat} (hk : Keeps σ s) :
    Keeps σ (State.handOverAll s p q) := by
  unfold State.handOverAll
  repeat' first
    | with_reducible exact hk
    | with_reducible assumption
    | with_reducible apply State.axFallback_keeps
    | with_reducible apply State.changeOwner_keeps
    | with_reducible apply State.modAxis_keeps
    | (with_reducible refine foldl_keeps ?_ ?_; intro _ _ _)

theorem State.postUpdate_keeps {σ : State} {s : State} {u : Update} (hk : Keeps σ s) :
    Keeps σ (State.postUpdate s u) := by
  unfold State.postUpdate
  repeat' first
    | with_reducible exact hk
    | with_reducible assumption
    | with_reducible apply State.ring_keeps
    | with_reducible refine ite_keeps (fun _ => ?_) (fun _ => ?_)
    | rfl
    | split
    | dsimp only
    | fail_if_no_progress with_reducible refine Keeps.mk_of ?_ ?_

theorem State.endFallback_keeps {σ : State} {s : State} {p : Nat} (hk : Keeps σ s) :
    Keeps σ (State.endFallback s p) := by
  unfold State.endFallback
  repeat' first
    | with_reducible exact hk
    | with_reducible assumption
    | with_reducible apply State.postUpdate_keeps
    | with_reducible apply State.ring_keeps
    | with_reducible refine ite_keeps (fun _ => ?_) (fun _ => ?_)
    | rfl
    | split
    | dsimp only

theorem State.handedOver_keeps {σ : State} {s : State} {p : Nat} {q : Nat} (hk : Keeps σ s) :
    Keeps σ (State.handedOver s p q) := by
  unfold State.handedOver
  repeat' first
    | with_reducible exact hk
    | with_reducible assumption
    | with_reducible apply State.event_keeps
    | with_reducible apply State.handOverAll_keeps
    | with_reducible refine ite_keeps (fun _ => ?_) (fun _ => ?_)
    | rfl
    | split
    | dsimp only

theorem State.fellBack_keeps {σ : State} {s : State} {p : Nat} {f : Fallback} (hk : Keeps σ s) :
    Keeps σ (State.fellBack s p f) := by
  unfold State.fellBack
  repeat' first
    | with_reducible exact hk
    | with_reducible assumption
    | with_reducible apply State.applyFallback_keeps
    | with_reducible apply State.event_keeps
    | with_reducible refine ite_keeps (fun _ => ?_) (fun _ => ?_)
    | rfl
    | split
    | dsimp only

theorem State.hbLeave_keeps {σ : State} {s : State} {p : Nat} (hk : Keeps σ s) :
    Keeps σ (State.hbLeave s p) := by
  unfold State.hbLeave
  repeat' first
    | with_reducible exact hk
    | with_reducible assumption
    | with_reducible apply State.condOff_keeps

theorem State.hbArm_keeps {σ : State} {s : State} {p : Nat} (hk : Keeps σ s) :
    Keeps σ (State.hbArm s p) := by
  unfold State.hbArm
  repeat' first
    | with_reducible exact hk
    | with_reducible assumption
    | with_reducible apply State.endFallback_keeps
    | with_reducible apply State.hbLeave_keeps
    | with_reducible refine State.modPart_keeps ?_ (fun _ => rfl) (fun _ => rfl) (fun _ => rfl)
    | rfl
    | split

theorem State.startReset_keeps {σ : State} {s : State} {p : Nat} {origin : Nat} (hk : Keeps σ s) :
    Keeps σ (State.startReset s p origin) := by
  unfold State.startReset
  repeat' first
    | with_reducible exact hk
    | with_reducible assumption
    | with_reducible apply State.postUpdate_keeps
    | with_reducible refine State.modPart_keeps ?_ (fun _ => rfl) (fun _ => rfl) (fun _ => rfl)
    | with_reducible refine ite_keeps (fun _ => ?_) (fun _ => ?_)
    | rfl
    | split
    | dsimp only
    | fail_if_no_progress with_reducible refine Keeps.mk_of ?_ ?_

theorem State.answerReset_keeps {σ : State} {s : State} {p : Nat} {st : Nat} (hk : Keeps σ s) :
    Keeps σ (State.answerReset s p st) := by
  unfold State.answerReset
  repeat' first
    | with_reducible exact hk
    | with_reducible assumption
    | with_reducible apply State.finish_keeps
    | with_reducible refine ite_keeps (fun _ => ?_) (fun _ => ?_)
    | (with_reducible refine foldl_keeps ?_ ?_; intro _ _ _)
    | rfl
    | split
    | dsimp only

theorem State.finishReset_keeps {σ : State} {s : State} {p : Nat} (hk : Keeps σ s) :
    Keeps σ (State.finishReset s p) := by
  unfold State.finishReset
  split
  · exact hk
  · split
    · refine State.answerReset_keeps ?_
      have h : Keeps σ (s.modPart p fun x => { x with resetting := none }) :=
        State.modPart_keeps hk (fun _ => rfl) (fun _ => rfl) fun _ => rfl
      exact ite_keeps (fun _ => h) fun _ => State.endFallback_keeps h
    · refine State.answerReset_keeps (State.event_keeps (State.irqCause_keeps
        (State.endFallback_keeps (State.hbArm_keeps (State.modPart_safe ?_ fun _ => ⟨?_, rfl⟩)))))
      · refine foldl_keeps (fun _ _ h => ?_) (State.modStage_keeps hk)
        split
        · exact State.flush_keeps h
        · exact h
      · show (Part.reset.evtHead - Part.reset.evtTail).toNat ≤ 1024
        decide

end Sys2Proof.Machine
end

