-- ==== Sys2Proof/Laws/KeepsFaultBase.lean ====
section
/-! SUPPORT. What the operations of Machine/FaultBase.lean keep (see Laws/Keeps.lean). -/
namespace Sys2Proof.Machine

theorem State.eventTo_keeps {σ : State} {s : State} {who : Nat → Bool} {ty index : Nat} {payload : List Byte} (hk : Keeps σ s) :
    Keeps σ (State.eventTo s who ty index payload) := by
  unfold State.eventTo
  repeat' first
    | with_reducible exact hk
    | with_reducible assumption
    | with_reducible apply State.event_keeps
    | (with_reducible refine foldl_keeps ?_ ?_; intro _ _ _)
    | rfl
    | split

theorem State.faultEvent_keeps {σ : State} {s : State} {src kind : Nat} (hk : Keeps σ s) :
    Keeps σ (State.faultEvent s src kind) := by
  unfold State.faultEvent
  repeat' first
    | with_reducible exact hk
    | with_reducible assumption
    | with_reducible apply State.eventTo_keeps

theorem State.logFault_keeps {σ : State} {s : State} {kind src cause reactions value : Nat} (hk : Keeps σ s) :
    Keeps σ (State.logFault s kind src cause reactions value) := by
  unfold State.logFault
  repeat' first
    | with_reducible exact hk
    | with_reducible assumption
    | with_reducible apply State.log_keeps

theorem State.safeReaction_keeps {σ : State} {s : State} {src : Nat} (hk : Keeps σ s) :
    Keeps σ (State.safeReaction s src) := by
  unfold State.safeReaction
  repeat' first
    | with_reducible exact hk
    | with_reducible assumption
    | with_reducible apply State.axReact_keeps
    | with_reducible apply State.eventTo_keeps
    | with_reducible apply State.modObj_keeps
    | with_reducible apply State.modRec_keeps
    | with_reducible apply State.refill_keeps
    | (with_reducible refine foldl_keeps ?_ ?_; intro _ _ _)

theorem State.trapRelease_keeps {σ : State} {s : State} (hk : Keeps σ s) :
    Keeps σ (State.trapRelease s) := by
  unfold State.trapRelease
  repeat' first
    | with_reducible exact hk
    | with_reducible assumption
    | with_reducible apply State.modObj_keeps
    | with_reducible apply State.refill_keeps
    | (with_reducible refine foldl_keeps ?_ ?_; intro _ _ _)
    | rfl
    | split
    | dsimp only

theorem State.resetEngine_keeps {σ : State} {s : State} {c : Nat} (hk : Keeps σ s) :
    Keeps σ (State.resetEngine s c) := by
  unfold State.resetEngine
  repeat' first
    | with_reducible exact hk
    | with_reducible assumption
    | with_reducible apply State.errState_keeps
    | with_reducible apply State.flightFail_keeps
    | with_reducible apply State.modChan_keeps
    | with_reducible apply State.modErr_keeps
    | with_reducible apply State.opened_keeps
    | with_reducible apply State.refill_keeps
    | with_reducible refine ite_keeps (fun _ => ?_) (fun _ => ?_)
    | rfl
    | split
    | dsimp only
    | fail_if_no_progress with_reducible refine Keeps.mk_of ?_ ?_

theorem State.blockReset_keeps {σ : State} {s : State} {src : Nat} (hk : Keeps σ s) :
    Keeps σ (State.blockReset s src) := by
  unfold State.blockReset
  repeat' first
    | with_reducible exact hk
    | with_reducible assumption
    | with_reducible apply State.axStopCmd_keeps
    | with_reducible apply State.lcAcquire_keeps
    | with_reducible apply State.resetEngine_keeps
    | with_reducible apply State.startReset_keeps
    | (with_reducible refine foldl_keeps ?_ ?_; intro _ _ _)
    | rfl
    | split

theorem State.takeReactions_keeps {σ : State} {s : State} {src bits kind : Nat} {tell : Bool} (hk : Keeps σ s) :
    Keeps σ (State.takeReactions s src bits kind tell) := by
  unfold State.takeReactions
  repeat' first
    | with_reducible exact hk
    | with_reducible assumption
    | with_reducible apply State.blockReset_keeps
    | with_reducible apply State.faultEvent_keeps
    | with_reducible apply State.modRec_keeps
    | with_reducible apply State.pinSettle_keeps
    | with_reducible apply State.safeReaction_keeps
    | rfl
    | split
    | dsimp only
    | fail_if_no_progress with_reducible refine Keeps.mk_of ?_ ?_

theorem State.leaveFault_keeps {σ : State} {s : State} {src how : Nat} (hk : Keeps σ s) :
    Keeps σ (State.leaveFault s src how) := by
  unfold State.leaveFault
  repeat' first
    | with_reducible exact hk
    | with_reducible assumption
    | with_reducible apply State.faultEvent_keeps
    | with_reducible apply State.logFault_keeps
    | with_reducible apply State.modRec_keeps
    | with_reducible apply State.pinSettle_keeps
    | with_reducible apply State.trapRelease_keeps

theorem State.currentClear_keeps {σ : State} {s : State} {src : Nat} (hk : Keeps σ s) :
    Keeps σ (State.currentClear s src) := by
  unfold State.currentClear
  repeat' first
    | with_reducible exact hk
    | with_reducible assumption
    | with_reducible apply State.faultEvent_keeps
    | with_reducible apply State.logFault_keeps
    | with_reducible apply State.modRec_keeps
    | with_reducible apply State.supervise_keeps
    | with_reducible refine ite_keeps (fun _ => ?_) (fun _ => ?_)
    | rfl
    | split
    | dsimp only
    | fail_if_no_progress with_reducible refine Keeps.mk_of ?_ ?_

theorem State.retireUnit_keeps {σ : State} {s : State} {u : Nat} (hk : Keeps σ s) :
    Keeps σ (State.retireUnit s u) := by
  unfold State.retireUnit
  repeat' first
    | with_reducible exact hk
    | with_reducible assumption
    | rfl
    | split
    | dsimp only
    | fail_if_no_progress with_reducible refine Keeps.mk_of ?_ ?_

theorem State.latch_keeps {σ : State} {s : State} {o : Latch} (hk : Keeps σ s) :
    Keeps σ (State.latch s o) := by
  unfold State.latch
  repeat' first
    | with_reducible exact hk
    | with_reducible assumption
    | with_reducible apply State.currentClear_keeps
    | with_reducible apply State.logFault_keeps
    | with_reducible apply State.modRec_keeps
    | with_reducible apply State.retireUnit_keeps
    | with_reducible apply State.takeReactions_keeps
    | rfl
    | split
    | dsimp only

theorem State.wireFault_keeps {σ : State} {s : State} {src : Nat} {current inj : Bool} {mask : Nat} (hk : Keeps σ s) :
    Keeps σ (State.wireFault s src current inj mask) := by
  unfold State.wireFault
  repeat' first
    | with_reducible exact hk
    | with_reducible assumption
    | with_reducible apply State.latch_keeps

theorem State.takeRaise_keeps {σ : State} {s : State} {r : Raise} (hk : Keeps σ s) :
    Keeps σ (State.takeRaise s r) := by
  unfold State.takeRaise
  repeat' first
    | with_reducible exact hk
    | with_reducible assumption
    | with_reducible apply State.latch_keeps
    | rfl
    | split
    | dsimp only
    | fail_if_no_progress with_reducible refine Keeps.mk_of ?_ ?_

end Sys2Proof.Machine
end

