-- ==== Sys2Proof/Laws/KeepsAge.lean ====
section
/-! SUPPORT. What the operations of Machine/Age.lean keep (see Laws/Keeps.lean). -/
namespace Sys2Proof.Machine

theorem State.level_keeps {σ : State} {s : State} {src : Nat} {on : Bool} (hk : Keeps σ s) :
    Keeps σ (State.level s src on) := by
  unfold State.level
  repeat' first
    | with_reducible exact hk
    | with_reducible assumption
    | with_reducible apply State.condOff_keeps
    | with_reducible apply State.condOn_keeps
    | with_reducible apply State.raiseU_keeps
    | rfl
    | split

theorem State.levels_keeps {σ : State} {s : State} {x : Sample} (hk : Keeps σ s) :
    Keeps σ (State.levels s x) := by
  unfold State.levels
  repeat' first
    | with_reducible exact hk
    | with_reducible assumption
    | with_reducible apply State.level_keeps

theorem State.lowSlack_keeps {σ : State} {s : State} {low : List Int} {below : Int → Bool} (hk : Keeps σ s) :
    Keeps σ (State.lowSlack s low below) := by
  unfold State.lowSlack
  repeat' first
    | with_reducible exact hk
    | with_reducible assumption
    | with_reducible apply State.raise_keeps
    | with_reducible apply State.raiseU_keeps
    | (with_reducible refine foldl_keeps ?_ ?_; intro _ _ _)
    | rfl
    | split

theorem State.wantCore_keeps {σ : State} {s : State} {mhz reason flags : Nat} {fast : Bool} (hk : Keeps σ s) :
    Keeps σ (State.wantCore s mhz reason flags fast) := by
  unfold State.wantCore
  repeat' first
    | with_reducible exact hk
    | with_reducible assumption
    | with_reducible apply State.noteDecision_keeps
    | rfl
    | split
    | dsimp only
    | fail_if_no_progress with_reducible refine Keeps.mk_of ?_ ?_

theorem State.lifetime_keeps {σ : State} {s : State} {x : Sample} (hk : Keeps σ s) :
    Keeps σ (State.lifetime s x) := by
  unfold State.lifetime
  repeat' first
    | with_reducible exact hk
    | with_reducible assumption
    | rfl
    | split
    | dsimp only
    | fail_if_no_progress with_reducible refine Keeps.mk_of ?_ ?_

theorem State.applyCore_keeps {σ : State} {s : State} (hk : Keeps σ s) :
    Keeps σ (State.applyCore s) := by
  unfold State.applyCore
  repeat' first
    | with_reducible exact hk
    | with_reducible assumption
    | with_reducible apply State.setCore_keeps
    | rfl
    | split
    | dsimp only
    | fail_if_no_progress with_reducible refine Keeps.mk_of ?_ ?_

theorem State.planCore_keeps {σ : State} {s : State} (hk : Keeps σ s) :
    Keeps σ (State.planCore s) := by
  unfold State.planCore
  repeat' first
    | with_reducible exact hk
    | with_reducible assumption
    | with_reducible apply State.wantCore_keeps
    | rfl
    | split
    | dsimp only

theorem State.edgeMargin_keeps {σ : State} {s : State} {c phase : Nat} {short : Bool} (hk : Keeps σ s) :
    Keeps σ (State.edgeMargin s c phase short) := by
  unfold State.edgeMargin
  repeat' first
    | with_reducible exact hk
    | with_reducible assumption
    | with_reducible apply State.condOff_keeps
    | with_reducible apply State.condOn_keeps
    | with_reducible apply State.raiseU_keeps
    | rfl
    | split
    | dsimp only

theorem State.planPhase_keeps {σ : State} {s : State} {c phase : Nat} (hk : Keeps σ s) :
    Keeps σ (State.planPhase s c phase) := by
  unfold State.planPhase
  repeat' first
    | with_reducible exact hk
    | with_reducible assumption
    | with_reducible apply State.edgeMargin_keeps
    | with_reducible apply State.modChan_keeps
    | with_reducible apply State.noteDecision_keeps
    | rfl
    | split
    | dsimp only

theorem State.planChannels_keeps {σ : State} {s : State} (hk : Keeps σ s) :
    Keeps σ (State.planChannels s) := by
  unfold State.planChannels
  repeat' first
    | with_reducible exact hk
    | with_reducible assumption
    | with_reducible apply State.opened_keeps
    | with_reducible apply State.planPhase_keeps
    | (with_reducible refine foldl_keeps ?_ ?_; intro _ _ _)
    | rfl
    | split

theorem State.planRows_keeps {σ : State} {s : State} (hk : Keeps σ s) :
    Keeps σ (State.planRows s) := by
  unfold State.planRows
  repeat' first
    | with_reducible exact hk
    | with_reducible assumption
    | with_reducible apply State.decision_keeps
    | with_reducible apply State.noteDecision_keeps
    | with_reducible apply State.swapRow_keeps
    | rfl
    | split
    | dsimp only
    | fail_if_no_progress with_reducible refine Keeps.mk_of ?_ ?_

theorem State.refreshWord_keeps {σ : State} {s : State} {w : Nat} (hk : Keeps σ s) :
    Keeps σ (State.refreshWord s w) := by
  unfold State.refreshWord
  repeat' first
    | with_reducible exact hk
    | with_reducible assumption
    | with_reducible apply State.noteDecision_keeps
    | with_reducible apply State.raise_keeps
    | rfl
    | split
    | dsimp only
    | fail_if_no_progress with_reducible refine Keeps.mk_of ?_ ?_

theorem State.takeDrift_keeps {σ : State} {s : State} {c : Nat} (hk : Keeps σ s) :
    Keeps σ (State.takeDrift s c) := by
  unfold State.takeDrift
  repeat' first
    | with_reducible exact hk
    | with_reducible assumption
    | with_reducible apply State.condOff_keeps
    | with_reducible apply State.condOn_keeps
    | with_reducible apply State.modChan_keeps
    | with_reducible apply State.raise_keeps
    | rfl
    | split
    | dsimp only

end Sys2Proof.Machine
end

