-- ==== Sys2Proof/Laws/KeepsGeneral.lean ====
section
/-! SUPPORT. What the operations of Machine/General.lean keep (see Laws/Keeps.lean). -/
namespace Sys2Proof.Machine

/-- RIGHTS_GRANT may give a right, so only the invariant is kept. -/
theorem State.setRights_safe {σ : State} {s : State} {c : PRes} {i p : Nat} {on : Bool} (hk : Safe σ s) :
    Safe σ (State.setRights s c i p on) := by
  unfold State.setRights
  dsimp only
  split
  · exact hk.trans ⟨rfl, fun h => ⟨h.mem, h.log, h.parts, h.recs, h.grants⟩⟩
  · exact hk.trans ⟨rfl, fun h => ⟨h.mem, h.log, h.parts, h.recs, SMap.wf_set _ _ h.grants⟩⟩

theorem State.setNow_keeps {σ : State} {s : State} {d : PDesc} {i v : Nat} (hk : Keeps σ s) :
    Keeps σ (State.setNow s d i v) := by
  unfold State.setNow
  repeat' first
    | with_reducible exact hk
    | with_reducible assumption
    | with_reducible apply State.changeOwner_keeps
    | with_reducible apply State.flush_keeps
    | with_reducible apply State.hbArm_keeps
    | with_reducible apply State.log_keeps
    | with_reducible apply State.pinSettle_keeps
    | with_reducible apply State.setPar_keeps
    | rfl
    | split
    | dsimp only
    | fail_if_no_progress with_reducible refine Keeps.mk_of ?_ ?_

theorem State.applyEntry_keeps {σ : State} {p : Nat} {s : State} {e : PEntry} (hk : Keeps σ s) :
    Keeps σ (State.applyEntry p s e) := by
  unfold State.applyEntry
  repeat' first
    | with_reducible exact hk
    | with_reducible assumption
    | with_reducible apply State.postUpdate_keeps
    | with_reducible apply State.restage_keeps
    | with_reducible apply State.setNow_keeps
    | with_reducible refine ite_keeps (fun _ => ?_) (fun _ => ?_)
    | rfl
    | split
    | dsimp only
    | fail_if_no_progress with_reducible refine Keeps.mk_of ?_ ?_

end Sys2Proof.Machine
end

