-- ==== Sys2Proof/Laws/KeepsBoot.lean ====
section
/-! SUPPORT. What the operations of Machine/Boot.lean keep (see Laws/Keeps.lean). -/
namespace Sys2Proof.Machine

@[simp] theorem Keep.setSlot_log (k : Keep) (n : Nat) (x : FwSlot) : (k.setSlot n x).log = k.log := by
  unfold Keep.setSlot; split <;> rfl
@[simp] theorem Keep.setSlot_boot (k : Keep) (n : Nat) (x : FwSlot) : (k.setSlot n x).boot = k.boot := by
  unfold Keep.setSlot; split <;> rfl

theorem State.closeRec_keeps {σ : State} {s : State} {outcome reason step detail : Nat} (hk : Keeps σ s) :
    Keeps σ (State.closeRec s outcome reason step detail) := by
  unfold State.closeRec
  repeat' first
    | with_reducible exact hk
    | with_reducible assumption
    | rfl
    | split
    | dsimp only
    | fail_if_no_progress with_reducible refine Keeps.mk_of ?_ ?_

theorem State.failStart_keeps {σ : State} {s : State} {reason step detail : Nat} (hk : Keeps σ s) :
    Keeps σ (State.failStart s reason step detail) := by
  unfold State.failStart
  repeat' first
    | with_reducible exact hk
    | with_reducible assumption
    | with_reducible apply State.closeRec_keeps
    | rfl
    | split
    | dsimp only
    | fail_if_no_progress with_reducible refine Keeps.mk_of ?_ ?_

theorem State.devChanged_keeps {σ : State} {s : State} (hk : Keeps σ s) :
    Keeps σ (State.devChanged s) := by
  unfold State.devChanged
  repeat' first
    | with_reducible exact hk
    | with_reducible assumption
    | with_reducible apply State.irqCause_keeps
    | (with_reducible refine foldl_keeps ?_ ?_; intro _ _ _)
    | rfl
    | split

theorem Tested.then_keeps {σ : State} {x : Tested} {f : State → Tested} (hk : Keeps σ x.1)
    (hf : ∀ t, Keeps σ t → Keeps σ (f t).1) : Keeps σ (x.then_ f).1 := by
  unfold Tested.then_
  split
  · exact hk
  · exact hf _ hk

theorem bootStep_keeps {σ s : State} {o : BootObs} {n : Nat} (hk : Keeps σ s) : Keeps σ (bootStep o n s).1 := by
  unfold bootStep
  split
  · split <;> exact hk
  · exact hk

theorem testRow_keeps {σ s : State} {x : Nat × Nat} (hk : Keeps σ s) : Keeps σ (testRow s x).1 := by
  unfold testRow
  split
  · exact hk
  · split
    · exact hk
    · exact State.swapRow_keeps hk

theorem testUnit_keeps {σ s : State} {u : Nat} (hk : Keeps σ s) : Keeps σ (testUnit s u).1 := by
  unfold testUnit
  split
  · exact hk
  · split
    · exact hk
    · exact State.retireUnit_keeps hk

theorem testChan_keeps {σ s : State} {c : Nat} (hk : Keeps σ s) : Keeps σ (testChan s c).1 := by
  unfold testChan
  split
  · exact hk
  · exact Keeps.mk_of hk rfl

/-- A fold over test results keeps what each test keeps. -/
theorem Tested.foldl_keeps {σ : State} {α : Type} {f : State → α → Tested} (hf : ∀ t a, Keeps σ t → Keeps σ (f t a).1)
    (l : List α) : ∀ {x : Tested}, Keeps σ x.1 →
      Keeps σ (l.foldl (fun (y : Tested) a => y.then_ fun t => f t a) x).1 := by
  induction l with
  | nil => exact fun h => h
  | cons a l ih => exact fun h => ih (Tested.then_keeps h fun t ht => hf t a ht)

theorem State.selfTest_keeps {σ s : State} {o : BootObs} (hk : Keeps σ s) : Keeps σ (s.selfTest o).1 := by
  have run : ∀ {x : Tested} {n : Nat}, Keeps σ x.1 → Keeps σ (x.then_ (bootStep o n)).1 :=
    fun h => Tested.then_keeps h fun _ ht => bootStep_keeps ht
  unfold State.selfTest
  exact run (Tested.foldl_keeps (fun _ _ h => testChan_keeps h) _ (run (run (Tested.foldl_keeps
    (fun _ _ h => testUnit_keeps h) _ (run (run (Tested.foldl_keeps (fun _ _ h => testRow_keeps h) _
    (run (run (run hk))))))))))

theorem State.restore_keeps {σ : State} {s : State} {o : BootObs} (hk : Keeps σ s) :
    Keeps σ (State.restore s o) := by
  unfold State.restore
  repeat' first
    | with_reducible exact hk
    | with_reducible assumption
    | with_reducible apply State.modChan_keeps
    | with_reducible apply State.modRec_keeps
    | with_reducible apply State.setCore_keeps
    | (with_reducible refine foldl_keeps ?_ ?_; intro _ _ _)
    | rfl
    | split

theorem State.ready_keeps {σ : State} {s : State} (hk : Keeps σ s) :
    Keeps σ (State.ready s) := by
  unfold State.ready
  repeat' first
    | with_reducible exact hk
    | with_reducible assumption
    | with_reducible apply State.closeRec_keeps
    | with_reducible apply State.devChanged_keeps
    | with_reducible apply State.log_keeps
    | with_reducible refine ite_keeps (fun _ => ?_) (fun _ => ?_)
    | rfl
    | split
    | dsimp only
    | fail_if_no_progress with_reducible refine Keeps.mk_of ?_ ?_

theorem State.enterRusk_keeps {σ : State} {s : State} {reason : Nat} (hk : Keeps σ s) :
    Keeps σ (State.enterRusk s reason) := by
  unfold State.enterRusk
  repeat' first
    | with_reducible exact hk
    | with_reducible assumption
    | with_reducible apply State.closeRec_keeps
    | with_reducible apply State.devChanged_keeps
    | with_reducible apply State.log_keeps
    | rfl
    | split
    | dsimp only
    | fail_if_no_progress with_reducible refine Keeps.mk_of ?_ ?_

theorem State.checkSlot_keeps {σ s : State} {n : Nat} {o : BootObs} (hk : Keeps σ s) : Keeps σ (s.checkSlot n o) := by
  unfold State.checkSlot
  dsimp only
  have h : Keeps σ (if (if n = 1 then o.readErrA else o.readErrB) = true then
      { s with keep := s.keep.setSlot n { s.keep.slot n with code := 6 } }.raiseU 0x141 0 2 n false 0 else s) :=
    ite_keeps (fun _ => State.raiseU_keeps
      (Keeps.mk_of hk (by simp only [Keep.setSlot_log, Keep.setSlot_boot]))) fun _ => hk
  exact Keeps.mk_of h (by first | rfl | (split <;> rfl))

theorem State.runs_keeps {σ : State} {s : State} {n : Nat} (hk : Keeps σ s) :
    Keeps σ (State.runs s n) := by
  unfold State.runs
  repeat' first
    | with_reducible exact hk
    | with_reducible assumption
    | rfl
    | split
    | dsimp only
    | fail_if_no_progress with_reducible refine Keeps.mk_of ?_ ?_

theorem State.selectSlot_keeps {σ : State} {s : State} {first : Nat} {o : BootObs} (hk : Keeps σ s) :
    Keeps σ (State.selectSlot s first o) := by
  unfold State.selectSlot
  repeat' first
    | with_reducible exact hk
    | with_reducible assumption
    | with_reducible apply State.checkSlot_keeps
    | with_reducible apply State.runs_keeps
    | rfl
    | split
    | dsimp only

theorem State.reset_parts (p : Nat) : (State.reset.part p).Inv := by
  have : State.reset.part p = Part.reset := by
    by_cases h : p < 8
    · simp [State.part, Tab.get, State.reset, h]
    · exact Tab.get_outside _ _ (by omega)
  rw [this]
  exact ⟨by decide, rfl⟩

theorem State.wiped_log (s : State) : s.wiped.keep.log = s.keep.log := by
  unfold State.wiped
  dsimp only
  split
  · exact Keep.setSlot_log _ _ _
  · rfl

/-- The device in reset keeps the invariant: everything but the keep store is as after reset. -/
theorem State.wiped_safe {σ s : State} (hk : Safe σ s) : Safe σ s.wiped :=
  hk.trans ⟨rfl, fun h => ⟨rfl, by rw [State.wiped_log]; exact h.log, State.reset_parts, rfl, rfl⟩⟩

theorem State.bootStep1_safe {σ s : State} {origin : ResetOrigin} {first : Nat} (hk : Safe σ s) :
    Safe σ (s.bootStep1 origin first) := by
  unfold State.bootStep1
  dsimp only
  split
  · refine hk.trans (Safe.trans ?_ (State.raiseU_keeps (Keeps.refl _)).safe)
    exact ⟨rfl, fun h => ⟨h.mem, h.log, h.parts, h.recs, h.grants⟩⟩
  · exact hk.trans ⟨rfl, fun h => ⟨h.mem, h.log, h.parts, h.recs, h.grants⟩⟩

theorem State.bootOn_keeps {σ : State} {s : State} {first : Nat} {o : BootObs} (hk : Keeps σ s) :
    Keeps σ (State.bootOn s first o) := by
  unfold State.bootOn
  repeat' first
    | with_reducible exact hk
    | with_reducible assumption
    | with_reducible apply State.elapse_keeps
    | with_reducible apply State.enterRusk_keeps
    | with_reducible apply State.failStart_keeps
    | with_reducible apply State.ready_keeps
    | with_reducible apply State.restore_keeps
    | with_reducible apply State.selectSlot_keeps
    | with_reducible apply State.selfTest_keeps
    | with_reducible refine ite_keeps (fun _ => ?_) (fun _ => ?_)
    | rfl
    | split
    | dsimp only
    | fail_if_no_progress with_reducible refine Keeps.mk_of ?_ ?_

theorem State.start_safe {σ s : State} {origin : ResetOrigin} {o : BootObs} (hk : Safe σ s) :
    Safe σ (s.start origin o) :=
  (State.bootStep1_safe (State.wiped_safe hk)).trans (State.bootOn_keeps (Keeps.refl _)).safe

theorem State.hold_safe {σ s : State} (hk : Safe σ s) : Safe σ s.hold :=
  (State.wiped_safe hk).trans (Keeps.mk_of (Keeps.refl _) (by rfl)).safe

end Sys2Proof.Machine
end

