-- ==== Sys2Proof/Laws/KeepsBudget.lean ====
section
/-! SUPPORT. What the operations of Machine/Budget.lean keep (see Laws/Keeps.lean). -/
namespace Sys2Proof.Machine

theorem State.release_keeps {σ : State} {s : State} {c : Nat} (hk : Keeps σ s) :
    Keeps σ (State.release s c) := by
  unfold State.release
  repeat' first
    | with_reducible exact hk
    | with_reducible assumption
    | with_reducible apply State.modChan_keeps
    | with_reducible apply State.opened_keeps
    | rfl
    | split

theorem State.grant_keeps {σ : State} {s : State} {w : Wait} (hk : Keeps σ s) :
    Keeps σ (State.grant s w) := by
  unfold State.grant
  repeat' first
    | with_reducible exact hk
    | with_reducible assumption
    | with_reducible apply State.modObj_keeps
    | with_reducible apply State.refill_keeps
    | with_reducible apply State.release_keeps
    | rfl
    | split
    | dsimp only
    | fail_if_no_progress with_reducible refine Keeps.mk_of ?_ ?_

theorem State.grantAll_keeps {σ : State} {s : State} {n' : Nat} (hk : Keeps σ s) :
    Keeps σ (State.grantAll s n') := by
  induction n' generalizing s with
  | zero => exact hk
  | succ n' ih =>
    unfold State.grantAll
    repeat' first
    | with_reducible exact hk
    | with_reducible assumption
    | with_reducible apply ih
    | with_reducible apply State.grant_keeps
    | rfl
    | split

theorem State.grantTick_keeps {σ : State} {s : State} (hk : Keeps σ s) :
    Keeps σ (State.grantTick s) := by
  unfold State.grantTick
  repeat' first
    | with_reducible exact hk
    | with_reducible assumption
    | with_reducible apply State.grantAll_keeps
    | rfl
    | split
    | dsimp only
    | fail_if_no_progress with_reducible refine Keeps.mk_of ?_ ?_

end Sys2Proof.Machine
end

