-- ==== Sys2Proof/Laws/KeepsChanRows.lean ====
section
/-! SUPPORT. What the operations of Machine/ChanRows.lean keep (see Laws/Keeps.lean). -/
namespace Sys2Proof.Machine

theorem State.addEdgesA_keeps {σ : State} {s : State} {c : Nat} {es : List Int} (hk : Keeps σ s) :
    Keeps σ (State.addEdgesA s c es) := by
  unfold State.addEdgesA
  repeat' first
    | with_reducible exact hk
    | with_reducible assumption
    | with_reducible apply State.modChan_keeps

theorem State.loopDelay_keeps {σ : State} {s : State} {c : Nat} {v : Nat} (hk : Keeps σ s) :
    Keeps σ (State.loopDelay s c v) := by
  unfold State.loopDelay
  repeat' first
    | with_reducible exact hk
    | with_reducible assumption
    | with_reducible apply State.modChan_keeps
    | with_reducible refine ite_keeps (fun _ => ?_) (fun _ => ?_)
    | rfl
    | split
    | dsimp only
    | fail_if_no_progress with_reducible refine Keeps.mk_of ?_ ?_

theorem State.objSent_keeps {σ : State} {s : State} {e : Nat} {c : Nat} {o : Nat} {f : Frame} {ended : Bool} {sched : Bool} (hk : Keeps σ s) :
    Keeps σ (State.objSent s e c o f ended sched) := by
  unfold State.objSent
  repeat' first
    | with_reducible exact hk
    | with_reducible assumption
    | with_reducible apply State.endRequest_keeps
    | with_reducible apply State.flightDone_keeps
    | with_reducible apply State.modObj_keeps
    | with_reducible apply State.modRing_keeps
    | with_reducible apply State.objItem_keeps
    | with_reducible refine ite_keeps (fun _ => ?_) (fun _ => ?_)
    | rfl
    | split
    | dsimp only
    | fail_if_no_progress with_reducible refine Keeps.mk_of ?_ ?_

theorem State.testSent_keeps {σ : State} {s : State} {e : Nat} {x : TxEnd} (hk : Keeps σ s) :
    Keeps σ (State.testSent s e x) := by
  unfold State.testSent
  repeat' first
    | with_reducible exact hk
    | with_reducible assumption
    | with_reducible apply State.modChan_keeps
    | with_reducible refine ite_keeps (fun _ => ?_) (fun _ => ?_)
    | rfl
    | split
    | dsimp only
    | fail_if_no_progress with_reducible refine Keeps.mk_of ?_ ?_

theorem State.takeLoop_keeps {σ : State} {s : State} {e : Nat} {k : FrameKind} {loop : Option Nat} (hk : Keeps σ s) :
    Keeps σ (State.takeLoop s e k loop) := by
  unfold State.takeLoop
  repeat' first
    | with_reducible exact hk
    | with_reducible assumption
    | with_reducible apply State.loopDelay_keeps
    | with_reducible refine ite_keeps (fun _ => ?_) (fun _ => ?_)
    | rfl
    | split
    | dsimp only

theorem State.applyMode_keeps {σ : State} {s : State} {c : Nat} (hk : Keeps σ s) :
    Keeps σ (State.applyMode s c) := by
  unfold State.applyMode
  repeat' first
    | with_reducible exact hk
    | with_reducible assumption
    | with_reducible apply State.chanEvent_keeps
    | with_reducible apply State.loneDrop_keeps
    | with_reducible apply State.modChan_keeps
    | with_reducible apply State.refill_keeps
    | with_reducible apply State.schedUpdate_keeps
    | with_reducible apply State.settle_keeps
    | with_reducible refine ite_keeps (fun _ => ?_) (fun _ => ?_)
    | rfl
    | split
    | dsimp only
    | fail_if_no_progress with_reducible refine Keeps.mk_of ?_ ?_

theorem State.timingEvent_keeps {σ : State} {s : State} {c origin discarded : Nat} (hk : Keeps σ s) :
    Keeps σ (State.timingEvent s c origin discarded) := by
  unfold State.timingEvent
  repeat' first
    | with_reducible exact hk
    | with_reducible assumption
    | with_reducible apply State.chanEvent_keeps

theorem State.dropBuffered_keeps {σ : State} {s : State} {c : Nat} (hk : Keeps σ s) :
    Keeps σ (State.dropBuffered s c) := by
  unfold State.dropBuffered
  repeat' first
    | with_reducible exact hk
    | with_reducible assumption
    | with_reducible apply State.armedPassed_keeps
    | with_reducible apply State.countMiss_keeps
    | with_reducible apply State.disarm_keeps
    | with_reducible apply State.discardRequest_keeps
    | with_reducible apply State.modChan_keeps
    | with_reducible refine ite_keeps (fun _ => ?_) (fun _ => ?_)
    | rfl
    | split
    | dsimp only
    | fail_if_no_progress with_reducible refine Keeps.mk_of ?_ ?_

theorem State.applyTiming_keeps {σ : State} {s : State} {c : Nat} (hk : Keeps σ s) :
    Keeps σ (State.applyTiming s c) := by
  unfold State.applyTiming
  repeat' first
    | with_reducible exact hk
    | with_reducible assumption
    | with_reducible apply State.dropBuffered_keeps
    | with_reducible apply State.modChan_keeps
    | with_reducible apply State.refill_keeps
    | with_reducible apply State.timingEvent_keeps
    | with_reducible refine ite_keeps (fun _ => ?_) (fun _ => ?_)
    | rfl
    | split
    | dsimp only
    | fail_if_no_progress with_reducible refine Keeps.mk_of ?_ ?_

theorem State.decideMove_keeps {σ : State} {s : State} {c subject : Nat} {old : Int} {move : Option (Int × Bool)} (hk : Keeps σ s) :
    Keeps σ (State.decideMove s c subject old move) := by
  unfold State.decideMove
  repeat' first
    | with_reducible exact hk
    | with_reducible assumption
    | with_reducible apply State.decision_keeps
    | rfl
    | split

end Sys2Proof.Machine
end

