-- ==== Sys2Proof/Laws/KeepsFaults.lean ====
section
/-! SUPPORT. What the operations of Machine/Faults.lean keep (see Laws/Keeps.lean). -/
namespace Sys2Proof.Machine

theorem State.testRest_keeps {σ : State} {s : State} {c lo hi : Nat} (hk : Keeps σ s) : Keeps σ (State.testRest s c lo hi) := by
  unfold State.testRest
  split
  · dsimp only
    exact ite_keeps (fun _ => hk) (fun _ => State.modChan_keeps hk)
  · exact hk

theorem State.requalExit_keeps {σ : State} {s : State} {src : Nat} (hk : Keeps σ s) :
    Keeps σ (State.requalExit s src) := by
  unfold State.requalExit
  repeat' first
    | with_reducible exact hk
    | with_reducible assumption
    | with_reducible apply State.leaveFault_keeps
    | with_reducible apply State.modRec_keeps
    | rfl
    | split
    | dsimp only
    | fail_if_no_progress with_reducible refine Keeps.mk_of ?_ ?_

theorem State.requalEvent_keeps {σ : State} {s : State} {c result lo hi : Nat} (hk : Keeps σ s) :
    Keeps σ (State.requalEvent s c result lo hi) := by
  unfold State.requalEvent
  repeat' first
    | with_reducible exact hk
    | with_reducible assumption
    | with_reducible apply State.chanEvent_keeps

theorem State.requalPass_keeps {σ : State} {s : State} {c : Nat} {mode : ChMode} (hk : Keeps σ s) :
    Keeps σ (State.requalPass s c mode) := by
  unfold State.requalPass
  repeat' first
    | with_reducible exact hk
    | with_reducible assumption
    | with_reducible apply State.handBack_keeps
    | with_reducible apply State.loneDrop_keeps
    | with_reducible apply State.modDiag_keeps
    | with_reducible apply State.modErr_keeps
    | with_reducible apply State.openDone_keeps
    | with_reducible apply State.requalExit_keeps
    | rfl
    | split
    | dsimp only
    | fail_if_no_progress with_reducible refine Keeps.mk_of ?_ ?_

theorem State.injectEnd_keeps {σ : State} {s : State} {src pat result residual : Nat} (hk : Keeps σ s) :
    Keeps σ (State.injectEnd s src pat result residual) := by
  unfold State.injectEnd
  repeat' first
    | with_reducible exact hk
    | with_reducible assumption
    | with_reducible apply State.event_keeps
    | with_reducible apply State.finish_keeps
    | with_reducible apply State.logFault_keeps
    | rfl
    | split
    | dsimp only
    | fail_if_no_progress with_reducible refine Keeps.mk_of ?_ ?_

end Sys2Proof.Machine
end

