-- ==== Sys2Proof/Laws/KeepsHostPorts.lean ====
section
/-! SUPPORT. What the operations of Machine/HostPorts.lean keep (see Laws/Keeps.lean). -/
namespace Sys2Proof.Machine

theorem State.writeDbMbox_keeps {σ : State} {s : State} {p v : Nat} (hk : Keeps σ s) :
    Keeps σ (State.writeDbMbox s p v) := by
  unfold State.writeDbMbox
  repeat' first
    | with_reducible exact hk
    | with_reducible assumption
    | with_reducible apply State.doorbell_keeps
    | with_reducible apply State.drain_keeps
    | (with_reducible refine foldl_keeps ?_ ?_; intro _ _ _)
    | rfl
    | split

theorem State.writeDbQueue_keeps {σ : State} {s : State} {p v base : Nat} (hk : Keeps σ s) :
    Keeps σ (State.writeDbQueue s p v base) := by
  unfold State.writeDbQueue
  repeat' first
    | with_reducible exact hk
    | with_reducible assumption
    | with_reducible apply State.ring_keeps
    | (with_reducible refine foldl_keeps ?_ ?_; intro _ _ _)

theorem State.writeIrqEnable_keeps {σ : State} {s : State} {p v : Nat} (hk : Keeps σ s) :
    Keeps σ (State.writeIrqEnable s p v) := by
  unfold State.writeIrqEnable
  repeat' first
    | with_reducible exact hk
    | with_reducible assumption
    | with_reducible apply State.irq_keeps
    | with_reducible refine State.modPart_keeps ?_ (fun _ => rfl) (fun _ => rfl) (fun _ => rfl)
    | (with_reducible refine foldl_keeps ?_ ?_; intro _ _ _)

theorem State.writeEvtTail_keeps {σ : State} {s : State} {p v : Nat} (hk : Keeps σ s) :
    Keeps σ (State.writeEvtTail s p v) := by
  unfold State.writeEvtTail
  dsimp only
  split
  · exact State.countIgnored_keeps hk
  · next le =>
    refine State.modPart_safe hk fun i => ⟨?_, i.slots⟩
    have h := i.events
    show ((s.part p).evtHead - BitVec.ofNat 32 v).toNat ≤ 1024
    unfold Part.unread at h
    bv_omega

theorem State.writeHb_keeps {σ : State} {s : State} {p v : Nat} (hk : Keeps σ s) :
    Keeps σ (State.writeHb s p v) := by
  unfold State.writeHb
  repeat' first
    | with_reducible exact hk
    | with_reducible assumption
    | with_reducible apply State.countIgnored_keeps
    | with_reducible apply State.endFallback_keeps
    | with_reducible apply State.event_keeps
    | with_reducible apply State.hbLeave_keeps
    | with_reducible refine State.modPart_keeps ?_ (fun _ => rfl) (fun _ => rfl) (fun _ => rfl)
    | rfl
    | split
    | dsimp only

theorem State.writePreset_keeps {σ : State} {s : State} {p v : Nat} (hk : Keeps σ s) :
    Keeps σ (State.writePreset s p v) := by
  unfold State.writePreset
  repeat' first
    | with_reducible exact hk
    | with_reducible assumption
    | with_reducible apply State.countIgnored_keeps
    | with_reducible apply State.startReset_keeps
    | rfl
    | split

theorem State.writeAp_keeps {σ : State} {s : State} {p n v : Nat} (hk : Keeps σ s) :
    Keeps σ (State.writeAp s p n v) := by
  unfold State.writeAp
  repeat' first
    | with_reducible exact hk
    | with_reducible assumption
    | with_reducible apply State.countIgnored_keeps
    | with_reducible refine State.modPart_keeps ?_ (fun _ => rfl) (fun _ => rfl) (fun _ => rfl)
    | rfl
    | split
    | dsimp only

theorem State.writeMsix_keeps {σ : State} {s : State} {p i v : Nat} (hk : Keeps σ s) :
    Keeps σ (State.writeMsix s p i v) := by
  unfold State.writeMsix
  repeat' first
    | with_reducible exact hk
    | with_reducible assumption
    | with_reducible refine State.modPart_keeps ?_ (fun _ => rfl) (fun _ => rfl) (fun _ => rfl)
    | rfl
    | split
    | dsimp only

theorem State.regWrite_keeps {σ : State} {s : State} {p off v : Nat} (hk : Keeps σ s) :
    Keeps σ (State.regWrite s p off v) := by
  unfold State.regWrite
  repeat' first
    | with_reducible refine ite_keeps (fun _ => ?_) (fun _ => ?_)
    | with_reducible exact hk
    | with_reducible apply State.writeDbMbox_keeps
    | with_reducible apply State.writeDbQueue_keeps
    | with_reducible apply State.writeIrqEnable_keeps
    | with_reducible apply State.writeEvtTail_keeps
    | with_reducible apply State.writeHb_keeps
    | with_reducible apply State.writePreset_keeps
    | with_reducible apply State.writeAp_keeps
    | with_reducible apply State.writeMsix_keeps
    | with_reducible refine State.modPart_keeps ?_ (fun _ => rfl) (fun _ => rfl) (fun _ => rfl)

theorem State.clearErr_keeps {σ : State} {s : State} {p : Nat} (hk : Keeps σ s) :
    Keeps σ (State.clearErr s p) := by
  unfold State.clearErr
  repeat' first
    | with_reducible exact hk
    | with_reducible assumption
    | with_reducible refine State.modPart_keeps ?_ (fun _ => rfl) (fun _ => rfl) (fun _ => rfl)
    | rfl
    | split

theorem State.pageWrite_keeps {σ : State} {s : State} {p off : Nat} {bs : List Byte} (hk : Keeps σ s) :
    Keeps σ (State.pageWrite s p off bs) := by
  unfold State.pageWrite
  split
  · exact State.refuseAccess_keeps hk
  · exact foldl_keeps (fun _ _ h => State.modPage_keeps h (fun _ => rfl) (fun _ => rfl) fun _ w => SMap.wf_set _ _ w) hk

theorem State.ctrlRead_keeps {σ : State} {s : State} {p off n : Nat} {burst : Bool} (hk : Keeps σ s) :
    Keeps σ (State.ctrlRead s p off n burst).2 := by
  unfold State.ctrlRead
  split
  · exact hk
  · split
    · exact State.refuseAccess_keeps hk
    · refine foldl_snd_keeps (fun x a h => ?_) hk
      dsimp only
      split
      · dsimp only
        split
        · exact State.clearErr_keeps h
        · exact h
      · exact h

theorem State.ctrlWrite_keeps {σ : State} {s : State} {p : Nat} {off : Nat} {bs : List Byte} {burst : Bool} (hk : Keeps σ s) :
    Keeps σ (State.ctrlWrite s p off bs burst) := by
  unfold State.ctrlWrite
  repeat' first
    | with_reducible exact hk
    | with_reducible assumption
    | with_reducible apply State.pageWrite_keeps
    | with_reducible apply State.refuseCtrl_keeps
    | with_reducible apply State.regWrite_keeps
    | with_reducible refine ite_keeps (fun _ => ?_) (fun _ => ?_)
    | (with_reducible refine foldl_keeps ?_ ?_; intro _ _ _)
    | rfl
    | split
    | dsimp only

theorem State.hostStore_keeps {σ : State} {s : State} {a : Nat} {bs : List Byte} (hk : Keeps σ s) :
    Keeps σ (State.hostStore s a bs).1 := by
  have fold : ∀ (l : List (Byte × Nat)) (m : SMap Byte), Memory.wf m = true →
      Memory.wf (l.foldl (fun m x => SMap.set 0 m (a + x.2) x.1) m) = true := by
    intro l
    induction l with
    | nil => exact fun _ h => h
    | cons x l ih => exact fun _ h => ih _ (SMap.wf_set _ _ h)
  exact hk.trans ⟨⟨rfl, fun h => ⟨fold _ _ h.mem, h.log, h.parts, h.recs, h.grants⟩⟩,
    ⟨rfl, fun w => ⟨w, fun _ _ x => x⟩, rfl, rfl, rfl, rfl, rfl⟩⟩

theorem State.apRead_keeps {σ : State} {s : State} {p off n : Nat} (hk : Keeps σ s) :
    Keeps σ (State.apRead s p off n).2.2 := by
  unfold State.apRead
  dsimp only
  split
  · exact State.refuseAccess_keeps hk
  · split
    · exact State.refuseAccess_keeps hk
    · split <;> exact ite_keeps (fun _ => State.countRefused_keeps hk) fun _ => hk

theorem State.refuseAp_keeps {σ : State} {s : State} {p : Nat} {sel : Nat} {pos : Nat} (hk : Keeps σ s) :
    Keeps σ (State.refuseAp s p sel pos) := by
  unfold State.refuseAp
  repeat' first
    | with_reducible exact hk
    | with_reducible assumption
    | with_reducible apply State.refuseAccess_keeps
    | with_reducible refine ite_keeps (fun _ => ?_) (fun _ => ?_)
    | rfl
    | split
    | dsimp only

theorem State.refuseOff_keeps {σ : State} {s : State} {p : Nat} {off : Nat} (hk : Keeps σ s) :
    Keeps σ (State.refuseOff s p off) := by
  unfold State.refuseOff
  repeat' first
    | with_reducible exact hk
    | with_reducible assumption
    | with_reducible apply State.refuseAccess_keeps
    | with_reducible refine ite_keeps (fun _ => ?_) (fun _ => ?_)
    | rfl
    | split
    | dsimp only

theorem State.apWrite_keeps {σ : State} {s : State} {p : Nat} {off : Nat} {bs : List Byte} (hk : Keeps σ s) :
    Keeps σ (State.apWrite s p off bs) := by
  unfold State.apWrite
  repeat' first
    | with_reducible exact hk
    | with_reducible assumption
    | with_reducible apply State.countRefused_keeps
    | with_reducible apply State.hostStore_keeps
    | with_reducible apply State.modQueue_keeps
    | with_reducible apply State.refuseAp_keeps
    | with_reducible apply State.refuseOff_keeps
    | with_reducible refine ite_keeps (fun _ => ?_) (fun _ => ?_)
    | rfl
    | split
    | dsimp only
    | fail_if_no_progress with_reducible refine Keeps.mk_of ?_ ?_

theorem State.winRead_keeps {σ : State} {s : State} {p : Nat} {w : Window} {off n : Nat} {burst : Bool} (hk : Keeps σ s) :
    Keeps σ (State.winRead s p w off n burst).2.2 := by
  cases w with
  | control => exact State.ctrlRead_keeps hk
  | store =>
    unfold State.winRead
    dsimp only
    split
    · exact State.apRead_keeps hk
    · exact State.apRead_keeps (State.apRead_keeps hk)
  | signal => exact ite_keeps (fun _ => State.countRefused_keeps hk) fun _ => hk
  | reserved => exact hk

theorem State.winWrite_keeps {σ : State} {s : State} {p : Nat} {w : Window} {off : Nat} {bs : List Byte} {burst : Bool} (hk : Keeps σ s) :
    Keeps σ (State.winWrite s p w off bs burst) := by
  unfold State.winWrite
  repeat' first
    | with_reducible exact hk
    | with_reducible assumption
    | with_reducible apply State.apWrite_keeps
    | with_reducible apply State.ctrlWrite_keeps
    | with_reducible apply State.refuseStore_keeps
    | with_reducible refine ite_keeps (fun _ => ?_) (fun _ => ?_)
    | rfl
    | split
    | dsimp only

theorem State.refuseWindow_keeps {σ : State} {s : State} {v : Via} {w : Window} {off : Nat} (hk : Keeps σ s) :
    Keeps σ (State.refuseWindow s v w off) := by
  unfold State.refuseWindow
  repeat' first
    | with_reducible exact hk
    | with_reducible assumption
    | with_reducible apply State.countRefused_keeps
    | with_reducible apply State.raise_keeps

theorem State.hostAccess_keeps {σ : State} {s : State} {a : Access} (hk : Keeps σ s) :
    Keeps σ (State.hostAccess s a) := by
  unfold State.hostAccess
  repeat' first
    | with_reducible exact hk
    | with_reducible assumption
    | with_reducible apply State.countRefused_keeps
    | with_reducible apply State.refusePort_keeps
    | with_reducible apply State.refuseWindow_keeps
    | with_reducible apply State.winRead_keeps
    | with_reducible apply State.winWrite_keeps
    | rfl
    | split
    | dsimp only
    | fail_if_no_progress with_reducible refine Keeps.mk_of ?_ ?_

theorem State.resetLink_keeps {σ : State} {s : State} {link : Port} (hk : Keeps σ s) :
    Keeps σ (State.resetLink s link) := by
  unfold State.resetLink
  repeat' first
    | with_reducible exact hk
    | with_reducible assumption
    | with_reducible apply State.startReset_keeps
    | (with_reducible refine foldl_keeps ?_ ?_; intro _ _ _)
    | rfl
    | split

end Sys2Proof.Machine
end

