-- ==== Sys2Proof/Laws/KeepsManagement.lean ====
section
/-! SUPPORT. What the operations of Machine/Management.lean keep (see Laws/Keeps.lean). -/
namespace Sys2Proof.Machine

theorem State.blockRead_keeps {σ : State} {s : State} {bs : List Byte} (hk : Keeps σ s) :
    Keeps σ (State.blockRead s bs) := by
  unfold State.blockRead
  repeat' first
    | with_reducible exact hk
    | with_reducible assumption
    | rfl
    | split
    | dsimp only
    | fail_if_no_progress with_reducible refine Keeps.mk_of ?_ ?_

theorem State.alertRead_keeps {σ : State} {s : State} {hi : Bool} (hk : Keeps σ s) :
    Keeps σ (State.alertRead s hi) := by
  unfold State.alertRead
  repeat' first
    | with_reducible exact hk
    | with_reducible assumption
    | rfl
    | split
    | dsimp only
    | fail_if_no_progress with_reducible refine Keeps.mk_of ?_ ?_

theorem State.logBlock_keeps {σ : State} {s : State} {x : Option LogRec} (hk : Keeps σ s) :
    Keeps σ (State.logBlock s x) := by
  unfold State.logBlock
  repeat' first
    | with_reducible exact hk
    | with_reducible assumption
    | with_reducible apply State.blockRead_keeps
    | rfl
    | split
    | dsimp only
    | fail_if_no_progress with_reducible refine Keeps.mk_of ?_ ?_

end Sys2Proof.Machine
end

