-- ==== Sys2Proof/Laws/KeepsTick.lean ====
section
/-! SUPPORT. What the operations of Machine/Tick.lean keep (see Laws/Keeps.lean). -/
namespace Sys2Proof.Machine

theorem State.applyObjWrite_keeps {σ : State} {s : State} {c o : Nat} {bs : List Byte} {send : Bool} (hk : Keeps σ s) :
    Keeps σ (State.applyObjWrite s c o bs send) := by
  unfold State.applyObjWrite
  repeat' first
    | with_reducible exact hk
    | with_reducible assumption
    | with_reducible apply State.requestSend_keeps
    | with_reducible apply State.writePayload_keeps
    | rfl
    | split

theorem State.applyObjSend_keeps {σ : State} {s : State} {c o : Nat} (hk : Keeps σ s) :
    Keeps σ (State.applyObjSend s c o) := by
  unfold State.applyObjSend
  repeat' first
    | with_reducible exact hk
    | with_reducible assumption
    | with_reducible apply State.requestSend_keeps
    | rfl
    | split

theorem State.applyAxItem_keeps {σ : State} {s : State} {it : InItem} (hk : Keeps σ s) :
    Keeps σ (State.applyAxItem s it) := by
  unfold State.applyAxItem
  repeat' first
    | with_reducible exact hk
    | with_reducible assumption
    | with_reducible apply State.axCmdItem_keeps
    | with_reducible apply State.axStreamItem_keeps
    | with_reducible apply State.newPayload_keeps
    | rfl
    | split
    | dsimp only

theorem State.applyOne_keeps {σ : State} {s : State} {it : InItem} (hk : Keeps σ s) :
    Keeps σ (State.applyOne s it) := by
  unfold State.applyOne
  repeat' first
    | with_reducible exact hk
    | with_reducible assumption
    | with_reducible apply State.applyAxItem_keeps
    | with_reducible apply State.applyObjSend_keeps
    | with_reducible apply State.applyObjWrite_keeps
    | with_reducible apply State.telegram_keeps
    | rfl
    | split

theorem State.handle_keeps {σ : State} {s : State} {core : Nat} {it : InItem} (hk : Keeps σ s) :
    Keeps σ (State.handle s core it) := by
  unfold State.handle
  repeat' first
    | with_reducible exact hk
    | with_reducible assumption
    | with_reducible apply State.applyOne_keeps
    | with_reducible apply State.applySigWrite_keeps
    | rfl
    | split
    | dsimp only
    | fail_if_no_progress with_reducible refine Keeps.mk_of ?_ ?_

theorem State.handled_keeps {σ : State} {s : State} {src : Nat} {it : InItem} (hk : Keeps σ s) :
    Keeps σ (State.handled s src it) := by
  unfold State.handled
  repeat' first
    | with_reducible exact hk
    | with_reducible assumption
    | with_reducible apply State.applyOne_keeps
    | with_reducible apply State.applySigWrite_keeps
    | (with_reducible refine foldl_keeps ?_ ?_; intro _ _ _)
    | rfl
    | split

theorem State.badItem_keeps {σ : State} {s : State} {q : Nat} {at_ : W32} {ty : Nat} {reason : Nat} {whole : Bool} (hk : Keeps σ s) :
    Keeps σ (State.badItem s q at_ ty reason whole) := by
  unfold State.badItem
  repeat' first
    | with_reducible exact hk
    | with_reducible assumption
    | with_reducible apply State.event_keeps
    | with_reducible apply State.modQueue_keeps
    | with_reducible apply State.raiseU_keeps
    | with_reducible apply State.refreshPage_keeps

theorem State.takeItem_keeps {σ : State} {s : State} {q : Nat} (hk : Keeps σ s) :
    Keeps σ (State.takeItem s q) := by
  unfold State.takeItem
  repeat' first
    | with_reducible exact hk
    | with_reducible assumption
    | with_reducible apply State.badItem_keeps
    | with_reducible apply State.handle_keeps
    | with_reducible apply State.modQueue_keeps
    | with_reducible refine ite_keeps (fun _ => ?_) (fun _ => ?_)
    | rfl
    | split

theorem State.h2dDone_keeps {σ : State} {s : State} {q : Nat} (hk : Keeps σ s) :
    Keeps σ (State.h2dDone s q) := by
  unfold State.h2dDone
  repeat' first
    | with_reducible exact hk
    | with_reducible assumption
    | with_reducible apply State.fire_keeps
    | rfl
    | split

theorem State.takeItems_keeps {σ : State} {s : State} {q : Nat} {n' : Nat} (hk : Keeps σ s) :
    Keeps σ (State.takeItems s q n') := by
  induction n' generalizing s with
  | zero => exact hk
  | succ n' ih =>
    unfold State.takeItems
    repeat' first
    | with_reducible exact hk
    | with_reducible assumption
    | with_reducible apply ih
    | with_reducible apply State.takeItem_keeps

theorem State.batch_keeps {σ : State} {s : State} {q : Nat} (hk : Keeps σ s) :
    Keeps σ (State.batch s q) := by
  unfold State.batch
  repeat' first
    | with_reducible exact hk
    | with_reducible assumption
    | with_reducible apply State.h2dDone_keeps
    | with_reducible apply State.refreshPage_keeps
    | with_reducible apply State.takeItems_keeps
    | with_reducible refine ite_keeps (fun _ => ?_) (fun _ => ?_)

theorem State.each_keeps {σ s : State} {n : Nat} {f : State → Nat → State}
    (step : ∀ x a, Keeps σ x → Keeps σ (f x a)) (hk : Keeps σ s) : Keeps σ (State.each s n f) :=
  foldl_keeps step hk

theorem State.applyUpdate_keeps {σ : State} {s : State} {u : Update} (hk : Keeps σ s) :
    Keeps σ (State.applyUpdate s u) := by
  unfold State.applyUpdate
  repeat' first
    | with_reducible exact hk
    | with_reducible assumption
    | with_reducible apply State.applyFallback_keeps
    | with_reducible apply State.fallbackOver_keeps
    | with_reducible apply State.fellBack_keeps
    | with_reducible apply State.handedOver_keeps
    | with_reducible apply State.setNow_keeps
    | with_reducible refine ite_keeps (fun _ => ?_) (fun _ => ?_)
    | rfl
    | split

theorem State.answerUpdates_keeps {σ : State} {s : State} (hk : Keeps σ s) :
    Keeps σ (State.answerUpdates s) := by
  unfold State.answerUpdates
  repeat' first
    | with_reducible exact hk
    | with_reducible assumption
    | with_reducible apply State.finish_keeps
    | with_reducible refine ite_keeps (fun _ => ?_) (fun _ => ?_)
    | (with_reducible refine foldl_keeps ?_ ?_; intro _ _ _)

theorem State.tickUpdates_keeps {σ : State} {s : State} (hk : Keeps σ s) :
    Keeps σ (State.tickUpdates s) := by
  unfold State.tickUpdates
  repeat' first
    | with_reducible exact hk
    | with_reducible assumption
    | with_reducible apply State.answerUpdates_keeps
    | with_reducible apply State.applyUpdate_keeps
    | with_reducible apply State.ring_keeps
    | with_reducible refine ite_keeps (fun _ => ?_) (fun _ => ?_)
    | (with_reducible refine foldl_keeps ?_ ?_; intro _ _ _)
    | rfl
    | split
    | dsimp only
    | fail_if_no_progress with_reducible refine Keeps.mk_of ?_ ?_

theorem State.passTick_keeps {σ : State} {s : State} {c : Nat} (hk : Keeps σ s) :
    Keeps σ (State.passTick s c) := by
  unfold State.passTick
  repeat' first
    | with_reducible exact hk
    | with_reducible assumption
    | with_reducible apply State.finish_keeps
    | with_reducible apply State.requalEvent_keeps
    | with_reducible apply State.requalPass_keeps
    | with_reducible refine ite_keeps (fun _ => ?_) (fun _ => ?_)
    | rfl
    | split
    | dsimp only

theorem State.tickSwitch_keeps {σ : State} {s : State} (hk : Keeps σ s) :
    Keeps σ (State.tickSwitch s) := by
  unfold State.tickSwitch
  repeat' first
    | with_reducible exact hk
    | with_reducible assumption
    | with_reducible apply State.applyCore_keeps
    | with_reducible apply State.handover_keeps
    | with_reducible apply State.passTick_keeps
    | with_reducible apply State.stepTime_keeps
    | with_reducible apply State.switchAll_keeps
    | with_reducible apply State.tickUpdates_keeps
    | with_reducible refine ite_keeps (fun _ => ?_) (fun _ => ?_)
    | (with_reducible refine State.each_keeps ?_ ?_; intro _ _ _)

theorem State.tickItems_keeps {σ : State} {s : State} (hk : Keeps σ s) :
    Keeps σ (State.tickItems s) := by
  unfold State.tickItems
  repeat' first
    | with_reducible exact hk
    | with_reducible assumption
    | with_reducible apply State.batch_keeps
    | with_reducible apply State.writeDeferred_keeps
    | (with_reducible refine State.each_keeps ?_ ?_; intro _ _ _)
    | (with_reducible refine foldl_keeps ?_ ?_; intro _ _ _)
    | rfl
    | split

theorem State.handedFrom_keeps {σ : State} {s : State} {src : Nat} {h : Handoff} (hk : Keeps σ s) :
    Keeps σ (State.handedFrom s src h) := by
  unfold State.handedFrom
  repeat' first
    | with_reducible exact hk
    | with_reducible assumption
    | with_reducible apply State.handled_keeps
    | with_reducible apply State.writeOut_keeps
    | rfl
    | split

theorem State.tickHanded_keeps {σ : State} {s : State} {hs : List Handoff} (hk : Keeps σ s) :
    Keeps σ (State.tickHanded s hs) := by
  unfold State.tickHanded
  repeat' first
    | with_reducible exact hk
    | with_reducible assumption
    | with_reducible apply State.handedFrom_keeps
    | (with_reducible refine State.each_keeps ?_ ?_; intro _ _ _)
    | (with_reducible refine foldl_keeps ?_ ?_; intro _ _ _)

theorem State.tickRings_keeps {σ : State} {s : State} (hk : Keeps σ s) :
    Keeps σ (State.tickRings s) := by
  unfold State.tickRings
  repeat' first
    | with_reducible exact hk
    | with_reducible assumption
    | with_reducible apply State.latchDrain_keeps
    | with_reducible apply State.takeEntries_keeps
    | (with_reducible refine State.each_keeps ?_ ?_; intro _ _ _)

theorem State.tickArm_keeps {σ : State} {s : State} (hk : Keeps σ s) :
    Keeps σ (State.tickArm s) := by
  unfold State.tickArm
  repeat' first
    | with_reducible exact hk
    | with_reducible assumption
    | with_reducible apply State.schedTick_keeps
    | with_reducible refine ite_keeps (fun _ => ?_) (fun _ => ?_)
    | (with_reducible refine State.each_keeps ?_ ?_; intro _ _ _)

theorem State.tickClose_keeps {σ : State} {s : State} (hk : Keeps σ s) :
    Keeps σ (State.tickClose s) := by
  unfold State.tickClose
  repeat' first
    | with_reducible exact hk
    | with_reducible assumption
    | with_reducible apply State.fbCheck_keeps
    | with_reducible apply State.gatewayDue_keeps
    | with_reducible apply State.staleCheck_keeps
    | with_reducible refine ite_keeps (fun _ => ?_) (fun _ => ?_)
    | (with_reducible refine State.each_keeps ?_ ?_; intro _ _ _)

theorem State.tickWork_keeps {σ : State} {s : State} (hk : Keeps σ s) : Keeps σ (State.tickWork s) :=
  State.tickClose_keeps (State.tickArm_keeps (State.tickRings_keeps (State.tickHanded_keeps (State.tickItems_keeps
    (Keeps.mk_of (State.tickSwitch_keeps (State.grantTick_keeps (Keeps.mk_of hk (by rfl)))) (by rfl))))))

end Sys2Proof.Machine
end

