-- ==== Sys2Proof/WellFormed.lean ====
section
/-! DEFINITION. Well-formed commands: operands within what the ports, the buses and the pins can carry. -/
namespace Sys2Proof

/-- A request fits its slot: at most 496 bytes of data (R83). -/
def Mbox.wf (m : Mbox) : Bool := m.rq.data.length ≤ 496

/-- The id word of Table 7.1: bits 30:29 zero, and a base identifier has bits 28:11 zero. -/
def idWordOk (v : Nat) : Bool :=
  v / 0x20000000 % 4 = 0 && v < 0x100000000 && (v / 0x80000000 = 1 || v % 0x20000000 < 0x800)

/-- The payload length of a DLC (Table 5.2). -/
def dlcLen (k : FrameKind) (dlc : Nat) : Nat :=
  match k with
  | .cc => min 8 dlc
  | .fd => if dlc ≤ 8 then dlc else ([12, 16, 20, 24, 32, 48, 64][dlc - 9]?).getD 64
  | .xl => dlc + 1

/-- A received frame agrees with Table 5.2 and Table 7.1: its identifier word, its DLC and its payload. -/
def RxFrame.wf (f : RxFrame) : Bool :=
  idWordOk f.id.toNat && f.dlc ≤ (match f.kind with | .xl => 2047 | _ => 15) &&
    f.payload.length = (if f.rtr then 0 else dlcLen f.kind f.dlc) && (!f.rtr || f.kind = .cc)

/-- A data phase carries at most 4,096 bytes before R74 ends it; an access names at most that many. -/
def Access.wf (a : Access) : Bool :=
  a.offset < 0x8000000 &&
    (match a.phase with | .read n => n ≤ 8192 | .write bs => bs.length ≤ 8192)

/-- Rows, channels and units that a boot self-test names exist (R402). -/
def BootObs.wf (o : BootObs) : Bool :=
  o.badRows.all (fun x => x.1 < 16 && x.2 < 1024) && o.badChans.all (· < 32) && o.badUnits.all (· < 2) &&
    o.took ≤ 200000000

/-- True for a PCIe link or port. -/
def Port.isLink (p : Port) : Bool :=
  match p with
  | .pa | .pa0 | .pa1 | .pb | .pb0 | .pb1 => true
  | .none | .qa | .qb => false

/-- A sample holds the slack of the seven domains (Table 14.1). -/
def Sample.wf (x : Sample) : Bool := x.slack.length = 7

/-- A lane lies in the 32 MiB store (R116). -/
def LaneError.wf (e : LaneError) : Bool := e.lane < 0x400000

/-- The checks of every command. -/
def Instr.wf (i : Instr) : Bool :=
  match i with
  | .getInfo _ m => m.wf
  | .partStatus _ m => m.wf
  | .partReset _ m => m.wf
  | .rightsGrant _ m => m.wf
  | .rightsRevoke _ m => m.wf
  | .rightsList _ m => m.wf
  | .paramSet _ m => m.wf
  | .paramGet _ m => m.wf
  | .paramLookup _ m => m.wf
  | .epochCommit _ m => m.wf
  | .epochStatus _ m => m.wf
  | .epochCancel _ m => m.wf
  | .stageDiscard _ m => m.wf
  | .admitReport _ m => m.wf
  | .chanOpen _ m => m.wf
  | .chanClose _ m => m.wf
  | .chanConfig _ m => m.wf
  | .chanMode _ m => m.wf
  | .chanStatus _ m => m.wf
  | .chanRecover _ m => m.wf
  | .chanRetire _ m => m.wf
  | .chanDiag _ m => m.wf
  | .chanCollideClear _ m => m.wf
  | .objDefine _ m => m.wf
  | .objRead _ m => m.wf
  | .ruleStage _ m => m.wf
  | .ruleRead _ m => m.wf
  | .filtStatus _ m => m.wf
  | .lcRead _ m => m.wf
  | .lcStart _ m => m.wf
  | .lcStop _ m => m.wf
  | .lcSet _ m => m.wf
  | .timeDiscipline _ m => m.wf
  | .latStatus _ m => m.wf
  | .syncStatus _ m => m.wf
  | .schedStage _ m => m.wf
  | .schedClear _ m => m.wf
  | .schedRead _ m => m.wf
  | .schedStatus _ m => m.wf
  | .sigStage _ m => m.wf
  | .sigClear _ m => m.wf
  | .sigRead _ m => m.wf
  | .sigStatus _ m => m.wf
  | .axDefine _ m => m.wf
  | .axStart _ m => m.wf
  | .axStop _ m => m.wf
  | .axStatus _ m => m.wf
  | .qOpen _ m => m.wf
  | .qClose _ m => m.wf
  | .qFlush _ m => m.wf
  | .qStatus _ m => m.wf
  | .storeStatus _ m => m.wf
  | .faultSummary _ m => m.wf
  | .faultRead _ m => m.wf
  | .faultClear _ m => m.wf
  | .faultRequalify _ m => m.wf
  | .faultInject _ m => m.wf
  | .logRead _ m => m.wf
  | .faultPinRelease _ m => m.wf
  | .bootStatus _ m => m.wf
  | .bootRecords _ m => m.wf
  | .fwLoad _ m => m.wf
  | .fwSelect _ m => m.wf
  | .bootClearFailures _ m => m.wf
  | .devRestart _ m => m.wf
  | .budgetStatus _ m => m.wf
  | .ageReport _ m => m.wf
  | .ageHistory _ m => m.wf
  | .ageClearHist _ m => m.wf
  | .mgId _ => true
  | .mgState _ => true
  | .mgFaultLo _ => true
  | .mgFaultHi _ => true
  | .mgLatchedLo _ => true
  | .mgLatchedHi _ => true
  | .mgMargin _ => true
  | .mgLogNewest _ => true
  | .mgLogPrev _ => true
  | .alertResponse _ _ => true
  | .dbQueueH2d _ _ _ => true
  | .dbQueueD2h _ _ _ => true
  | .evtTailWrite _ _ _ => true
  | .hbWrite _ _ _ => true
  | .presetKey _ _ _ => true
  | .apSelect _ _ _ _ => true
  | .errCountRead _ _ => true
  | .irqEnableWrite _ _ _ => true
  | .registerWrite _ _ off_ bytes => bytes.length ≤ 512 && off_ < 0x4000
  | .storeWindowAccess _ a => a.wf
  | .powerOnReset _ _ o => o.wf
  | .porstNFall _ => true
  | .powerFail _ => true
  | .deviceReset _ o => o.wf
  | .readyTimeout _ => true
  | .watchdog _ _ => true
  | .functionLevelReset _ _ => true
  | .hotReset _ link => link.isLink
  | .linkDown _ link => link.isLink
  | .partitionResetDone _ _ => true
  | .hbLate _ _ => true
  | .hbExpired _ _ => true
  | .dispatchTick _ => true
  | .tokenRefill _ => true
  | .objWrite _ _ => true
  | .objSend _ _ => true
  | .sigWrite _ _ => true
  | .axStream _ _ => true
  | .axCmd _ _ => true
  | .angleTel _ _ => true
  | .frameReceived _ _ f => f.wf
  | .ringEntry _ _ => true
  | .signalUnpack _ _ => true
  | .signalPack _ _ _ => true
  | .deferredPayloadWrite _ _ _ => true
  | .txSuccess _ _ _ => true
  | .arbitrationLost _ _ _ _ _ => true
  | .busError _ _ _ => true
  | .protocolException _ _ => true
  | .boffDelayExpired _ _ => true
  | .recoveryDone _ _ => true
  | .loneEnter _ _ => true
  | .loneProbe _ _ => true
  | .stuckDominant _ _ => true
  | .loopDelayWindow _ _ => true
  | .pinReadback _ _ _ => true
  | .chanRetired _ _ => true
  | .twinHandover _ _ => true
  | .requalifyDone _ _ _ _ _ => true
  | .sleepEnter _ _ => true
  | .busWake _ _ _ => true
  | .wakeTimeExpired _ _ => true
  | .integrationDone _ _ => true
  | .chanOpenTimeout _ _ => true
  | .modeChangeApplied _ _ => true
  | .epochSwitch _ _ => true
  | .timingApplied _ _ => true
  | .samplePointMove _ _ => true
  | .firingTargetUpdate _ _ => true
  | .scheduledFire _ _ _ _ => true
  | .armFire _ _ _ _ => true
  | .refMessage _ _ _ _ => true
  | .occurrenceMissed _ _ => true
  | .schedReport _ _ => true
  | .encCount _ _ _ => true
  | .indexPulse _ _ => true
  | .ssiWord _ _ _ => true
  | .standstillTimeout _ _ => true
  | .telegramTimeout _ _ => true
  | .holdoverExpired _ _ => true
  | .estimatorRecord _ _ => true
  | .timeStep _ => true
  | .latchEdge _ _ _ => true
  | .syncPulse _ _ _ _ _ => true
  | .syncPulseEnd _ _ => true
  | .readTimeoutExpired _ _ => true
  | .scrub _ errors _ => errors.all LaneError.wf
  | .faultOccurrence _ _ _ => true
  | .invalidPair _ _ => true
  | .faultLineClear _ _ => true
  | .graceExpired _ _ => true
  | .quietTimeExpired _ _ => true
  | .chipReset _ => true
  | .injectDone _ _ => true
  | .fwLoadDone _ => true
  | .aliveRenewal _ => true
  | .aliveRenewalMissed _ => true
  | .monitorSample _ x => x.wf
  | .plan _ => true
  | .coreFreqChange _ => true
  | .historySummary _ => true
  | .ksScan _ _ => true
  | .pulseMissing _ _ => true
  | .timeSlewDone _ => true
  | .exclusiveWindowEnd _ _ => true
  | .schedBoundaryCrossed _ _ => true
  | .estimatedDirectionChange _ _ => true
  | .linkUp _ link => link.isLink
  | .ioRailWindowChange _ _ _ => true
  | .tapInstructionUpdate _ _ => true

/-- The ANG cycles that pass before a command takes effect. -/
def Instr.dt (i : Instr) : Nat :=
  match i with
  | .getInfo dt _ => dt
  | .partStatus dt _ => dt
  | .partReset dt _ => dt
  | .rightsGrant dt _ => dt
  | .rightsRevoke dt _ => dt
  | .rightsList dt _ => dt
  | .paramSet dt _ => dt
  | .paramGet dt _ => dt
  | .paramLookup dt _ => dt
  | .epochCommit dt _ => dt
  | .epochStatus dt _ => dt
  | .epochCancel dt _ => dt
  | .stageDiscard dt _ => dt
  | .admitReport dt _ => dt
  | .chanOpen dt _ => dt
  | .chanClose dt _ => dt
  | .chanConfig dt _ => dt
  | .chanMode dt _ => dt
  | .chanStatus dt _ => dt
  | .chanRecover dt _ => dt
  | .chanRetire dt _ => dt
  | .chanDiag dt _ => dt
  | .chanCollideClear dt _ => dt
  | .objDefine dt _ => dt
  | .objRead dt _ => dt
  | .ruleStage dt _ => dt
  | .ruleRead dt _ => dt
  | .filtStatus dt _ => dt
  | .lcRead dt _ => dt
  | .lcStart dt _ => dt
  | .lcStop dt _ => dt
  | .lcSet dt _ => dt
  | .timeDiscipline dt _ => dt
  | .latStatus dt _ => dt
  | .syncStatus dt _ => dt
  | .schedStage dt _ => dt
  | .schedClear dt _ => dt
  | .schedRead dt _ => dt
  | .schedStatus dt _ => dt
  | .sigStage dt _ => dt
  | .sigClear dt _ => dt
  | .sigRead dt _ => dt
  | .sigStatus dt _ => dt
  | .axDefine dt _ => dt
  | .axStart dt _ => dt
  | .axStop dt _ => dt
  | .axStatus dt _ => dt
  | .qOpen dt _ => dt
  | .qClose dt _ => dt
  | .qFlush dt _ => dt
  | .qStatus dt _ => dt
  | .storeStatus dt _ => dt
  | .faultSummary dt _ => dt
  | .faultRead dt _ => dt
  | .faultClear dt _ => dt
  | .faultRequalify dt _ => dt
  | .faultInject dt _ => dt
  | .logRead dt _ => dt
  | .faultPinRelease dt _ => dt
  | .bootStatus dt _ => dt
  | .bootRecords dt _ => dt
  | .fwLoad dt _ => dt
  | .fwSelect dt _ => dt
  | .bootClearFailures dt _ => dt
  | .devRestart dt _ => dt
  | .budgetStatus dt _ => dt
  | .ageReport dt _ => dt
  | .ageHistory dt _ => dt
  | .ageClearHist dt _ => dt
  | .mgId dt => dt
  | .mgState dt => dt
  | .mgFaultLo dt => dt
  | .mgFaultHi dt => dt
  | .mgLatchedLo dt => dt
  | .mgLatchedHi dt => dt
  | .mgMargin dt => dt
  | .mgLogNewest dt => dt
  | .mgLogPrev dt => dt
  | .alertResponse dt _ => dt
  | .dbQueueH2d dt _ _ => dt
  | .dbQueueD2h dt _ _ => dt
  | .evtTailWrite dt _ _ => dt
  | .hbWrite dt _ _ => dt
  | .presetKey dt _ _ => dt
  | .apSelect dt _ _ _ => dt
  | .errCountRead dt _ => dt
  | .irqEnableWrite dt _ _ => dt
  | .registerWrite dt _ _ _ => dt
  | .storeWindowAccess dt _ => dt
  | .powerOnReset dt _ _ => dt
  | .porstNFall dt => dt
  | .powerFail dt => dt
  | .deviceReset dt _ => dt
  | .readyTimeout dt => dt
  | .watchdog dt _ => dt
  | .functionLevelReset dt _ => dt
  | .hotReset dt _ => dt
  | .linkDown dt _ => dt
  | .partitionResetDone dt _ => dt
  | .hbLate dt _ => dt
  | .hbExpired dt _ => dt
  | .dispatchTick dt => dt
  | .tokenRefill dt => dt
  | .objWrite dt _ => dt
  | .objSend dt _ => dt
  | .sigWrite dt _ => dt
  | .axStream dt _ => dt
  | .axCmd dt _ => dt
  | .angleTel dt _ => dt
  | .frameReceived dt _ _ => dt
  | .ringEntry dt _ => dt
  | .signalUnpack dt _ => dt
  | .signalPack dt _ _ => dt
  | .deferredPayloadWrite dt _ _ => dt
  | .txSuccess dt _ _ => dt
  | .arbitrationLost dt _ _ _ _ => dt
  | .busError dt _ _ => dt
  | .protocolException dt _ => dt
  | .boffDelayExpired dt _ => dt
  | .recoveryDone dt _ => dt
  | .loneEnter dt _ => dt
  | .loneProbe dt _ => dt
  | .stuckDominant dt _ => dt
  | .loopDelayWindow dt _ => dt
  | .pinReadback dt _ _ => dt
  | .chanRetired dt _ => dt
  | .twinHandover dt _ => dt
  | .requalifyDone dt _ _ _ _ => dt
  | .sleepEnter dt _ => dt
  | .busWake dt _ _ => dt
  | .wakeTimeExpired dt _ => dt
  | .integrationDone dt _ => dt
  | .chanOpenTimeout dt _ => dt
  | .modeChangeApplied dt _ => dt
  | .epochSwitch dt _ => dt
  | .timingApplied dt _ => dt
  | .samplePointMove dt _ => dt
  | .firingTargetUpdate dt _ => dt
  | .scheduledFire dt _ _ _ => dt
  | .armFire dt _ _ _ => dt
  | .refMessage dt _ _ _ => dt
  | .occurrenceMissed dt _ => dt
  | .schedReport dt _ => dt
  | .encCount dt _ _ => dt
  | .indexPulse dt _ => dt
  | .ssiWord dt _ _ => dt
  | .standstillTimeout dt _ => dt
  | .telegramTimeout dt _ => dt
  | .holdoverExpired dt _ => dt
  | .estimatorRecord dt _ => dt
  | .timeStep dt => dt
  | .latchEdge dt _ _ => dt
  | .syncPulse dt _ _ _ _ => dt
  | .syncPulseEnd dt _ => dt
  | .readTimeoutExpired dt _ => dt
  | .scrub dt _ _ => dt
  | .faultOccurrence dt _ _ => dt
  | .invalidPair dt _ => dt
  | .faultLineClear dt _ => dt
  | .graceExpired dt _ => dt
  | .quietTimeExpired dt _ => dt
  | .chipReset dt => dt
  | .injectDone dt _ => dt
  | .fwLoadDone dt => dt
  | .aliveRenewal dt => dt
  | .aliveRenewalMissed dt => dt
  | .monitorSample dt _ => dt
  | .plan dt => dt
  | .coreFreqChange dt => dt
  | .historySummary dt => dt
  | .ksScan dt _ => dt
  | .pulseMissing dt _ => dt
  | .timeSlewDone dt => dt
  | .exclusiveWindowEnd dt _ => dt
  | .schedBoundaryCrossed dt _ => dt
  | .estimatedDirectionChange dt _ => dt
  | .linkUp dt _ => dt
  | .ioRailWindowChange dt _ _ => dt
  | .tapInstructionUpdate dt _ => dt

/-- The same command after another number of ANG cycles. -/
def Instr.setDt (d : Nat) (i : Instr) : Instr :=
  match i with
  | .getInfo _ m => .getInfo d m
  | .partStatus _ m => .partStatus d m
  | .partReset _ m => .partReset d m
  | .rightsGrant _ m => .rightsGrant d m
  | .rightsRevoke _ m => .rightsRevoke d m
  | .rightsList _ m => .rightsList d m
  | .paramSet _ m => .paramSet d m
  | .paramGet _ m => .paramGet d m
  | .paramLookup _ m => .paramLookup d m
  | .epochCommit _ m => .epochCommit d m
  | .epochStatus _ m => .epochStatus d m
  | .epochCancel _ m => .epochCancel d m
  | .stageDiscard _ m => .stageDiscard d m
  | .admitReport _ m => .admitReport d m
  | .chanOpen _ m => .chanOpen d m
  | .chanClose _ m => .chanClose d m
  | .chanConfig _ m => .chanConfig d m
  | .chanMode _ m => .chanMode d m
  | .chanStatus _ m => .chanStatus d m
  | .chanRecover _ m => .chanRecover d m
  | .chanRetire _ m => .chanRetire d m
  | .chanDiag _ m => .chanDiag d m
  | .chanCollideClear _ m => .chanCollideClear d m
  | .objDefine _ m => .objDefine d m
  | .objRead _ m => .objRead d m
  | .ruleStage _ m => .ruleStage d m
  | .ruleRead _ m => .ruleRead d m
  | .filtStatus _ m => .filtStatus d m
  | .lcRead _ m => .lcRead d m
  | .lcStart _ m => .lcStart d m
  | .lcStop _ m => .lcStop d m
  | .lcSet _ m => .lcSet d m
  | .timeDiscipline _ m => .timeDiscipline d m
  | .latStatus _ m => .latStatus d m
  | .syncStatus _ m => .syncStatus d m
  | .schedStage _ m => .schedStage d m
  | .schedClear _ m => .schedClear d m
  | .schedRead _ m => .schedRead d m
  | .schedStatus _ m => .schedStatus d m
  | .sigStage _ m => .sigStage d m
  | .sigClear _ m => .sigClear d m
  | .sigRead _ m => .sigRead d m
  | .sigStatus _ m => .sigStatus d m
  | .axDefine _ m => .axDefine d m
  | .axStart _ m => .axStart d m
  | .axStop _ m => .axStop d m
  | .axStatus _ m => .axStatus d m
  | .qOpen _ m => .qOpen d m
  | .qClose _ m => .qClose d m
  | .qFlush _ m => .qFlush d m
  | .qStatus _ m => .qStatus d m
  | .storeStatus _ m => .storeStatus d m
  | .faultSummary _ m => .faultSummary d m
  | .faultRead _ m => .faultRead d m
  | .faultClear _ m => .faultClear d m
  | .faultRequalify _ m => .faultRequalify d m
  | .faultInject _ m => .faultInject d m
  | .logRead _ m => .logRead d m
  | .faultPinRelease _ m => .faultPinRelease d m
  | .bootStatus _ m => .bootStatus d m
  | .bootRecords _ m => .bootRecords d m
  | .fwLoad _ m => .fwLoad d m
  | .fwSelect _ m => .fwSelect d m
  | .bootClearFailures _ m => .bootClearFailures d m
  | .devRestart _ m => .devRestart d m
  | .budgetStatus _ m => .budgetStatus d m
  | .ageReport _ m => .ageReport d m
  | .ageHistory _ m => .ageHistory d m
  | .ageClearHist _ m => .ageClearHist d m
  | .mgId _ => .mgId d
  | .mgState _ => .mgState d
  | .mgFaultLo _ => .mgFaultLo d
  | .mgFaultHi _ => .mgFaultHi d
  | .mgLatchedLo _ => .mgLatchedLo d
  | .mgLatchedHi _ => .mgLatchedHi d
  | .mgMargin _ => .mgMargin d
  | .mgLogNewest _ => .mgLogNewest d
  | .mgLogPrev _ => .mgLogPrev d
  | .alertResponse _ wins => .alertResponse d wins
  | .dbQueueH2d _ w q => .dbQueueH2d d w q
  | .dbQueueD2h _ w q => .dbQueueD2h d w q
  | .evtTailWrite _ w value => .evtTailWrite d w value
  | .hbWrite _ w value => .hbWrite d w value
  | .presetKey _ w value => .presetKey d w value
  | .apSelect _ w n value => .apSelect d w n value
  | .errCountRead _ w => .errCountRead d w
  | .irqEnableWrite _ w value => .irqEnableWrite d w value
  | .registerWrite _ w offset bytes => .registerWrite d w offset bytes
  | .storeWindowAccess _ a => .storeWindowAccess d a
  | .powerOnReset _ straps o => .powerOnReset d straps o
  | .porstNFall _ => .porstNFall d
  | .powerFail _ => .powerFail d
  | .deviceReset _ o => .deviceReset d o
  | .readyTimeout _ => .readyTimeout d
  | .watchdog _ core => .watchdog d core
  | .functionLevelReset _ p => .functionLevelReset d p
  | .hotReset _ link => .hotReset d link
  | .linkDown _ link => .linkDown d link
  | .partitionResetDone _ p => .partitionResetDone d p
  | .hbLate _ p => .hbLate d p
  | .hbExpired _ p => .hbExpired d p
  | .dispatchTick _ => .dispatchTick d
  | .tokenRefill _ => .tokenRefill d
  | .objWrite _ q => .objWrite d q
  | .objSend _ q => .objSend d q
  | .sigWrite _ q => .sigWrite d q
  | .axStream _ q => .axStream d q
  | .axCmd _ q => .axCmd d q
  | .angleTel _ q => .angleTel d q
  | .frameReceived _ c f => .frameReceived d c f
  | .ringEntry _ c => .ringEntry d c
  | .signalUnpack _ unit => .signalUnpack d unit
  | .signalPack _ c o => .signalPack d c o
  | .deferredPayloadWrite _ c o => .deferredPayloadWrite d c o
  | .txSuccess _ c e => .txSuccess d c e
  | .arbitrationLost _ c what sof winner => .arbitrationLost d c what sof winner
  | .busError _ c e => .busError d c e
  | .protocolException _ c => .protocolException d c
  | .boffDelayExpired _ c => .boffDelayExpired d c
  | .recoveryDone _ c => .recoveryDone d c
  | .loneEnter _ c => .loneEnter d c
  | .loneProbe _ c => .loneProbe d c
  | .stuckDominant _ x => .stuckDominant d x
  | .loopDelayWindow _ c => .loopDelayWindow d c
  | .pinReadback _ c pad => .pinReadback d c pad
  | .chanRetired _ c => .chanRetired d c
  | .twinHandover _ c => .twinHandover d c
  | .requalifyDone _ r result loopMin loopMax => .requalifyDone d r result loopMin loopMax
  | .sleepEnter _ c => .sleepEnter d c
  | .busWake _ c fell => .busWake d c fell
  | .wakeTimeExpired _ c => .wakeTimeExpired d c
  | .integrationDone _ c => .integrationDone d c
  | .chanOpenTimeout _ c => .chanOpenTimeout d c
  | .modeChangeApplied _ c => .modeChangeApplied d c
  | .epochSwitch _ id => .epochSwitch d id
  | .timingApplied _ c => .timingApplied d c
  | .samplePointMove _ c => .samplePointMove d c
  | .firingTargetUpdate _ c => .firingTargetUpdate d c
  | .scheduledFire _ c sof blocker => .scheduledFire d c sof blocker
  | .armFire _ c sof readbackOk => .armFire d c sof readbackOk
  | .refMessage _ c started readbackOk => .refMessage d c started readbackOk
  | .occurrenceMissed _ c => .occurrenceMissed d c
  | .schedReport _ c => .schedReport d c
  | .encCount _ n e => .encCount d n e
  | .indexPulse _ n => .indexPulse d n
  | .ssiWord _ n r => .ssiWord d n r
  | .standstillTimeout _ n => .standstillTimeout d n
  | .telegramTimeout _ n => .telegramTimeout d n
  | .holdoverExpired _ n => .holdoverExpired d n
  | .estimatorRecord _ n => .estimatorRecord d n
  | .timeStep _ => .timeStep d
  | .latchEdge _ i falling => .latchEdge d i falling
  | .syncPulse _ i position backward wiringOk => .syncPulse d i position backward wiringOk
  | .syncPulseEnd _ i => .syncPulseEnd d i
  | .readTimeoutExpired _ q => .readTimeoutExpired d q
  | .scrub _ errors passEnd => .scrub d errors passEnd
  | .faultOccurrence _ s o => .faultOccurrence d s o
  | .invalidPair _ s => .invalidPair d s
  | .faultLineClear _ s => .faultLineClear d s
  | .graceExpired _ s => .graceExpired d s
  | .quietTimeExpired _ s => .quietTimeExpired d s
  | .chipReset _ => .chipReset d
  | .injectDone _ residual => .injectDone d residual
  | .fwLoadDone _ => .fwLoadDone d
  | .aliveRenewal _ => .aliveRenewal d
  | .aliveRenewalMissed _ => .aliveRenewalMissed d
  | .monitorSample _ x => .monitorSample d x
  | .plan _ => .plan d
  | .coreFreqChange _ => .coreFreqChange d
  | .historySummary _ => .historySummary d
  | .ksScan _ x => .ksScan d x
  | .pulseMissing _ n => .pulseMissing d n
  | .timeSlewDone _ => .timeSlewDone d
  | .exclusiveWindowEnd _ c => .exclusiveWindowEnd d c
  | .schedBoundaryCrossed _ c => .schedBoundaryCrossed d c
  | .estimatedDirectionChange _ n => .estimatedDirectionChange d n
  | .linkUp _ link => .linkUp d link
  | .ioRailWindowChange _ r inside => .ioRailWindowChange d r inside
  | .tapInstructionUpdate _ i => .tapInstructionUpdate d i

end Sys2Proof
end

