-- ==== Sys2Proof/Laws/PerInstr.lean ====
section
/-! SUPPORT. Statements about every command as syntax, one lemma per constructor. -/
namespace Sys2Proof.Laws.ClockFree

/-- Setting the elapsed time of a command sets it, and well-formedness does not depend on it. -/
def Statement (i : Instr) : Prop := ∀ d, (i.setDt d).dt = d ∧ (i.setDt d).wf = i.wf

theorem getInfo (dt : Nat) (m : Mbox) : Statement (.getInfo dt m) := fun _ => ⟨rfl, rfl⟩
theorem partStatus (dt : Nat) (m : Mbox) : Statement (.partStatus dt m) := fun _ => ⟨rfl, rfl⟩
theorem partReset (dt : Nat) (m : Mbox) : Statement (.partReset dt m) := fun _ => ⟨rfl, rfl⟩
theorem rightsGrant (dt : Nat) (m : Mbox) : Statement (.rightsGrant dt m) := fun _ => ⟨rfl, rfl⟩
theorem rightsRevoke (dt : Nat) (m : Mbox) : Statement (.rightsRevoke dt m) := fun _ => ⟨rfl, rfl⟩
theorem rightsList (dt : Nat) (m : Mbox) : Statement (.rightsList dt m) := fun _ => ⟨rfl, rfl⟩
theorem paramSet (dt : Nat) (m : Mbox) : Statement (.paramSet dt m) := fun _ => ⟨rfl, rfl⟩
theorem paramGet (dt : Nat) (m : Mbox) : Statement (.paramGet dt m) := fun _ => ⟨rfl, rfl⟩
theorem paramLookup (dt : Nat) (m : Mbox) : Statement (.paramLookup dt m) := fun _ => ⟨rfl, rfl⟩
theorem epochCommit (dt : Nat) (m : Mbox) : Statement (.epochCommit dt m) := fun _ => ⟨rfl, rfl⟩
theorem epochStatus (dt : Nat) (m : Mbox) : Statement (.epochStatus dt m) := fun _ => ⟨rfl, rfl⟩
theorem epochCancel (dt : Nat) (m : Mbox) : Statement (.epochCancel dt m) := fun _ => ⟨rfl, rfl⟩
theorem stageDiscard (dt : Nat) (m : Mbox) : Statement (.stageDiscard dt m) := fun _ => ⟨rfl, rfl⟩
theorem admitReport (dt : Nat) (m : Mbox) : Statement (.admitReport dt m) := fun _ => ⟨rfl, rfl⟩
theorem chanOpen (dt : Nat) (m : Mbox) : Statement (.chanOpen dt m) := fun _ => ⟨rfl, rfl⟩
theorem chanClose (dt : Nat) (m : Mbox) : Statement (.chanClose dt m) := fun _ => ⟨rfl, rfl⟩
theorem chanConfig (dt : Nat) (m : Mbox) : Statement (.chanConfig dt m) := fun _ => ⟨rfl, rfl⟩
theorem chanMode (dt : Nat) (m : Mbox) : Statement (.chanMode dt m) := fun _ => ⟨rfl, rfl⟩
theorem chanStatus (dt : Nat) (m : Mbox) : Statement (.chanStatus dt m) := fun _ => ⟨rfl, rfl⟩
theorem chanRecover (dt : Nat) (m : Mbox) : Statement (.chanRecover dt m) := fun _ => ⟨rfl, rfl⟩
theorem chanRetire (dt : Nat) (m : Mbox) : Statement (.chanRetire dt m) := fun _ => ⟨rfl, rfl⟩
theorem chanDiag (dt : Nat) (m : Mbox) : Statement (.chanDiag dt m) := fun _ => ⟨rfl, rfl⟩
theorem chanCollideClear (dt : Nat) (m : Mbox) : Statement (.chanCollideClear dt m) := fun _ => ⟨rfl, rfl⟩
theorem objDefine (dt : Nat) (m : Mbox) : Statement (.objDefine dt m) := fun _ => ⟨rfl, rfl⟩
theorem objRead (dt : Nat) (m : Mbox) : Statement (.objRead dt m) := fun _ => ⟨rfl, rfl⟩
theorem ruleStage (dt : Nat) (m : Mbox) : Statement (.ruleStage dt m) := fun _ => ⟨rfl, rfl⟩
theorem ruleRead (dt : Nat) (m : Mbox) : Statement (.ruleRead dt m) := fun _ => ⟨rfl, rfl⟩
theorem filtStatus (dt : Nat) (m : Mbox) : Statement (.filtStatus dt m) := fun _ => ⟨rfl, rfl⟩
theorem lcRead (dt : Nat) (m : Mbox) : Statement (.lcRead dt m) := fun _ => ⟨rfl, rfl⟩
theorem lcStart (dt : Nat) (m : Mbox) : Statement (.lcStart dt m) := fun _ => ⟨rfl, rfl⟩
theorem lcStop (dt : Nat) (m : Mbox) : Statement (.lcStop dt m) := fun _ => ⟨rfl, rfl⟩
theorem lcSet (dt : Nat) (m : Mbox) : Statement (.lcSet dt m) := fun _ => ⟨rfl, rfl⟩
theorem timeDiscipline (dt : Nat) (m : Mbox) : Statement (.timeDiscipline dt m) := fun _ => ⟨rfl, rfl⟩
theorem latStatus (dt : Nat) (m : Mbox) : Statement (.latStatus dt m) := fun _ => ⟨rfl, rfl⟩
theorem syncStatus (dt : Nat) (m : Mbox) : Statement (.syncStatus dt m) := fun _ => ⟨rfl, rfl⟩
theorem schedStage (dt : Nat) (m : Mbox) : Statement (.schedStage dt m) := fun _ => ⟨rfl, rfl⟩
theorem schedClear (dt : Nat) (m : Mbox) : Statement (.schedClear dt m) := fun _ => ⟨rfl, rfl⟩
theorem schedRead (dt : Nat) (m : Mbox) : Statement (.schedRead dt m) := fun _ => ⟨rfl, rfl⟩
theorem schedStatus (dt : Nat) (m : Mbox) : Statement (.schedStatus dt m) := fun _ => ⟨rfl, rfl⟩
theorem sigStage (dt : Nat) (m : Mbox) : Statement (.sigStage dt m) := fun _ => ⟨rfl, rfl⟩
theorem sigClear (dt : Nat) (m : Mbox) : Statement (.sigClear dt m) := fun _ => ⟨rfl, rfl⟩
theorem sigRead (dt : Nat) (m : Mbox) : Statement (.sigRead dt m) := fun _ => ⟨rfl, rfl⟩
theorem sigStatus (dt : Nat) (m : Mbox) : Statement (.sigStatus dt m) := fun _ => ⟨rfl, rfl⟩
theorem axDefine (dt : Nat) (m : Mbox) : Statement (.axDefine dt m) := fun _ => ⟨rfl, rfl⟩
theorem axStart (dt : Nat) (m : Mbox) : Statement (.axStart dt m) := fun _ => ⟨rfl, rfl⟩
theorem axStop (dt : Nat) (m : Mbox) : Statement (.axStop dt m) := fun _ => ⟨rfl, rfl⟩
theorem axStatus (dt : Nat) (m : Mbox) : Statement (.axStatus dt m) := fun _ => ⟨rfl, rfl⟩
theorem qOpen (dt : Nat) (m : Mbox) : Statement (.qOpen dt m) := fun _ => ⟨rfl, rfl⟩
theorem qClose (dt : Nat) (m : Mbox) : Statement (.qClose dt m) := fun _ => ⟨rfl, rfl⟩
theorem qFlush (dt : Nat) (m : Mbox) : Statement (.qFlush dt m) := fun _ => ⟨rfl, rfl⟩
theorem qStatus (dt : Nat) (m : Mbox) : Statement (.qStatus dt m) := fun _ => ⟨rfl, rfl⟩
theorem storeStatus (dt : Nat) (m : Mbox) : Statement (.storeStatus dt m) := fun _ => ⟨rfl, rfl⟩
theorem faultSummary (dt : Nat) (m : Mbox) : Statement (.faultSummary dt m) := fun _ => ⟨rfl, rfl⟩
theorem faultRead (dt : Nat) (m : Mbox) : Statement (.faultRead dt m) := fun _ => ⟨rfl, rfl⟩
theorem faultClear (dt : Nat) (m : Mbox) : Statement (.faultClear dt m) := fun _ => ⟨rfl, rfl⟩
theorem faultRequalify (dt : Nat) (m : Mbox) : Statement (.faultRequalify dt m) := fun _ => ⟨rfl, rfl⟩
theorem faultInject (dt : Nat) (m : Mbox) : Statement (.faultInject dt m) := fun _ => ⟨rfl, rfl⟩
theorem logRead (dt : Nat) (m : Mbox) : Statement (.logRead dt m) := fun _ => ⟨rfl, rfl⟩
theorem faultPinRelease (dt : Nat) (m : Mbox) : Statement (.faultPinRelease dt m) := fun _ => ⟨rfl, rfl⟩
theorem bootStatus (dt : Nat) (m : Mbox) : Statement (.bootStatus dt m) := fun _ => ⟨rfl, rfl⟩
theorem bootRecords (dt : Nat) (m : Mbox) : Statement (.bootRecords dt m) := fun _ => ⟨rfl, rfl⟩
theorem fwLoad (dt : Nat) (m : Mbox) : Statement (.fwLoad dt m) := fun _ => ⟨rfl, rfl⟩
theorem fwSelect (dt : Nat) (m : Mbox) : Statement (.fwSelect dt m) := fun _ => ⟨rfl, rfl⟩
theorem bootClearFailures (dt : Nat) (m : Mbox) : Statement (.bootClearFailures dt m) := fun _ => ⟨rfl, rfl⟩
theorem devRestart (dt : Nat) (m : Mbox) : Statement (.devRestart dt m) := fun _ => ⟨rfl, rfl⟩
theorem budgetStatus (dt : Nat) (m : Mbox) : Statement (.budgetStatus dt m) := fun _ => ⟨rfl, rfl⟩
theorem ageReport (dt : Nat) (m : Mbox) : Statement (.ageReport dt m) := fun _ => ⟨rfl, rfl⟩
theorem ageHistory (dt : Nat) (m : Mbox) : Statement (.ageHistory dt m) := fun _ => ⟨rfl, rfl⟩
theorem ageClearHist (dt : Nat) (m : Mbox) : Statement (.ageClearHist dt m) := fun _ => ⟨rfl, rfl⟩
theorem mgId (dt : Nat) : Statement (.mgId dt) := fun _ => ⟨rfl, rfl⟩
theorem mgState (dt : Nat) : Statement (.mgState dt) := fun _ => ⟨rfl, rfl⟩
theorem mgFaultLo (dt : Nat) : Statement (.mgFaultLo dt) := fun _ => ⟨rfl, rfl⟩
theorem mgFaultHi (dt : Nat) : Statement (.mgFaultHi dt) := fun _ => ⟨rfl, rfl⟩
theorem mgLatchedLo (dt : Nat) : Statement (.mgLatchedLo dt) := fun _ => ⟨rfl, rfl⟩
theorem mgLatchedHi (dt : Nat) : Statement (.mgLatchedHi dt) := fun _ => ⟨rfl, rfl⟩
theorem mgMargin (dt : Nat) : Statement (.mgMargin dt) := fun _ => ⟨rfl, rfl⟩
theorem mgLogNewest (dt : Nat) : Statement (.mgLogNewest dt) := fun _ => ⟨rfl, rfl⟩
theorem mgLogPrev (dt : Nat) : Statement (.mgLogPrev dt) := fun _ => ⟨rfl, rfl⟩
theorem alertResponse (dt : Nat) (wins : Bool) : Statement (.alertResponse dt wins) := fun _ => ⟨rfl, rfl⟩
theorem dbQueueH2d (dt : Nat) (w : Via) (q : Fin 64) : Statement (.dbQueueH2d dt w q) := fun _ => ⟨rfl, rfl⟩
theorem dbQueueD2h (dt : Nat) (w : Via) (q : Fin 64) : Statement (.dbQueueD2h dt w q) := fun _ => ⟨rfl, rfl⟩
theorem evtTailWrite (dt : Nat) (w : Via) (value : W32) : Statement (.evtTailWrite dt w value) := fun _ => ⟨rfl, rfl⟩
theorem hbWrite (dt : Nat) (w : Via) (value : W32) : Statement (.hbWrite dt w value) := fun _ => ⟨rfl, rfl⟩
theorem presetKey (dt : Nat) (w : Via) (value : W32) : Statement (.presetKey dt w value) := fun _ => ⟨rfl, rfl⟩
theorem apSelect (dt : Nat) (w : Via) (n : Fin 4) (value : W32) : Statement (.apSelect dt w n value) := fun _ => ⟨rfl, rfl⟩
theorem errCountRead (dt : Nat) (w : Via) : Statement (.errCountRead dt w) := fun _ => ⟨rfl, rfl⟩
theorem irqEnableWrite (dt : Nat) (w : Via) (value : W32) : Statement (.irqEnableWrite dt w value) := fun _ => ⟨rfl, rfl⟩
theorem registerWrite (dt : Nat) (w : Via) (offset : Nat) (bytes : List Byte) : Statement (.registerWrite dt w offset bytes) := fun _ => ⟨rfl, rfl⟩
theorem storeWindowAccess (dt : Nat) (a : Access) : Statement (.storeWindowAccess dt a) := fun _ => ⟨rfl, rfl⟩
theorem powerOnReset (dt : Nat) (straps : Straps) (o : BootObs) : Statement (.powerOnReset dt straps o) := fun _ => ⟨rfl, rfl⟩
theorem porstNFall (dt : Nat) : Statement (.porstNFall dt) := fun _ => ⟨rfl, rfl⟩
theorem powerFail (dt : Nat) : Statement (.powerFail dt) := fun _ => ⟨rfl, rfl⟩
theorem deviceReset (dt : Nat) (o : BootObs) : Statement (.deviceReset dt o) := fun _ => ⟨rfl, rfl⟩
theorem readyTimeout (dt : Nat) : Statement (.readyTimeout dt) := fun _ => ⟨rfl, rfl⟩
theorem watchdog (dt : Nat) (core : Fin 6) : Statement (.watchdog dt core) := fun _ => ⟨rfl, rfl⟩
theorem functionLevelReset (dt : Nat) (p : Fin 8) : Statement (.functionLevelReset dt p) := fun _ => ⟨rfl, rfl⟩
theorem hotReset (dt : Nat) (link : Port) : Statement (.hotReset dt link) := fun _ => ⟨rfl, rfl⟩
theorem linkDown (dt : Nat) (link : Port) : Statement (.linkDown dt link) := fun _ => ⟨rfl, rfl⟩
theorem partitionResetDone (dt : Nat) (p : Fin 8) : Statement (.partitionResetDone dt p) := fun _ => ⟨rfl, rfl⟩
theorem hbLate (dt : Nat) (p : Fin 8) : Statement (.hbLate dt p) := fun _ => ⟨rfl, rfl⟩
theorem hbExpired (dt : Nat) (p : Fin 8) : Statement (.hbExpired dt p) := fun _ => ⟨rfl, rfl⟩
theorem dispatchTick (dt : Nat) : Statement (.dispatchTick dt) := fun _ => ⟨rfl, rfl⟩
theorem tokenRefill (dt : Nat) : Statement (.tokenRefill dt) := fun _ => ⟨rfl, rfl⟩
theorem objWrite (dt : Nat) (q : Fin 64) : Statement (.objWrite dt q) := fun _ => ⟨rfl, rfl⟩
theorem objSend (dt : Nat) (q : Fin 64) : Statement (.objSend dt q) := fun _ => ⟨rfl, rfl⟩
theorem sigWrite (dt : Nat) (q : Fin 64) : Statement (.sigWrite dt q) := fun _ => ⟨rfl, rfl⟩
theorem axStream (dt : Nat) (q : Fin 64) : Statement (.axStream dt q) := fun _ => ⟨rfl, rfl⟩
theorem axCmd (dt : Nat) (q : Fin 64) : Statement (.axCmd dt q) := fun _ => ⟨rfl, rfl⟩
theorem angleTel (dt : Nat) (q : Fin 64) : Statement (.angleTel dt q) := fun _ => ⟨rfl, rfl⟩
theorem frameReceived (dt : Nat) (c : Fin 32) (f : RxFrame) : Statement (.frameReceived dt c f) := fun _ => ⟨rfl, rfl⟩
theorem ringEntry (dt : Nat) (c : Fin 32) : Statement (.ringEntry dt c) := fun _ => ⟨rfl, rfl⟩
theorem signalUnpack (dt : Nat) (unit : Fin 2) : Statement (.signalUnpack dt unit) := fun _ => ⟨rfl, rfl⟩
theorem signalPack (dt : Nat) (c : Fin 32) (o : Fin 128) : Statement (.signalPack dt c o) := fun _ => ⟨rfl, rfl⟩
theorem deferredPayloadWrite (dt : Nat) (c : Fin 32) (o : Fin 128) : Statement (.deferredPayloadWrite dt c o) := fun _ => ⟨rfl, rfl⟩
theorem txSuccess (dt : Nat) (c : Fin 32) (e : TxEnd) : Statement (.txSuccess dt c e) := fun _ => ⟨rfl, rfl⟩
theorem arbitrationLost (dt : Nat) (c : Fin 32) (what : TxWhat) (sof : W64) (winner : W32) : Statement (.arbitrationLost dt c what sof winner) := fun _ => ⟨rfl, rfl⟩
theorem busError (dt : Nat) (c : Fin 32) (e : BusErr) : Statement (.busError dt c e) := fun _ => ⟨rfl, rfl⟩
theorem protocolException (dt : Nat) (c : Fin 32) : Statement (.protocolException dt c) := fun _ => ⟨rfl, rfl⟩
theorem boffDelayExpired (dt : Nat) (c : Fin 32) : Statement (.boffDelayExpired dt c) := fun _ => ⟨rfl, rfl⟩
theorem recoveryDone (dt : Nat) (c : Fin 32) : Statement (.recoveryDone dt c) := fun _ => ⟨rfl, rfl⟩
theorem loneEnter (dt : Nat) (c : Fin 32) : Statement (.loneEnter dt c) := fun _ => ⟨rfl, rfl⟩
theorem loneProbe (dt : Nat) (c : Fin 32) : Statement (.loneProbe dt c) := fun _ => ⟨rfl, rfl⟩
theorem stuckDominant (dt : Nat) (x : CrxdLow) : Statement (.stuckDominant dt x) := fun _ => ⟨rfl, rfl⟩
theorem loopDelayWindow (dt : Nat) (c : Fin 32) : Statement (.loopDelayWindow dt c) := fun _ => ⟨rfl, rfl⟩
theorem pinReadback (dt : Nat) (c : Fin 32) (pad : Pad) : Statement (.pinReadback dt c pad) := fun _ => ⟨rfl, rfl⟩
theorem chanRetired (dt : Nat) (c : Fin 32) : Statement (.chanRetired dt c) := fun _ => ⟨rfl, rfl⟩
theorem twinHandover (dt : Nat) (c : Fin 32) : Statement (.twinHandover dt c) := fun _ => ⟨rfl, rfl⟩
theorem requalifyDone (dt : Nat) (r : Requal) (result loopMin loopMax : Nat) : Statement (.requalifyDone dt r result loopMin loopMax) := fun _ => ⟨rfl, rfl⟩
theorem sleepEnter (dt : Nat) (c : Fin 32) : Statement (.sleepEnter dt c) := fun _ => ⟨rfl, rfl⟩
theorem busWake (dt : Nat) (c : Fin 32) (fell : W64) : Statement (.busWake dt c fell) := fun _ => ⟨rfl, rfl⟩
theorem wakeTimeExpired (dt : Nat) (c : Fin 32) : Statement (.wakeTimeExpired dt c) := fun _ => ⟨rfl, rfl⟩
theorem integrationDone (dt : Nat) (c : Fin 32) : Statement (.integrationDone dt c) := fun _ => ⟨rfl, rfl⟩
theorem chanOpenTimeout (dt : Nat) (c : Fin 32) : Statement (.chanOpenTimeout dt c) := fun _ => ⟨rfl, rfl⟩
theorem modeChangeApplied (dt : Nat) (c : Fin 32) : Statement (.modeChangeApplied dt c) := fun _ => ⟨rfl, rfl⟩
theorem epochSwitch (dt : Nat) (id : W32) : Statement (.epochSwitch dt id) := fun _ => ⟨rfl, rfl⟩
theorem timingApplied (dt : Nat) (c : Fin 32) : Statement (.timingApplied dt c) := fun _ => ⟨rfl, rfl⟩
theorem samplePointMove (dt : Nat) (c : Fin 32) : Statement (.samplePointMove dt c) := fun _ => ⟨rfl, rfl⟩
theorem firingTargetUpdate (dt : Nat) (c : Fin 32) : Statement (.firingTargetUpdate dt c) := fun _ => ⟨rfl, rfl⟩
theorem scheduledFire (dt : Nat) (c : Fin 32) (sof : W64) (blocker : Option W32) : Statement (.scheduledFire dt c sof blocker) := fun _ => ⟨rfl, rfl⟩
theorem armFire (dt : Nat) (c : Fin 32) (sof : Option W64) (readbackOk : Bool) : Statement (.armFire dt c sof readbackOk) := fun _ => ⟨rfl, rfl⟩
theorem refMessage (dt : Nat) (c : Fin 32) (started : Bool) (readbackOk : Bool) : Statement (.refMessage dt c started readbackOk) := fun _ => ⟨rfl, rfl⟩
theorem occurrenceMissed (dt : Nat) (c : Fin 32) : Statement (.occurrenceMissed dt c) := fun _ => ⟨rfl, rfl⟩
theorem schedReport (dt : Nat) (c : Fin 32) : Statement (.schedReport dt c) := fun _ => ⟨rfl, rfl⟩
theorem encCount (dt : Nat) (n : Fin 4) (e : EncEdge) : Statement (.encCount dt n e) := fun _ => ⟨rfl, rfl⟩
theorem indexPulse (dt : Nat) (n : Fin 4) : Statement (.indexPulse dt n) := fun _ => ⟨rfl, rfl⟩
theorem ssiWord (dt : Nat) (n : Fin 4) (r : SsiRead) : Statement (.ssiWord dt n r) := fun _ => ⟨rfl, rfl⟩
theorem standstillTimeout (dt : Nat) (n : Fin 4) : Statement (.standstillTimeout dt n) := fun _ => ⟨rfl, rfl⟩
theorem telegramTimeout (dt : Nat) (n : Fin 4) : Statement (.telegramTimeout dt n) := fun _ => ⟨rfl, rfl⟩
theorem holdoverExpired (dt : Nat) (n : Fin 4) : Statement (.holdoverExpired dt n) := fun _ => ⟨rfl, rfl⟩
theorem estimatorRecord (dt : Nat) (n : Fin 4) : Statement (.estimatorRecord dt n) := fun _ => ⟨rfl, rfl⟩
theorem timeStep (dt : Nat) : Statement (.timeStep dt) := fun _ => ⟨rfl, rfl⟩
theorem latchEdge (dt : Nat) (i : Fin 16) (falling : Bool) : Statement (.latchEdge dt i falling) := fun _ => ⟨rfl, rfl⟩
theorem syncPulse (dt : Nat) (i : Fin 4) (position : W64) (backward : Bool) (wiringOk : Bool) : Statement (.syncPulse dt i position backward wiringOk) := fun _ => ⟨rfl, rfl⟩
theorem syncPulseEnd (dt : Nat) (i : Fin 4) : Statement (.syncPulseEnd dt i) := fun _ => ⟨rfl, rfl⟩
theorem readTimeoutExpired (dt : Nat) (q : Fin 64) : Statement (.readTimeoutExpired dt q) := fun _ => ⟨rfl, rfl⟩
theorem scrub (dt : Nat) (errors : List LaneError) (passEnd : Bool) : Statement (.scrub dt errors passEnd) := fun _ => ⟨rfl, rfl⟩
theorem faultOccurrence (dt : Nat) (s : Fin 512) (o : Option Occ) : Statement (.faultOccurrence dt s o) := fun _ => ⟨rfl, rfl⟩
theorem invalidPair (dt : Nat) (s : Fin 512) : Statement (.invalidPair dt s) := fun _ => ⟨rfl, rfl⟩
theorem faultLineClear (dt : Nat) (s : Fin 512) : Statement (.faultLineClear dt s) := fun _ => ⟨rfl, rfl⟩
theorem graceExpired (dt : Nat) (s : Fin 512) : Statement (.graceExpired dt s) := fun _ => ⟨rfl, rfl⟩
theorem quietTimeExpired (dt : Nat) (s : Fin 512) : Statement (.quietTimeExpired dt s) := fun _ => ⟨rfl, rfl⟩
theorem chipReset (dt : Nat) : Statement (.chipReset dt) := fun _ => ⟨rfl, rfl⟩
theorem injectDone (dt : Nat) (residual : Option Nat) : Statement (.injectDone dt residual) := fun _ => ⟨rfl, rfl⟩
theorem fwLoadDone (dt : Nat) : Statement (.fwLoadDone dt) := fun _ => ⟨rfl, rfl⟩
theorem aliveRenewal (dt : Nat) : Statement (.aliveRenewal dt) := fun _ => ⟨rfl, rfl⟩
theorem aliveRenewalMissed (dt : Nat) : Statement (.aliveRenewalMissed dt) := fun _ => ⟨rfl, rfl⟩
theorem monitorSample (dt : Nat) (x : Sample) : Statement (.monitorSample dt x) := fun _ => ⟨rfl, rfl⟩
theorem plan (dt : Nat) : Statement (.plan dt) := fun _ => ⟨rfl, rfl⟩
theorem coreFreqChange (dt : Nat) : Statement (.coreFreqChange dt) := fun _ => ⟨rfl, rfl⟩
theorem historySummary (dt : Nat) : Statement (.historySummary dt) := fun _ => ⟨rfl, rfl⟩
theorem ksScan (dt : Nat) (x : KsScan) : Statement (.ksScan dt x) := fun _ => ⟨rfl, rfl⟩
theorem pulseMissing (dt : Nat) (n : Fin 4) : Statement (.pulseMissing dt n) := fun _ => ⟨rfl, rfl⟩
theorem timeSlewDone (dt : Nat) : Statement (.timeSlewDone dt) := fun _ => ⟨rfl, rfl⟩
theorem exclusiveWindowEnd (dt : Nat) (c : Fin 32) : Statement (.exclusiveWindowEnd dt c) := fun _ => ⟨rfl, rfl⟩
theorem schedBoundaryCrossed (dt : Nat) (c : Fin 32) : Statement (.schedBoundaryCrossed dt c) := fun _ => ⟨rfl, rfl⟩
theorem estimatedDirectionChange (dt : Nat) (n : Fin 4) : Statement (.estimatedDirectionChange dt n) := fun _ => ⟨rfl, rfl⟩
theorem linkUp (dt : Nat) (link : Port) : Statement (.linkUp dt link) := fun _ => ⟨rfl, rfl⟩
theorem ioRailWindowChange (dt : Nat) (r : Rail) (inside : Bool) : Statement (.ioRailWindowChange dt r inside) := fun _ => ⟨rfl, rfl⟩
theorem tapInstructionUpdate (dt : Nat) (i : TapInstr) : Statement (.tapInstructionUpdate dt i) := fun _ => ⟨rfl, rfl⟩

end Sys2Proof.Laws.ClockFree
end

