-- ==== Sys2Proof/Laws/RowsAdmission.lean ====
section
/-! SUPPORT. What the commands of Machine/Admission.lean keep (see Laws/Keeps.lean). -/
namespace Sys2Proof.Machine

theorem hAdmitReport_keeps {σ : State} {r : Req} {s : State} (hk : Keeps σ s) : (hAdmitReport r s).Leaves Keeps σ := by
  unfold hAdmitReport
  repeat' first
    | with_reducible exact Answer.leaves_refuse
    | with_reducible refine Answer.leaves_done ?_
    | with_reducible refine Answer.leaves_later ?_
    | with_reducible exact hk
    | with_reducible assumption
    | with_reducible apply State.storeWrite_keeps
    | with_reducible refine ite_leaves (fun _ => ?_) (fun _ => ?_)

theorem execAdmitReport_keeps {dt : Nat} {m : Mbox} {s : State} : Leaves Keeps s (execAdmitReport dt m s) :=
  mailbox_keeps fun _ _ h => hAdmitReport_keeps h

end Sys2Proof.Machine
end

