-- ==== Sys2Proof/Laws/RowsChannels.lean ====
section
/-! SUPPORT. What the commands of Machine/Channels.lean keep (see Laws/Keeps.lean). -/
namespace Sys2Proof.Machine

theorem onChan_leaves {σ s : State} {r : Req} {f : Nat → Answer} (hf : ∀ k, (f k).Leaves Keeps σ) :
    (onChan r s f).Leaves Keeps σ := by
  unfold onChan
  dsimp only
  repeat' first
    | with_reducible exact Answer.leaves_refuse
    | with_reducible exact hf _
    | split

theorem hChanOpen_keeps {σ : State} {r : Req} {s : State} (hk : Keeps σ s) : (hChanOpen r s).Leaves Keeps σ := by
  unfold hChanOpen
  repeat' first
    | with_reducible exact Answer.leaves_refuse
    | with_reducible refine Answer.leaves_done ?_
    | with_reducible refine Answer.leaves_later ?_
    | with_reducible exact hk
    | with_reducible assumption
    | with_reducible apply State.wantRelease_keeps
    | with_reducible refine onChan_leaves (fun _ => ?_)
    | with_reducible refine ite_leaves (fun _ => ?_) (fun _ => ?_)

theorem hChanClose_keeps {σ : State} {r : Req} {s : State} (hk : Keeps σ s) : (hChanClose r s).Leaves Keeps σ := by
  unfold hChanClose
  repeat' first
    | with_reducible exact Answer.leaves_refuse
    | with_reducible refine Answer.leaves_done ?_
    | with_reducible refine Answer.leaves_later ?_
    | with_reducible exact hk
    | with_reducible assumption
    | with_reducible apply State.closeChan_keeps
    | with_reducible refine onChan_leaves (fun _ => ?_)
    | with_reducible refine ite_leaves (fun _ => ?_) (fun _ => ?_)
    | with_reducible refine ite_keeps (fun _ => ?_) (fun _ => ?_)
    | rfl
    | split
    | dsimp only

theorem execChanOpen_keeps {dt : Nat} {m : Mbox} {s : State} : Leaves Keeps s (execChanOpen dt m s) :=
  mailbox_keeps fun _ _ h => hChanOpen_keeps h

theorem execChanClose_keeps {dt : Nat} {m : Mbox} {s : State} : Leaves Keeps s (execChanClose dt m s) :=
  mailbox_keeps fun _ _ h => hChanClose_keeps h

theorem hChanConfig_keeps {σ : State} {r : Req} {s : State} (hk : Keeps σ s) : (hChanConfig r s).Leaves Keeps σ := by
  unfold hChanConfig
  repeat' first
    | with_reducible exact Answer.leaves_refuse
    | with_reducible refine Answer.leaves_done ?_
    | with_reducible refine Answer.leaves_later ?_
    | with_reducible exact hk
    | with_reducible assumption
    | with_reducible apply State.restage_keeps
    | with_reducible refine onChan_leaves (fun _ => ?_)
    | with_reducible refine ite_leaves (fun _ => ?_) (fun _ => ?_)
    | with_reducible refine ite_keeps (fun _ => ?_) (fun _ => ?_)
    | (with_reducible refine foldl_keeps ?_ ?_; intro _ _ _)
    | rfl
    | split
    | dsimp only

theorem execChanConfig_keeps {dt : Nat} {m : Mbox} {s : State} : Leaves Keeps s (execChanConfig dt m s) :=
  mailbox_keeps fun _ _ h => hChanConfig_keeps h

theorem hChanMode_keeps {σ : State} {r : Req} {s : State} (hk : Keeps σ s) : (hChanMode r s).Leaves Keeps σ := by
  unfold hChanMode
  repeat' first
    | with_reducible exact Answer.leaves_refuse
    | with_reducible refine Answer.leaves_done ?_
    | with_reducible refine Answer.leaves_later ?_
    | with_reducible exact hk
    | with_reducible assumption
    | with_reducible apply State.dropRelease_keeps
    | with_reducible apply State.modChan_keeps
    | with_reducible apply State.opened_keeps
    | with_reducible apply State.pinsIdle_keeps
    | with_reducible apply State.wantRelease_keeps
    | with_reducible refine onChan_leaves (fun _ => ?_)
    | with_reducible refine ite_leaves (fun _ => ?_) (fun _ => ?_)
    | with_reducible refine ite_keeps (fun _ => ?_) (fun _ => ?_)
    | rfl
    | split
    | dsimp only
    | fail_if_no_progress with_reducible refine Keeps.mk_of ?_ ?_

theorem execChanMode_keeps {dt : Nat} {m : Mbox} {s : State} : Leaves Keeps s (execChanMode dt m s) :=
  mailbox_keeps fun _ _ h => hChanMode_keeps h

theorem hChanStatus_keeps {σ : State} {r : Req} {s : State} (hk : Keeps σ s) : (hChanStatus r s).Leaves Keeps σ := by
  unfold hChanStatus
  repeat' first
    | with_reducible exact Answer.leaves_refuse
    | with_reducible refine Answer.leaves_done ?_
    | with_reducible refine Answer.leaves_later ?_
    | with_reducible exact hk
    | with_reducible assumption
    | with_reducible refine ite_leaves (fun _ => ?_) (fun _ => ?_)

theorem execChanStatus_keeps {dt : Nat} {m : Mbox} {s : State} : Leaves Keeps s (execChanStatus dt m s) :=
  mailbox_keeps fun _ _ h => hChanStatus_keeps h

theorem hChanRecover_keeps {σ : State} {r : Req} {s : State} (hk : Keeps σ s) : (hChanRecover r s).Leaves Keeps σ := by
  unfold hChanRecover
  repeat' first
    | with_reducible exact Answer.leaves_refuse
    | with_reducible refine Answer.leaves_done ?_
    | with_reducible refine Answer.leaves_later ?_
    | with_reducible exact hk
    | with_reducible assumption
    | with_reducible apply State.errState_keeps
    | with_reducible apply State.opened_keeps
    | with_reducible refine onChan_leaves (fun _ => ?_)
    | with_reducible refine ite_leaves (fun _ => ?_) (fun _ => ?_)

theorem hChanRetire_keeps {σ : State} {r : Req} {s : State} (hk : Keeps σ s) : (hChanRetire r s).Leaves Keeps σ := by
  unfold hChanRetire
  repeat' first
    | with_reducible exact Answer.leaves_refuse
    | with_reducible refine Answer.leaves_done ?_
    | with_reducible refine Answer.leaves_later ?_
    | with_reducible exact hk
    | with_reducible assumption
    | with_reducible apply State.addCause_keeps
    | with_reducible refine onChan_leaves (fun _ => ?_)
    | with_reducible refine ite_leaves (fun _ => ?_) (fun _ => ?_)

theorem hChanDiag_keeps {σ : State} {r : Req} {s : State} (hk : Keeps σ s) : (hChanDiag r s).Leaves Keeps σ := by
  unfold hChanDiag
  repeat' first
    | with_reducible exact Answer.leaves_refuse
    | with_reducible refine Answer.leaves_done ?_
    | with_reducible refine Answer.leaves_later ?_
    | with_reducible exact hk
    | with_reducible assumption
    | with_reducible apply State.modDiag_keeps
    | with_reducible apply State.storeWrite_keeps
    | (with_reducible refine foldl_keeps ?_ ?_; intro _ _ _)
    | with_reducible refine ite_leaves (fun _ => ?_) (fun _ => ?_)
    | with_reducible refine ite_keeps (fun _ => ?_) (fun _ => ?_)

theorem hCollideClear_keeps {σ : State} {r : Req} {s : State} (hk : Keeps σ s) : (hCollideClear r s).Leaves Keeps σ := by
  unfold hCollideClear
  repeat' first
    | with_reducible exact Answer.leaves_refuse
    | with_reducible refine Answer.leaves_done ?_
    | with_reducible refine Answer.leaves_later ?_
    | with_reducible exact hk
    | with_reducible assumption
    | with_reducible apply State.collideClear_keeps
    | with_reducible refine onChan_leaves (fun _ => ?_)
    | with_reducible refine ite_leaves (fun _ => ?_) (fun _ => ?_)
    | with_reducible refine ite_keeps (fun _ => ?_) (fun _ => ?_)
    | (with_reducible refine foldl_keeps ?_ ?_; intro _ _ _)
    | rfl
    | split
    | dsimp only

theorem execChanRecover_keeps {dt : Nat} {m : Mbox} {s : State} : Leaves Keeps s (execChanRecover dt m s) :=
  mailbox_keeps fun _ _ h => hChanRecover_keeps h

theorem execChanRetire_keeps {dt : Nat} {m : Mbox} {s : State} : Leaves Keeps s (execChanRetire dt m s) :=
  mailbox_keeps fun _ _ h => hChanRetire_keeps h

theorem execChanDiag_keeps {dt : Nat} {m : Mbox} {s : State} : Leaves Keeps s (execChanDiag dt m s) :=
  mailbox_keeps fun _ _ h => hChanDiag_keeps h

theorem execChanCollideClear_keeps {dt : Nat} {m : Mbox} {s : State} : Leaves Keeps s (execChanCollideClear dt m s) :=
  mailbox_keeps fun _ _ h => hCollideClear_keeps h

end Sys2Proof.Machine
end

