-- ==== Sys2Proof/Laws/RowsAge.lean ====
section
/-! SUPPORT. What the commands of Machine/Age.lean keep (see Laws/Keeps.lean). -/
namespace Sys2Proof.Machine

theorem execMonitorSample_keeps {dt : Nat} {x : Sample} {s0 : State} : Leaves Keeps s0 (execMonitorSample dt x s0) := by
  have hk : Keeps s0 (s0.elapse dt) := State.elapse_keeps (Keeps.refl s0)
  unfold execMonitorSample
  repeat' first
    | with_reducible refine Leaves.next ?_
    | with_reducible exact hk
    | with_reducible assumption
    | with_reducible apply State.elapse_keeps
    | with_reducible apply State.levels_keeps
    | with_reducible apply State.lifetime_keeps
    | with_reducible apply State.lowSlack_keeps
    | with_reducible apply State.wantCore_keeps
    | with_reducible refine ite_row (fun _ => ?_) (fun _ => ?_)
    | with_reducible refine ite_keeps (fun _ => ?_) (fun _ => ?_)
    | split
    | dsimp only
    | fail_if_no_progress with_reducible refine Keeps.mk_of ?_ ?_

theorem execCoreFreqChange_keeps {dt : Nat} {s0 : State} : Leaves Keeps s0 (execCoreFreqChange dt s0) := by
  have hk : Keeps s0 (s0.elapse dt) := State.elapse_keeps (Keeps.refl s0)
  unfold execCoreFreqChange
  repeat' first
    | with_reducible refine Leaves.next ?_
    | with_reducible exact hk
    | with_reducible assumption
    | with_reducible apply State.applyCore_keeps
    | with_reducible apply State.elapse_keeps
    | with_reducible refine ite_row (fun _ => ?_) (fun _ => ?_)

theorem execPlan_keeps {dt : Nat} {s0 : State} : Leaves Keeps s0 (execPlan dt s0) := by
  have hk : Keeps s0 (s0.elapse dt) := State.elapse_keeps (Keeps.refl s0)
  unfold execPlan
  repeat' first
    | with_reducible refine Leaves.next ?_
    | with_reducible exact hk
    | with_reducible assumption
    | with_reducible apply State.elapse_keeps
    | with_reducible apply State.lowSlack_keeps
    | with_reducible apply State.planChannels_keeps
    | with_reducible apply State.planCore_keeps
    | with_reducible apply State.planRows_keeps
    | with_reducible refine ite_row (fun _ => ?_) (fun _ => ?_)
    | with_reducible refine ite_keeps (fun _ => ?_) (fun _ => ?_)
    | split
    | dsimp only
    | fail_if_no_progress with_reducible refine Keeps.mk_of ?_ ?_

theorem execKsScan_keeps {dt : Nat} {x : KsScan} {s0 : State} : Leaves Keeps s0 (execKsScan dt x s0) := by
  have hk : Keeps s0 (s0.elapse dt) := State.elapse_keeps (Keeps.refl s0)
  unfold execKsScan
  repeat' first
    | with_reducible refine Leaves.next ?_
    | with_reducible exact hk
    | with_reducible assumption
    | with_reducible apply State.elapse_keeps
    | with_reducible apply State.log_keeps
    | with_reducible apply State.noteDecision_keeps
    | with_reducible apply State.raise_keeps
    | with_reducible apply State.refreshWord_keeps
    | (with_reducible refine foldl_keeps ?_ ?_; intro _ _ _)
    | with_reducible refine ite_row (fun _ => ?_) (fun _ => ?_)
    | with_reducible refine ite_keeps (fun _ => ?_) (fun _ => ?_)
    | split
    | dsimp only
    | fail_if_no_progress with_reducible refine Keeps.mk_of ?_ ?_

theorem execHistorySummary_keeps {dt : Nat} {s0 : State} : Leaves Keeps s0 (execHistorySummary dt s0) := by
  have hk : Keeps s0 (s0.elapse dt) := State.elapse_keeps (Keeps.refl s0)
  unfold execHistorySummary
  repeat' first
    | with_reducible refine Leaves.next ?_
    | with_reducible exact hk
    | with_reducible assumption
    | with_reducible apply State.elapse_keeps
    | with_reducible apply State.histDaily_keeps
    | with_reducible apply State.histLong_keeps
    | with_reducible apply State.modChan_keeps
    | with_reducible apply State.takeDrift_keeps
    | (with_reducible refine foldl_keeps ?_ ?_; intro _ _ _)
    | with_reducible refine ite_row (fun _ => ?_) (fun _ => ?_)
    | with_reducible refine ite_keeps (fun _ => ?_) (fun _ => ?_)
    | split
    | dsimp only
    | fail_if_no_progress with_reducible refine Keeps.mk_of ?_ ?_

theorem hAgeReport_keeps {σ : State} {r : Req} {s : State} (hk : Keeps σ s) : (hAgeReport r s).Leaves Keeps σ := by
  unfold hAgeReport
  repeat' first
    | with_reducible exact Answer.leaves_refuse
    | with_reducible refine Answer.leaves_done ?_
    | with_reducible refine Answer.leaves_later ?_
    | with_reducible exact hk
    | with_reducible assumption
    | with_reducible apply State.storeWrite_keeps
    | with_reducible refine ite_leaves (fun _ => ?_) (fun _ => ?_)

theorem hAgeHistory_keeps {σ : State} {r : Req} {s : State} (hk : Keeps σ s) : (hAgeHistory r s).Leaves Keeps σ := by
  unfold hAgeHistory
  repeat' first
    | with_reducible exact Answer.leaves_refuse
    | with_reducible refine Answer.leaves_done ?_
    | with_reducible refine Answer.leaves_later ?_
    | with_reducible exact hk
    | with_reducible assumption
    | with_reducible apply State.ring_keeps
    | with_reducible apply State.storeWrite_keeps
    | with_reducible refine ite_leaves (fun _ => ?_) (fun _ => ?_)

theorem hAgeClearHist_keeps {σ : State} {r : Req} {s : State} (hk : Keeps σ s) : (hAgeClearHist r s).Leaves Keeps σ := by
  unfold hAgeClearHist
  repeat' first
    | with_reducible exact Answer.leaves_refuse
    | with_reducible refine Answer.leaves_done ?_
    | with_reducible refine Answer.leaves_later ?_
    | with_reducible exact hk
    | with_reducible assumption
    | with_reducible apply State.modChan_keeps
    | with_reducible refine onChan_leaves (fun _ => ?_)
    | with_reducible refine ite_leaves (fun _ => ?_) (fun _ => ?_)

theorem execAgeReport_keeps {dt : Nat} {m : Mbox} {s : State} : Leaves Keeps s (execAgeReport dt m s) :=
  mailbox_keeps fun _ _ h => hAgeReport_keeps h

theorem execAgeHistory_keeps {dt : Nat} {m : Mbox} {s : State} : Leaves Keeps s (execAgeHistory dt m s) :=
  mailbox_keeps fun _ _ h => hAgeHistory_keeps h

theorem execAgeClearHist_keeps {dt : Nat} {m : Mbox} {s : State} : Leaves Keeps s (execAgeClearHist dt m s) :=
  mailbox_keeps fun _ _ h => hAgeClearHist_keeps h

end Sys2Proof.Machine
end

