-- ==== Sys2Proof/Laws/RowsAxes.lean ====
section
/-! SUPPORT. What the commands of Machine/Axes.lean keep (see Laws/Keeps.lean). -/
namespace Sys2Proof.Machine

theorem hAxDefine_keeps {σ : State} {r : Req} {s : State} (hk : Keeps σ s) : (hAxDefine r s).Leaves Keeps σ := by
  unfold hAxDefine
  repeat' first
    | with_reducible exact Answer.leaves_refuse
    | with_reducible refine Answer.leaves_done ?_
    | with_reducible refine Answer.leaves_later ?_
    | with_reducible exact hk
    | with_reducible assumption
    | with_reducible apply State.restage_keeps
    | with_reducible apply State.setPar_keeps
    | with_reducible refine ite_leaves (fun _ => ?_) (fun _ => ?_)
    | with_reducible refine ite_keeps (fun _ => ?_) (fun _ => ?_)
    | (with_reducible refine foldl_keeps ?_ ?_; intro _ _ _)
    | rfl
    | split
    | dsimp only

theorem hAxStart_keeps {σ : State} {r : Req} {s : State} (hk : Keeps σ s) : (hAxStart r s).Leaves Keeps σ := by
  unfold hAxStart
  repeat' first
    | with_reducible exact Answer.leaves_refuse
    | with_reducible refine Answer.leaves_done ?_
    | with_reducible refine Answer.leaves_later ?_
    | with_reducible exact hk
    | with_reducible assumption
    | with_reducible apply State.axLimits_keeps
    | with_reducible apply State.axSat_keeps
    | with_reducible apply State.axState_keeps
    | with_reducible apply State.axTarget_keeps
    | with_reducible apply State.modAxis_keeps
    | with_reducible apply State.release_keeps
    | with_reducible refine ite_leaves (fun _ => ?_) (fun _ => ?_)
    | with_reducible refine ite_keeps (fun _ => ?_) (fun _ => ?_)
    | rfl
    | split
    | dsimp only
    | fail_if_no_progress with_reducible refine Keeps.mk_of ?_ ?_

theorem hAxStop_keeps {σ : State} {r : Req} {s : State} (hk : Keeps σ s) : (hAxStop r s).Leaves Keeps σ := by
  unfold hAxStop
  repeat' first
    | with_reducible exact Answer.leaves_refuse
    | with_reducible refine Answer.leaves_done ?_
    | with_reducible refine Answer.leaves_later ?_
    | with_reducible exact hk
    | with_reducible assumption
    | with_reducible apply State.axStopCmd_keeps
    | (with_reducible refine foldl_keeps ?_ ?_; intro _ _ _)
    | with_reducible refine ite_leaves (fun _ => ?_) (fun _ => ?_)
    | with_reducible refine ite_keeps (fun _ => ?_) (fun _ => ?_)

theorem hAxStatus_keeps {σ : State} {r : Req} {s : State} (hk : Keeps σ s) : (hAxStatus r s).Leaves Keeps σ := by
  unfold hAxStatus
  repeat' first
    | with_reducible exact Answer.leaves_refuse
    | with_reducible refine Answer.leaves_done ?_
    | with_reducible refine Answer.leaves_later ?_
    | with_reducible exact hk
    | with_reducible assumption
    | with_reducible apply State.modAxis_keeps
    | with_reducible refine ite_leaves (fun _ => ?_) (fun _ => ?_)
    | with_reducible refine ite_keeps (fun _ => ?_) (fun _ => ?_)

theorem execAxDefine_keeps {dt : Nat} {m : Mbox} {s : State} : Leaves Keeps s (execAxDefine dt m s) :=
  mailbox_keeps fun _ _ h => hAxDefine_keeps h

theorem execAxStart_keeps {dt : Nat} {m : Mbox} {s : State} : Leaves Keeps s (execAxStart dt m s) :=
  mailbox_keeps fun _ _ h => hAxStart_keeps h

theorem execAxStop_keeps {dt : Nat} {m : Mbox} {s : State} : Leaves Keeps s (execAxStop dt m s) :=
  mailbox_keeps fun _ _ h => hAxStop_keeps h

theorem execAxStatus_keeps {dt : Nat} {m : Mbox} {s : State} : Leaves Keeps s (execAxStatus dt m s) :=
  mailbox_keeps fun _ _ h => hAxStatus_keeps h

end Sys2Proof.Machine
end

