-- ==== Sys2Proof/Laws/RowsBoot.lean ====
section
/-! SUPPORT. What the commands of Machine/Boot.lean keep (see Laws/Keeps.lean). -/
namespace Sys2Proof.Machine

theorem execPowerOnReset_safe {dt : Nat} {straps : Straps} {o : BootObs} {s0 : State} : Leaves Safe s0 (execPowerOnReset dt straps o s0) := by
  have hk : Safe s0 (s0.elapse dt) := (State.elapse_keeps (Keeps.refl s0)).safe
  unfold execPowerOnReset
  refine ite_row (fun _ => .next hk) fun _ => .next (State.start_safe (hk.trans ?_))
  exact ⟨rfl, fun h => ⟨h.mem, h.log, h.parts, h.recs, h.grants⟩⟩

theorem execPorstNFall_safe {dt : Nat} {s0 : State} : Leaves Safe s0 (execPorstNFall dt s0) := by
  have hk : Safe s0 (s0.elapse dt) := (State.elapse_keeps (Keeps.refl s0)).safe
  unfold execPorstNFall
  refine ite_row (fun _ => .next (State.hold_safe (hk.trans ?_))) fun _ => .next hk
  exact ⟨rfl, fun h => ⟨h.mem, h.log, h.parts, h.recs, h.grants⟩⟩

theorem execPowerFail_safe {dt : Nat} {s0 : State} : Leaves Safe s0 (execPowerFail dt s0) := by
  have hk : Safe s0 (s0.elapse dt) := (State.elapse_keeps (Keeps.refl s0)).safe
  unfold execPowerFail
  refine .next (State.hold_safe (hk.trans ?_))
  exact ⟨rfl, fun h => ⟨h.mem, h.log, h.parts, h.recs, h.grants⟩⟩

theorem execDeviceReset_safe {dt : Nat} {o : BootObs} {s0 : State} : Leaves Safe s0 (execDeviceReset dt o s0) := by
  have hk : Safe s0 (s0.elapse dt) := (State.elapse_keeps (Keeps.refl s0)).safe
  unfold execDeviceReset
  dsimp only
  split
  all_goals first
    | exact .next hk
    | exact .next (State.start_safe hk)

theorem execReadyTimeout_keeps {dt : Nat} {s0 : State} : Leaves Keeps s0 (execReadyTimeout dt s0) := by
  have hk : Keeps s0 (s0.elapse dt) := State.elapse_keeps (Keeps.refl s0)
  unfold execReadyTimeout
  repeat' first
    | with_reducible refine Leaves.next ?_
    | with_reducible exact hk
    | with_reducible assumption
    | with_reducible apply State.elapse_keeps
    | with_reducible apply State.failStart_keeps
    | with_reducible apply Tested.then_keeps
    | with_reducible refine ite_row (fun _ => ?_) (fun _ => ?_)

theorem execWatchdog_keeps {dt : Nat} {core : Fin 6} {s0 : State} : Leaves Keeps s0 (execWatchdog dt core s0) := by
  have hk : Keeps s0 (s0.elapse dt) := State.elapse_keeps (Keeps.refl s0)
  unfold execWatchdog
  repeat' first
    | with_reducible refine Leaves.next ?_
    | with_reducible exact hk
    | with_reducible assumption
    | with_reducible apply State.elapse_keeps
    | with_reducible apply State.failStart_keeps
    | with_reducible apply State.raise_keeps
    | with_reducible apply State.ready_keeps
    | with_reducible apply Tested.then_keeps
    | with_reducible refine ite_row (fun _ => ?_) (fun _ => ?_)
    | with_reducible refine ite_keeps (fun _ => ?_) (fun _ => ?_)
    | split
    | dsimp only

theorem hBootStatus_keeps {σ : State} {_r : Req} {s : State} (hk : Keeps σ s) : (hBootStatus _r s).Leaves Keeps σ := by
  unfold hBootStatus
  repeat' first
    | with_reducible exact Answer.leaves_refuse
    | with_reducible refine Answer.leaves_done ?_
    | with_reducible refine Answer.leaves_later ?_
    | with_reducible exact hk

theorem hBootRecords_keeps {σ : State} {r : Req} {s : State} (hk : Keeps σ s) : (hBootRecords r s).Leaves Keeps σ := by
  unfold hBootRecords
  repeat' first
    | with_reducible exact Answer.leaves_refuse
    | with_reducible refine Answer.leaves_done ?_
    | with_reducible refine Answer.leaves_later ?_
    | with_reducible exact hk
    | with_reducible assumption
    | with_reducible apply State.storeWrite_keeps
    | with_reducible apply Tested.then_keeps
    | with_reducible refine ite_leaves (fun _ => ?_) (fun _ => ?_)

theorem hFwLoad_keeps {σ : State} {r : Req} {s : State} (hk : Keeps σ s) : (hFwLoad r s).Leaves Keeps σ := by
  unfold hFwLoad
  repeat' first
    | with_reducible exact Answer.leaves_refuse
    | with_reducible refine Answer.leaves_done ?_
    | with_reducible refine Answer.leaves_later ?_
    | with_reducible exact hk
    | with_reducible assumption
    | with_reducible apply Tested.then_keeps
    | with_reducible refine ite_leaves (fun _ => ?_) (fun _ => ?_)
    | with_reducible refine ite_keeps (fun _ => ?_) (fun _ => ?_)
    | split
    | dsimp only
    | fail_if_no_progress with_reducible refine Keeps.mk_of ?_ ?_

theorem execFwLoadDone_keeps {dt : Nat} {s0 : State} : Leaves Keeps s0 (execFwLoadDone dt s0) := by
  have hk : Keeps s0 (s0.elapse dt) := State.elapse_keeps (Keeps.refl s0)
  unfold execFwLoadDone
  dsimp only
  split
  · exact .next hk
  · refine .next ?_
    split
    · exact State.finish_keeps (State.relayDone_keeps (State.log_keeps
        (Keeps.mk_of hk (by split <;> simp only [Keep.setSlot_log, Keep.setSlot_boot]))))
    · exact State.log_keeps (Keeps.mk_of hk (by split <;> simp only [Keep.setSlot_log, Keep.setSlot_boot]))

theorem hFwSelect_keeps {σ : State} {r : Req} {s : State} (hk : Keeps σ s) : (hFwSelect r s).Leaves Keeps σ := by
  unfold hFwSelect
  repeat' first
    | with_reducible exact Answer.leaves_refuse
    | with_reducible refine Answer.leaves_done ?_
    | with_reducible refine Answer.leaves_later ?_
    | with_reducible exact hk
    | with_reducible assumption
    | with_reducible apply State.log_keeps
    | with_reducible refine ite_leaves (fun _ => ?_) (fun _ => ?_)
    | with_reducible refine ite_keeps (fun _ => ?_) (fun _ => ?_)
    | rfl
    | split
    | dsimp only
    | fail_if_no_progress with_reducible refine Keeps.mk_of ?_ ?_

theorem hBootClearFailures_keeps {σ : State} {r : Req} {s : State} (hk : Keeps σ s) : (hBootClearFailures r s).Leaves Keeps σ := by
  unfold hBootClearFailures
  repeat' first
    | with_reducible exact Answer.leaves_refuse
    | with_reducible refine Answer.leaves_done ?_
    | with_reducible refine Answer.leaves_later ?_
    | with_reducible exact hk
    | with_reducible assumption
    | with_reducible apply State.log_keeps
    | with_reducible apply Tested.then_keeps
    | with_reducible refine ite_leaves (fun _ => ?_) (fun _ => ?_)
    | with_reducible refine ite_keeps (fun _ => ?_) (fun _ => ?_)
    | split
    | dsimp only
    | fail_if_no_progress with_reducible refine Keeps.mk_of ?_ ?_

theorem hDevRestart_keeps {σ : State} {r : Req} {s : State} (hk : Keeps σ s) : (hDevRestart r s).Leaves Keeps σ := by
  unfold hDevRestart
  repeat' first
    | with_reducible exact Answer.leaves_refuse
    | with_reducible refine Answer.leaves_done ?_
    | with_reducible refine Answer.leaves_later ?_
    | with_reducible exact hk
    | with_reducible assumption
    | with_reducible apply Tested.then_keeps
    | with_reducible refine ite_leaves (fun _ => ?_) (fun _ => ?_)
    | with_reducible refine ite_keeps (fun _ => ?_) (fun _ => ?_)
    | split
    | dsimp only
    | fail_if_no_progress with_reducible refine Keeps.mk_of ?_ ?_

theorem execBootStatus_keeps {dt : Nat} {m : Mbox} {s : State} : Leaves Keeps s (execBootStatus dt m s) :=
  mailbox_keeps fun _ _ h => hBootStatus_keeps h

theorem execBootRecords_keeps {dt : Nat} {m : Mbox} {s : State} : Leaves Keeps s (execBootRecords dt m s) :=
  mailbox_keeps fun _ _ h => hBootRecords_keeps h

theorem execFwLoad_keeps {dt : Nat} {m : Mbox} {s : State} : Leaves Keeps s (execFwLoad dt m s) :=
  mailbox_keeps fun _ _ h => hFwLoad_keeps h

theorem execFwSelect_keeps {dt : Nat} {m : Mbox} {s : State} : Leaves Keeps s (execFwSelect dt m s) :=
  mailbox_keeps fun _ _ h => hFwSelect_keeps h

theorem execBootClearFailures_keeps {dt : Nat} {m : Mbox} {s : State} : Leaves Keeps s (execBootClearFailures dt m s) :=
  mailbox_keeps fun _ _ h => hBootClearFailures_keeps h

theorem execDevRestart_keeps {dt : Nat} {m : Mbox} {s : State} : Leaves Keeps s (execDevRestart dt m s) :=
  mailbox_keeps fun _ _ h => hDevRestart_keeps h

end Sys2Proof.Machine
end

