-- ==== Sys2Proof/Laws/RowsBudget.lean ====
section
/-! SUPPORT. What the commands of Machine/Budget.lean keep (see Laws/Keeps.lean). -/
namespace Sys2Proof.Machine

theorem execTokenRefill_keeps {dt : Nat} {s0 : State} : Leaves Keeps s0 (execTokenRefill dt s0) := by
  have hk : Keeps s0 (s0.elapse dt) := State.elapse_keeps (Keeps.refl s0)
  unfold execTokenRefill
  repeat' first
    | with_reducible refine Leaves.next ?_
    | with_reducible exact hk
    | with_reducible assumption
    | with_reducible apply State.elapse_keeps
    | with_reducible refine ite_row (fun _ => ?_) (fun _ => ?_)
    | with_reducible refine ite_keeps (fun _ => ?_) (fun _ => ?_)
    | split
    | dsimp only
    | fail_if_no_progress with_reducible refine Keeps.mk_of ?_ ?_

theorem hBudgetStatus_keeps {σ : State} {r : Req} {s : State} (hk : Keeps σ s) : (hBudgetStatus r s).Leaves Keeps σ := by
  unfold hBudgetStatus
  repeat' first
    | with_reducible exact Answer.leaves_refuse
    | with_reducible refine Answer.leaves_done ?_
    | with_reducible refine Answer.leaves_later ?_
    | with_reducible exact hk
    | with_reducible assumption
    | with_reducible refine ite_leaves (fun _ => ?_) (fun _ => ?_)
    | with_reducible refine ite_keeps (fun _ => ?_) (fun _ => ?_)
    | split
    | dsimp only
    | fail_if_no_progress with_reducible refine Keeps.mk_of ?_ ?_

theorem execBudgetStatus_keeps {dt : Nat} {m : Mbox} {s : State} : Leaves Keeps s (execBudgetStatus dt m s) :=
  mailbox_keeps fun _ _ h => hBudgetStatus_keeps h

end Sys2Proof.Machine
end

