-- ==== Sys2Proof/Laws/RowsChanRows.lean ====
section
/-! SUPPORT. What the commands of Machine/ChanRows.lean keep (see Laws/Keeps.lean). -/
namespace Sys2Proof.Machine

theorem execFrameReceived_keeps {dt : Nat} {c : Fin 32} {f : RxFrame} {s0 : State} : Leaves Keeps s0 (execFrameReceived dt c f s0) := by
  have hk : Keeps s0 (s0.elapse dt) := State.elapse_keeps (Keeps.refl s0)
  unfold execFrameReceived
  repeat' first
    | with_reducible refine Leaves.next ?_
    | with_reducible exact hk
    | with_reducible assumption
    | with_reducible apply State.addEdgesA_keeps
    | with_reducible apply State.blockedBy_keeps
    | with_reducible apply State.bumpCounts_keeps
    | with_reducible apply State.elapse_keeps
    | with_reducible apply State.event_keeps
    | with_reducible apply State.heard_keeps
    | with_reducible apply State.modChan_keeps
    | with_reducible apply State.modStat_keeps
    | with_reducible apply State.raiseU_keeps
    | with_reducible apply State.ringWrite_keeps
    | with_reducible refine ite_row (fun _ => ?_) (fun _ => ?_)
    | with_reducible refine ite_keeps (fun _ => ?_) (fun _ => ?_)
    | rfl
    | split
    | dsimp only
    | fail_if_no_progress with_reducible refine Keeps.mk_of ?_ ?_

theorem execTxSuccess_keeps {dt : Nat} {c : Fin 32} {x : TxEnd} {s0 : State} : Leaves Keeps s0 (execTxSuccess dt c x s0) := by
  have hk : Keeps s0 (s0.elapse dt) := State.elapse_keeps (Keeps.refl s0)
  unfold execTxSuccess
  repeat' first
    | with_reducible refine Leaves.next ?_
    | with_reducible exact hk
    | with_reducible assumption
    | with_reducible apply State.bumpCounts_keeps
    | with_reducible apply State.elapse_keeps
    | with_reducible apply State.endAttempt_keeps
    | with_reducible apply State.heard_keeps
    | with_reducible apply State.modChan_keeps
    | with_reducible apply State.modRt_keeps
    | with_reducible apply State.modStat_keeps
    | with_reducible apply State.objSent_keeps
    | with_reducible apply State.refill_keeps
    | with_reducible apply State.ring_keeps
    | with_reducible apply State.ringWrite_keeps
    | with_reducible apply State.takeLoop_keeps
    | with_reducible apply State.testSent_keeps
    | with_reducible refine ite_row (fun _ => ?_) (fun _ => ?_)
    | with_reducible refine ite_keeps (fun _ => ?_) (fun _ => ?_)
    | rfl
    | split
    | dsimp only
    | fail_if_no_progress with_reducible refine Keeps.mk_of ?_ ?_

theorem execArbitrationLost_keeps {dt : Nat} {c : Fin 32} {what : TxWhat} {sof : W64} {winner : W32} {s0 : State} : Leaves Keeps s0 (execArbitrationLost dt c what sof winner s0) := by
  have hk : Keeps s0 (s0.elapse dt) := State.elapse_keeps (Keeps.refl s0)
  unfold execArbitrationLost
  repeat' first
    | with_reducible refine Leaves.next ?_
    | with_reducible exact hk
    | with_reducible assumption
    | with_reducible apply State.attemptFail_keeps
    | with_reducible apply State.elapse_keeps
    | with_reducible apply State.modChan_keeps
    | with_reducible apply State.modObj_keeps
    | with_reducible apply State.modRt_keeps
    | with_reducible refine ite_row (fun _ => ?_) (fun _ => ?_)
    | with_reducible refine ite_keeps (fun _ => ?_) (fun _ => ?_)
    | rfl
    | split
    | dsimp only
    | fail_if_no_progress with_reducible refine Keeps.mk_of ?_ ?_

theorem execBusError_keeps {dt : Nat} {c : Fin 32} {x : BusErr} {s0 : State} : Leaves Keeps s0 (execBusError dt c x s0) := by
  have hk : Keeps s0 (s0.elapse dt) := State.elapse_keeps (Keeps.refl s0)
  unfold execBusError
  repeat' first
    | with_reducible refine Leaves.next ?_
    | with_reducible exact hk
    | with_reducible assumption
    | with_reducible apply State.attemptFail_keeps
    | with_reducible apply State.blockedBy_keeps
    | with_reducible apply State.bumpCounts_keeps
    | with_reducible apply State.collideCount_keeps
    | with_reducible apply State.cutFast_keeps
    | with_reducible apply State.elapse_keeps
    | with_reducible apply State.modChan_keeps
    | with_reducible apply State.modDiag_keeps
    | with_reducible apply State.modErr_keeps
    | with_reducible apply State.takeLoop_keeps
    | with_reducible refine ite_row (fun _ => ?_) (fun _ => ?_)
    | with_reducible refine ite_keeps (fun _ => ?_) (fun _ => ?_)
    | rfl
    | split
    | dsimp only
    | fail_if_no_progress with_reducible refine Keeps.mk_of ?_ ?_

theorem execProtocolException_keeps {dt : Nat} {c : Fin 32} {s0 : State} : Leaves Keeps s0 (execProtocolException dt c s0) := by
  have hk : Keeps s0 (s0.elapse dt) := State.elapse_keeps (Keeps.refl s0)
  unfold execProtocolException
  repeat' first
    | with_reducible refine Leaves.next ?_
    | with_reducible exact hk
    | with_reducible assumption
    | with_reducible apply State.bumpCounts_keeps
    | with_reducible apply State.cutFast_keeps
    | with_reducible apply State.displace_keeps
    | with_reducible apply State.elapse_keeps
    | with_reducible apply State.modChan_keeps
    | with_reducible apply State.modDiag_keeps
    | with_reducible refine ite_row (fun _ => ?_) (fun _ => ?_)
    | with_reducible refine ite_keeps (fun _ => ?_) (fun _ => ?_)
    | rfl
    | split
    | dsimp only
    | fail_if_no_progress with_reducible refine Keeps.mk_of ?_ ?_

theorem execBoffDelayExpired_keeps {dt : Nat} {c : Fin 32} {s0 : State} : Leaves Keeps s0 (execBoffDelayExpired dt c s0) := by
  have hk : Keeps s0 (s0.elapse dt) := State.elapse_keeps (Keeps.refl s0)
  unfold execBoffDelayExpired
  repeat' first
    | with_reducible refine Leaves.next ?_
    | with_reducible exact hk
    | with_reducible assumption
    | with_reducible apply State.elapse_keeps
    | with_reducible apply State.errState_keeps
    | with_reducible apply State.opened_keeps
    | with_reducible refine ite_row (fun _ => ?_) (fun _ => ?_)

theorem execRecoveryDone_keeps {dt : Nat} {c : Fin 32} {s0 : State} : Leaves Keeps s0 (execRecoveryDone dt c s0) := by
  have hk : Keeps s0 (s0.elapse dt) := State.elapse_keeps (Keeps.refl s0)
  unfold execRecoveryDone
  repeat' first
    | with_reducible refine Leaves.next ?_
    | with_reducible exact hk
    | with_reducible assumption
    | with_reducible apply State.elapse_keeps
    | with_reducible apply State.errState_keeps
    | with_reducible apply State.modDiag_keeps
    | with_reducible apply State.modErr_keeps
    | with_reducible apply State.opened_keeps
    | with_reducible apply State.refill_keeps
    | with_reducible refine ite_row (fun _ => ?_) (fun _ => ?_)

theorem execLoneEnter_keeps {dt : Nat} {c : Fin 32} {s0 : State} : Leaves Keeps s0 (execLoneEnter dt c s0) := by
  have hk : Keeps s0 (s0.elapse dt) := State.elapse_keeps (Keeps.refl s0)
  unfold execLoneEnter
  repeat' first
    | with_reducible refine Leaves.next ?_
    | with_reducible exact hk
    | with_reducible assumption
    | with_reducible apply State.condOn_keeps
    | with_reducible apply State.displace_keeps
    | with_reducible apply State.elapse_keeps
    | with_reducible apply State.loneEvent_keeps
    | with_reducible apply State.modChan_keeps
    | with_reducible apply State.raiseU_keeps
    | with_reducible apply State.settle_keeps
    | with_reducible refine ite_row (fun _ => ?_) (fun _ => ?_)
    | with_reducible refine ite_keeps (fun _ => ?_) (fun _ => ?_)
    | rfl
    | split
    | dsimp only
    | fail_if_no_progress with_reducible refine Keeps.mk_of ?_ ?_

theorem execLoneProbe_keeps {dt : Nat} {c : Fin 32} {s0 : State} : Leaves Keeps s0 (execLoneProbe dt c s0) := by
  have hk : Keeps s0 (s0.elapse dt) := State.elapse_keeps (Keeps.refl s0)
  unfold execLoneProbe
  repeat' first
    | with_reducible refine Leaves.next ?_
    | with_reducible exact hk
    | with_reducible assumption
    | with_reducible apply State.checkBuffer_keeps
    | with_reducible apply State.elapse_keeps
    | with_reducible apply State.modErr_keeps
    | with_reducible apply State.prefetch_keeps
    | with_reducible apply State.takeOff_keeps
    | with_reducible refine ite_row (fun _ => ?_) (fun _ => ?_)
    | with_reducible refine ite_keeps (fun _ => ?_) (fun _ => ?_)
    | rfl
    | split
    | dsimp only
    | fail_if_no_progress with_reducible refine Keeps.mk_of ?_ ?_

theorem execStuckDominant_keeps {dt : Nat} {x : CrxdLow} {s0 : State} : Leaves Keeps s0 (execStuckDominant dt x s0) := by
  have hk : Keeps s0 (s0.elapse dt) := State.elapse_keeps (Keeps.refl s0)
  unfold execStuckDominant
  repeat' first
    | with_reducible refine Leaves.next ?_
    | with_reducible exact hk
    | with_reducible assumption
    | with_reducible apply State.addCause_keeps
    | with_reducible apply State.elapse_keeps
    | with_reducible apply State.modErr_keeps
    | with_reducible apply State.opened_keeps
    | with_reducible apply State.ready_keeps
    | with_reducible refine ite_row (fun _ => ?_) (fun _ => ?_)
    | with_reducible refine ite_keeps (fun _ => ?_) (fun _ => ?_)
    | rfl
    | split
    | dsimp only
    | fail_if_no_progress with_reducible refine Keeps.mk_of ?_ ?_

theorem execLoopDelayWindow_keeps {dt : Nat} {c : Fin 32} {s0 : State} : Leaves Keeps s0 (execLoopDelayWindow dt c s0) := by
  have hk : Keeps s0 (s0.elapse dt) := State.elapse_keeps (Keeps.refl s0)
  unfold execLoopDelayWindow
  repeat' first
    | with_reducible refine Leaves.next ?_
    | with_reducible exact hk
    | with_reducible assumption
    | with_reducible apply State.addCause_keeps
    | with_reducible apply State.elapse_keeps
    | with_reducible apply State.modErr_keeps
    | with_reducible apply State.opened_keeps
    | with_reducible refine ite_row (fun _ => ?_) (fun _ => ?_)
    | with_reducible refine ite_keeps (fun _ => ?_) (fun _ => ?_)

theorem execPinReadback_keeps {dt : Nat} {c : Fin 32} {_pad : Pad} {s0 : State} : Leaves Keeps s0 (execPinReadback dt c _pad s0) := by
  have hk : Keeps s0 (s0.elapse dt) := State.elapse_keeps (Keeps.refl s0)
  unfold execPinReadback
  repeat' first
    | with_reducible refine Leaves.next ?_
    | with_reducible exact hk
    | with_reducible assumption
    | with_reducible apply State.addCause_keeps
    | with_reducible apply State.elapse_keeps
    | with_reducible refine ite_row (fun _ => ?_) (fun _ => ?_)

theorem execChanRetired_keeps {dt : Nat} {c : Fin 32} {s0 : State} : Leaves Keeps s0 (execChanRetired dt c s0) := by
  have hk : Keeps s0 (s0.elapse dt) := State.elapse_keeps (Keeps.refl s0)
  unfold execChanRetired
  repeat' first
    | with_reducible refine Leaves.next ?_
    | with_reducible exact hk
    | with_reducible assumption
    | with_reducible apply State.elapse_keeps
    | with_reducible apply State.retireNow_keeps
    | with_reducible refine ite_row (fun _ => ?_) (fun _ => ?_)
    | with_reducible refine ite_keeps (fun _ => ?_) (fun _ => ?_)
    | rfl
    | split
    | dsimp only

theorem execTwinHandover_keeps {dt : Nat} {c : Fin 32} {s0 : State} : Leaves Keeps s0 (execTwinHandover dt c s0) := by
  have hk : Keeps s0 (s0.elapse dt) := State.elapse_keeps (Keeps.refl s0)
  unfold execTwinHandover
  repeat' first
    | with_reducible refine Leaves.next ?_
    | with_reducible exact hk
    | with_reducible assumption
    | with_reducible apply State.elapse_keeps
    | with_reducible apply State.handover_keeps
    | with_reducible refine ite_row (fun _ => ?_) (fun _ => ?_)
    | with_reducible refine ite_keeps (fun _ => ?_) (fun _ => ?_)
    | rfl
    | split
    | dsimp only

theorem execSleepEnter_keeps {dt : Nat} {c : Fin 32} {s0 : State} : Leaves Keeps s0 (execSleepEnter dt c s0) := by
  have hk : Keeps s0 (s0.elapse dt) := State.elapse_keeps (Keeps.refl s0)
  unfold execSleepEnter
  repeat' first
    | with_reducible refine Leaves.next ?_
    | with_reducible exact hk
    | with_reducible assumption
    | with_reducible apply State.chanEvent_keeps
    | with_reducible apply State.elapse_keeps
    | with_reducible apply State.loneDrop_keeps
    | with_reducible apply State.modChan_keeps
    | with_reducible apply State.opened_keeps
    | with_reducible apply State.pinsIdle_keeps
    | with_reducible apply State.schedUpdate_keeps
    | with_reducible apply State.settle_keeps
    | with_reducible refine ite_row (fun _ => ?_) (fun _ => ?_)
    | with_reducible refine ite_keeps (fun _ => ?_) (fun _ => ?_)
    | rfl
    | split
    | dsimp only
    | fail_if_no_progress with_reducible refine Keeps.mk_of ?_ ?_

theorem execBusWake_keeps {dt : Nat} {c : Fin 32} {fell : W64} {s0 : State} : Leaves Keeps s0 (execBusWake dt c fell s0) := by
  have hk : Keeps s0 (s0.elapse dt) := State.elapse_keeps (Keeps.refl s0)
  unfold execBusWake
  repeat' first
    | with_reducible refine Leaves.next ?_
    | with_reducible exact hk
    | with_reducible assumption
    | with_reducible apply State.chanEvent_keeps
    | with_reducible apply State.elapse_keeps
    | with_reducible apply State.wantRelease_keeps
    | with_reducible refine ite_row (fun _ => ?_) (fun _ => ?_)
    | with_reducible refine ite_keeps (fun _ => ?_) (fun _ => ?_)

theorem execWakeTimeExpired_keeps {dt : Nat} {c : Fin 32} {s0 : State} : Leaves Keeps s0 (execWakeTimeExpired dt c s0) := by
  have hk : Keeps s0 (s0.elapse dt) := State.elapse_keeps (Keeps.refl s0)
  unfold execWakeTimeExpired
  repeat' first
    | with_reducible refine Leaves.next ?_
    | with_reducible exact hk
    | with_reducible assumption
    | with_reducible apply State.elapse_keeps
    | with_reducible apply State.modChan_keeps
    | with_reducible refine ite_row (fun _ => ?_) (fun _ => ?_)

theorem execIntegrationDone_keeps {dt : Nat} {c : Fin 32} {s0 : State} : Leaves Keeps s0 (execIntegrationDone dt c s0) := by
  have hk : Keeps s0 (s0.elapse dt) := State.elapse_keeps (Keeps.refl s0)
  unfold execIntegrationDone
  repeat' first
    | with_reducible refine Leaves.next ?_
    | with_reducible exact hk
    | with_reducible assumption
    | with_reducible apply State.elapse_keeps
    | with_reducible apply State.modChan_keeps
    | with_reducible apply State.opened_keeps
    | with_reducible apply State.refill_keeps
    | with_reducible refine ite_row (fun _ => ?_) (fun _ => ?_)
    | with_reducible refine ite_keeps (fun _ => ?_) (fun _ => ?_)
    | rfl
    | split
    | dsimp only
    | fail_if_no_progress with_reducible refine Keeps.mk_of ?_ ?_

theorem execChanOpenTimeout_keeps {dt : Nat} {c : Fin 32} {s0 : State} : Leaves Keeps s0 (execChanOpenTimeout dt c s0) := by
  have hk : Keeps s0 (s0.elapse dt) := State.elapse_keeps (Keeps.refl s0)
  unfold execChanOpenTimeout
  repeat' first
    | with_reducible refine Leaves.next ?_
    | with_reducible exact hk
    | with_reducible assumption
    | with_reducible apply State.elapse_keeps
    | with_reducible apply State.finish_keeps
    | with_reducible apply State.modChan_keeps
    | with_reducible apply State.pinsIdle_keeps
    | with_reducible refine ite_row (fun _ => ?_) (fun _ => ?_)
    | with_reducible refine ite_keeps (fun _ => ?_) (fun _ => ?_)
    | split
    | dsimp only

theorem execModeChangeApplied_keeps {dt : Nat} {c : Fin 32} {s0 : State} : Leaves Keeps s0 (execModeChangeApplied dt c s0) := by
  have hk : Keeps s0 (s0.elapse dt) := State.elapse_keeps (Keeps.refl s0)
  unfold execModeChangeApplied
  repeat' first
    | with_reducible refine Leaves.next ?_
    | with_reducible exact hk
    | with_reducible assumption
    | with_reducible apply State.applyMode_keeps
    | with_reducible apply State.elapse_keeps
    | with_reducible apply State.opened_keeps
    | with_reducible refine ite_row (fun _ => ?_) (fun _ => ?_)

theorem execTimingApplied_keeps {dt : Nat} {c : Fin 32} {s0 : State} : Leaves Keeps s0 (execTimingApplied dt c s0) := by
  have hk : Keeps s0 (s0.elapse dt) := State.elapse_keeps (Keeps.refl s0)
  unfold execTimingApplied
  repeat' first
    | with_reducible refine Leaves.next ?_
    | with_reducible exact hk
    | with_reducible assumption
    | with_reducible apply State.applyTiming_keeps
    | with_reducible apply State.elapse_keeps
    | with_reducible refine ite_row (fun _ => ?_) (fun _ => ?_)
    | with_reducible refine ite_keeps (fun _ => ?_) (fun _ => ?_)
    | rfl
    | split
    | dsimp only

theorem execSamplePointMove_keeps {dt : Nat} {c : Fin 32} {s0 : State} : Leaves Keeps s0 (execSamplePointMove dt c s0) := by
  have hk : Keeps s0 (s0.elapse dt) := State.elapse_keeps (Keeps.refl s0)
  unfold execSamplePointMove
  repeat' first
    | with_reducible refine Leaves.next ?_
    | with_reducible exact hk
    | with_reducible assumption
    | with_reducible apply State.decideMove_keeps
    | with_reducible apply State.elapse_keeps
    | with_reducible apply State.modChan_keeps
    | with_reducible apply State.opened_keeps
    | with_reducible apply State.timingEvent_keeps
    | with_reducible refine ite_row (fun _ => ?_) (fun _ => ?_)
    | with_reducible refine ite_keeps (fun _ => ?_) (fun _ => ?_)
    | rfl
    | split
    | dsimp only
    | fail_if_no_progress with_reducible refine Keeps.mk_of ?_ ?_

theorem execDeferredPayloadWrite_keeps {dt : Nat} {c : Fin 32} {o : Fin 128} {s0 : State} : Leaves Keeps s0 (execDeferredPayloadWrite dt c o s0) := by
  have hk : Keeps s0 (s0.elapse dt) := State.elapse_keeps (Keeps.refl s0)
  unfold execDeferredPayloadWrite
  repeat' first
    | with_reducible refine Leaves.next ?_
    | with_reducible exact hk
    | with_reducible assumption
    | with_reducible apply State.elapse_keeps
    | with_reducible apply State.writeDeferred_keeps

end Sys2Proof.Machine
end

