-- ==== Sys2Proof/Laws/RowsCoords.lean ====
section
/-! SUPPORT. What the commands of Machine/Coords.lean keep (see Laws/Keeps.lean). -/
namespace Sys2Proof.Machine

theorem execEncCount_keeps {dt : Nat} {n : Fin 4} {e : EncEdge} {s0 : State} : Leaves Keeps s0 (execEncCount dt n e s0) := by
  have hk : Keeps s0 (s0.elapse dt) := State.elapse_keeps (Keeps.refl s0)
  unfold execEncCount
  repeat' first
    | with_reducible refine Leaves.next ?_
    | with_reducible exact hk
    | with_reducible assumption
    | with_reducible apply State.elapse_keeps
    | with_reducible apply State.incCount_keeps
    | with_reducible apply State.incError_keeps
    | with_reducible apply State.lcMoved_keeps
    | with_reducible apply State.lcReady_keeps
    | with_reducible apply State.modLc_keeps
    | with_reducible refine ite_row (fun _ => ?_) (fun _ => ?_)

theorem execStandstillTimeout_keeps {dt : Nat} {n : Fin 4} {s0 : State} : Leaves Keeps s0 (execStandstillTimeout dt n s0) := by
  have hk : Keeps s0 (s0.elapse dt) := State.elapse_keeps (Keeps.refl s0)
  unfold execStandstillTimeout
  repeat' first
    | with_reducible refine Leaves.next ?_
    | with_reducible exact hk
    | with_reducible assumption
    | with_reducible apply State.elapse_keeps
    | with_reducible apply State.lcMoved_keeps
    | with_reducible apply State.lcReady_keeps
    | with_reducible apply State.modLc_keeps
    | with_reducible refine ite_row (fun _ => ?_) (fun _ => ?_)

theorem execIndexPulse_keeps {dt : Nat} {n : Fin 4} {s0 : State} : Leaves Keeps s0 (execIndexPulse dt n s0) := by
  have hk : Keeps s0 (s0.elapse dt) := State.elapse_keeps (Keeps.refl s0)
  unfold execIndexPulse
  repeat' first
    | with_reducible refine Leaves.next ?_
    | with_reducible exact hk
    | with_reducible assumption
    | with_reducible apply State.elapse_keeps
    | with_reducible apply State.indexMode_keeps
    | with_reducible apply State.lcMoved_keeps
    | with_reducible apply State.lcPut_keeps
    | with_reducible apply State.lcReady_keeps
    | with_reducible apply State.lcSpeed_keeps
    | with_reducible apply State.modLc_keeps
    | with_reducible apply State.pulseEdge_keeps
    | with_reducible refine ite_row (fun _ => ?_) (fun _ => ?_)
    | with_reducible refine ite_keeps (fun _ => ?_) (fun _ => ?_)
    | rfl
    | split

theorem execPulseMissing_keeps {dt : Nat} {n : Fin 4} {s0 : State} : Leaves Keeps s0 (execPulseMissing dt n s0) := by
  have hk : Keeps s0 (s0.elapse dt) := State.elapse_keeps (Keeps.refl s0)
  unfold execPulseMissing
  repeat' first
    | with_reducible refine Leaves.next ?_
    | with_reducible exact hk
    | with_reducible assumption
    | with_reducible apply State.elapse_keeps
    | with_reducible apply State.lcHold_keeps
    | with_reducible apply State.modLc_keeps
    | with_reducible refine ite_row (fun _ => ?_) (fun _ => ?_)
    | with_reducible refine ite_keeps (fun _ => ?_) (fun _ => ?_)
    | rfl
    | split
    | dsimp only

theorem execSsiWord_keeps {dt : Nat} {n : Fin 4} {r : SsiRead} {s0 : State} : Leaves Keeps s0 (execSsiWord dt n r s0) := by
  have hk : Keeps s0 (s0.elapse dt) := State.elapse_keeps (Keeps.refl s0)
  unfold execSsiWord
  repeat' first
    | with_reducible refine Leaves.next ?_
    | with_reducible exact hk
    | with_reducible assumption
    | with_reducible apply State.elapse_keeps
    | with_reducible apply State.lcReady_keeps
    | with_reducible apply State.ssiInvalid_keeps
    | with_reducible apply State.ssiTake_keeps
    | with_reducible refine ite_row (fun _ => ?_) (fun _ => ?_)

theorem execTelegramTimeout_keeps {dt : Nat} {n : Fin 4} {s0 : State} : Leaves Keeps s0 (execTelegramTimeout dt n s0) := by
  have hk : Keeps s0 (s0.elapse dt) := State.elapse_keeps (Keeps.refl s0)
  unfold execTelegramTimeout
  repeat' first
    | with_reducible refine Leaves.next ?_
    | with_reducible exact hk
    | with_reducible assumption
    | with_reducible apply State.elapse_keeps
    | with_reducible apply State.lcHold_keeps
    | with_reducible refine ite_row (fun _ => ?_) (fun _ => ?_)

theorem execHoldoverExpired_keeps {dt : Nat} {n : Fin 4} {s0 : State} : Leaves Keeps s0 (execHoldoverExpired dt n s0) := by
  have hk : Keeps s0 (s0.elapse dt) := State.elapse_keeps (Keeps.refl s0)
  unfold execHoldoverExpired
  repeat' first
    | with_reducible refine Leaves.next ?_
    | with_reducible exact hk
    | with_reducible assumption
    | with_reducible apply State.elapse_keeps
    | with_reducible apply State.lcLose_keeps
    | with_reducible refine ite_row (fun _ => ?_) (fun _ => ?_)

theorem execEstimatorRecord_keeps {dt : Nat} {n : Fin 4} {s0 : State} : Leaves Keeps s0 (execEstimatorRecord dt n s0) := by
  have hk : Keeps s0 (s0.elapse dt) := State.elapse_keeps (Keeps.refl s0)
  unfold execEstimatorRecord
  repeat' first
    | with_reducible refine Leaves.next ?_
    | with_reducible exact hk
    | with_reducible assumption
    | with_reducible apply State.elapse_keeps
    | with_reducible apply State.lcMoved_keeps

theorem execEstimatedDirectionChange_keeps {dt : Nat} {n : Fin 4} {s0 : State} : Leaves Keeps s0 (execEstimatedDirectionChange dt n s0) := by
  have hk : Keeps s0 (s0.elapse dt) := State.elapse_keeps (Keeps.refl s0)
  unfold execEstimatedDirectionChange
  repeat' first
    | with_reducible refine Leaves.next ?_
    | with_reducible exact hk
    | with_reducible assumption
    | with_reducible apply State.elapse_keeps
    | with_reducible apply State.lcTurn_keeps
    | with_reducible refine ite_row (fun _ => ?_) (fun _ => ?_)

theorem execTimeStep_keeps {dt : Nat} {s0 : State} : Leaves Keeps s0 (execTimeStep dt s0) := by
  have hk : Keeps s0 (s0.elapse dt) := State.elapse_keeps (Keeps.refl s0)
  unfold execTimeStep
  repeat' first
    | with_reducible refine Leaves.next ?_
    | with_reducible exact hk
    | with_reducible assumption
    | with_reducible apply State.elapse_keeps
    | with_reducible apply State.stepTime_keeps

theorem execTimeSlewDone_keeps {dt : Nat} {s0 : State} : Leaves Keeps s0 (execTimeSlewDone dt s0) := by
  have hk : Keeps s0 (s0.elapse dt) := State.elapse_keeps (Keeps.refl s0)
  unfold execTimeSlewDone
  repeat' first
    | with_reducible refine Leaves.next ?_
    | with_reducible exact hk
    | with_reducible assumption
    | with_reducible apply State.elapse_keeps
    | with_reducible refine ite_row (fun _ => ?_) (fun _ => ?_)
    | with_reducible refine ite_keeps (fun _ => ?_) (fun _ => ?_)
    | split
    | dsimp only
    | fail_if_no_progress with_reducible refine Keeps.mk_of ?_ ?_

theorem execLatchEdge_keeps {dt : Nat} {i : Fin 16} {falling : Bool} {s0 : State} : Leaves Keeps s0 (execLatchEdge dt i falling s0) := by
  have hk : Keeps s0 (s0.elapse dt) := State.elapse_keeps (Keeps.refl s0)
  unfold execLatchEdge
  repeat' first
    | with_reducible refine Leaves.next ?_
    | with_reducible exact hk
    | with_reducible assumption
    | with_reducible apply State.elapse_keeps
    | with_reducible apply State.latchLost_keeps
    | with_reducible apply State.latchSets_keeps
    | with_reducible apply State.modLat_keeps
    | with_reducible refine ite_row (fun _ => ?_) (fun _ => ?_)

theorem execSyncPulse_keeps {dt : Nat} {i : Fin 4} {position : W64} {backward : Bool} {wiringOk : Bool} {s0 : State} : Leaves Keeps s0 (execSyncPulse dt i position backward wiringOk s0) := by
  have hk : Keeps s0 (s0.elapse dt) := State.elapse_keeps (Keeps.refl s0)
  unfold execSyncPulse
  repeat' first
    | with_reducible refine Leaves.next ?_
    | with_reducible exact hk
    | with_reducible assumption
    | with_reducible apply State.elapse_keeps
    | with_reducible apply State.modSync_keeps
    | with_reducible apply State.raiseU_keeps
    | with_reducible apply State.ready_keeps
    | with_reducible apply State.syncRearm_keeps
    | with_reducible refine ite_row (fun _ => ?_) (fun _ => ?_)
    | with_reducible refine ite_keeps (fun _ => ?_) (fun _ => ?_)
    | rfl
    | split

theorem execSyncPulseEnd_keeps {dt : Nat} {i : Fin 4} {s0 : State} : Leaves Keeps s0 (execSyncPulseEnd dt i s0) := by
  have hk : Keeps s0 (s0.elapse dt) := State.elapse_keeps (Keeps.refl s0)
  unfold execSyncPulseEnd
  repeat' first
    | with_reducible refine Leaves.next ?_
    | with_reducible exact hk
    | with_reducible assumption
    | with_reducible apply State.elapse_keeps
    | with_reducible apply State.modSync_keeps
    | with_reducible refine ite_row (fun _ => ?_) (fun _ => ?_)
    | with_reducible refine ite_keeps (fun _ => ?_) (fun _ => ?_)

theorem hLcRead_keeps {σ : State} {_r : Req} {s : State} (hk : Keeps σ s) : (hLcRead _r s).Leaves Keeps σ := by
  unfold hLcRead
  repeat' first
    | with_reducible exact Answer.leaves_refuse
    | with_reducible refine Answer.leaves_done ?_
    | with_reducible refine Answer.leaves_later ?_
    | with_reducible exact hk

theorem onLc_leaves {σ s : State} {r : Req} {f : Nat → Answer} (hf : ∀ k, (f k).Leaves Keeps σ) :
    (onLc r s f).Leaves Keeps σ := by
  unfold onLc
  dsimp only
  repeat' first
    | with_reducible exact Answer.leaves_refuse
    | with_reducible exact hf _
    | split

theorem hLcStart_keeps {σ : State} {r : Req} {s : State} (hk : Keeps σ s) : (hLcStart r s).Leaves Keeps σ := by
  unfold hLcStart
  repeat' first
    | with_reducible exact Answer.leaves_refuse
    | with_reducible refine Answer.leaves_done ?_
    | with_reducible refine Answer.leaves_later ?_
    | with_reducible exact hk
    | with_reducible assumption
    | with_reducible apply State.lcAcquire_keeps
    | with_reducible refine onLc_leaves (fun _ => ?_)
    | with_reducible refine ite_leaves (fun _ => ?_) (fun _ => ?_)

theorem hLcStop_keeps {σ : State} {r : Req} {s : State} (hk : Keeps σ s) : (hLcStop r s).Leaves Keeps σ := by
  unfold hLcStop
  repeat' first
    | with_reducible exact Answer.leaves_refuse
    | with_reducible refine Answer.leaves_done ?_
    | with_reducible refine Answer.leaves_later ?_
    | with_reducible exact hk
    | with_reducible assumption
    | with_reducible apply State.condOff_keeps
    | with_reducible apply State.lcFreeze_keeps
    | with_reducible refine onLc_leaves (fun _ => ?_)
    | with_reducible refine ite_leaves (fun _ => ?_) (fun _ => ?_)

theorem hLcSet_keeps {σ : State} {r : Req} {s : State} (hk : Keeps σ s) : (hLcSet r s).Leaves Keeps σ := by
  unfold hLcSet
  repeat' first
    | with_reducible exact Answer.leaves_refuse
    | with_reducible refine Answer.leaves_done ?_
    | with_reducible refine Answer.leaves_later ?_
    | with_reducible exact hk
    | with_reducible assumption
    | with_reducible apply State.lcPut_keeps
    | with_reducible apply State.modLc_keeps
    | with_reducible refine onLc_leaves (fun _ => ?_)
    | with_reducible refine ite_leaves (fun _ => ?_) (fun _ => ?_)

theorem hTimeDiscipline_keeps {σ : State} {r : Req} {s : State} (hk : Keeps σ s) : (hTimeDiscipline r s).Leaves Keeps σ := by
  unfold hTimeDiscipline
  repeat' first
    | with_reducible exact Answer.leaves_refuse
    | with_reducible refine Answer.leaves_done ?_
    | with_reducible refine Answer.leaves_later ?_
    | with_reducible exact hk
    | with_reducible assumption
    | with_reducible apply State.raiseU_keeps
    | with_reducible refine ite_leaves (fun _ => ?_) (fun _ => ?_)
    | with_reducible refine ite_keeps (fun _ => ?_) (fun _ => ?_)
    | split
    | dsimp only
    | fail_if_no_progress with_reducible refine Keeps.mk_of ?_ ?_

theorem hLatStatus_keeps {σ : State} {r : Req} {s : State} (hk : Keeps σ s) : (hLatStatus r s).Leaves Keeps σ := by
  unfold hLatStatus
  repeat' first
    | with_reducible exact Answer.leaves_refuse
    | with_reducible refine Answer.leaves_done ?_
    | with_reducible refine Answer.leaves_later ?_
    | with_reducible exact hk
    | with_reducible assumption
    | with_reducible refine ite_leaves (fun _ => ?_) (fun _ => ?_)

theorem hSyncStatus_keeps {σ : State} {r : Req} {s : State} (hk : Keeps σ s) : (hSyncStatus r s).Leaves Keeps σ := by
  unfold hSyncStatus
  repeat' first
    | with_reducible exact Answer.leaves_refuse
    | with_reducible refine Answer.leaves_done ?_
    | with_reducible refine Answer.leaves_later ?_
    | with_reducible exact hk
    | with_reducible assumption
    | with_reducible refine ite_leaves (fun _ => ?_) (fun _ => ?_)

theorem execLcRead_keeps {dt : Nat} {m : Mbox} {s : State} : Leaves Keeps s (execLcRead dt m s) :=
  mailbox_keeps fun _ _ h => hLcRead_keeps h

theorem execLcStart_keeps {dt : Nat} {m : Mbox} {s : State} : Leaves Keeps s (execLcStart dt m s) :=
  mailbox_keeps fun _ _ h => hLcStart_keeps h

theorem execLcStop_keeps {dt : Nat} {m : Mbox} {s : State} : Leaves Keeps s (execLcStop dt m s) :=
  mailbox_keeps fun _ _ h => hLcStop_keeps h

theorem execLcSet_keeps {dt : Nat} {m : Mbox} {s : State} : Leaves Keeps s (execLcSet dt m s) :=
  mailbox_keeps fun _ _ h => hLcSet_keeps h

theorem execTimeDiscipline_keeps {dt : Nat} {m : Mbox} {s : State} : Leaves Keeps s (execTimeDiscipline dt m s) :=
  mailbox_keeps fun _ _ h => hTimeDiscipline_keeps h

theorem execLatStatus_keeps {dt : Nat} {m : Mbox} {s : State} : Leaves Keeps s (execLatStatus dt m s) :=
  mailbox_keeps fun _ _ h => hLatStatus_keeps h

theorem execSyncStatus_keeps {dt : Nat} {m : Mbox} {s : State} : Leaves Keeps s (execSyncStatus dt m s) :=
  mailbox_keeps fun _ _ h => hSyncStatus_keeps h

end Sys2Proof.Machine
end

