-- ==== Sys2Proof/Laws/RowsEpoch.lean ====
section
/-! SUPPORT. What the commands of Machine/Epoch.lean keep (see Laws/Keeps.lean). -/
namespace Sys2Proof.Machine

theorem execEpochSwitch_keeps {dt : Nat} {id : W32} {s0 : State} : Leaves Keeps s0 (execEpochSwitch dt id s0) := by
  have hk : Keeps s0 (s0.elapse dt) := State.elapse_keeps (Keeps.refl s0)
  unfold execEpochSwitch
  repeat' first
    | with_reducible refine Leaves.next ?_
    | with_reducible exact hk
    | with_reducible assumption
    | with_reducible apply State.elapse_keeps
    | with_reducible apply State.ready_keeps
    | with_reducible apply State.seekAll_keeps
    | with_reducible apply State.switchIf_keeps
    | with_reducible refine ite_row (fun _ => ?_) (fun _ => ?_)
    | with_reducible refine ite_keeps (fun _ => ?_) (fun _ => ?_)
    | rfl
    | split
    | dsimp only

theorem hEpochCommit_keeps {σ : State} {r : Req} {s : State} (hk : Keeps σ s) : (hEpochCommit r s).Leaves Keeps σ := by
  unfold hEpochCommit
  repeat' first
    | with_reducible exact Answer.leaves_refuse
    | with_reducible refine Answer.leaves_done ?_
    | with_reducible refine Answer.leaves_later ?_
    | with_reducible exact hk
    | with_reducible assumption
    | with_reducible apply State.modStage_keeps
    | with_reducible refine State.modPart_keeps ?_ (fun _ => rfl) (fun _ => rfl) (fun _ => rfl)
    | with_reducible refine ite_leaves (fun _ => ?_) (fun _ => ?_)
    | with_reducible refine ite_keeps (fun _ => ?_) (fun _ => ?_)
    | rfl
    | split
    | dsimp only
    | fail_if_no_progress with_reducible refine Keeps.mk_of ?_ ?_

theorem hEpochStatus_keeps {σ : State} {r : Req} {s : State} (hk : Keeps σ s) : (hEpochStatus r s).Leaves Keeps σ := by
  unfold hEpochStatus
  repeat' first
    | with_reducible exact Answer.leaves_refuse
    | with_reducible refine Answer.leaves_done ?_
    | with_reducible refine Answer.leaves_later ?_
    | with_reducible exact hk

theorem hEpochCancel_keeps {σ : State} {r : Req} {s : State} (hk : Keeps σ s) : (hEpochCancel r s).Leaves Keeps σ := by
  unfold hEpochCancel
  repeat' first
    | with_reducible exact Answer.leaves_refuse
    | with_reducible refine Answer.leaves_done ?_
    | with_reducible refine Answer.leaves_later ?_
    | with_reducible exact hk
    | with_reducible assumption
    | with_reducible apply State.modStage_keeps
    | with_reducible refine State.modPart_keeps ?_ (fun _ => rfl) (fun _ => rfl) (fun _ => rfl)
    | with_reducible refine ite_leaves (fun _ => ?_) (fun _ => ?_)
    | with_reducible refine ite_keeps (fun _ => ?_) (fun _ => ?_)
    | split
    | dsimp only
    | fail_if_no_progress with_reducible refine Keeps.mk_of ?_ ?_

theorem hStageDiscard_keeps {σ : State} {r : Req} {s : State} (hk : Keeps σ s) : (hStageDiscard r s).Leaves Keeps σ := by
  unfold hStageDiscard
  repeat' first
    | with_reducible exact Answer.leaves_refuse
    | with_reducible refine Answer.leaves_done ?_
    | with_reducible refine Answer.leaves_later ?_
    | with_reducible exact hk
    | with_reducible assumption
    | with_reducible apply State.modStage_keeps

theorem execEpochCommit_keeps {dt : Nat} {m : Mbox} {s : State} : Leaves Keeps s (execEpochCommit dt m s) :=
  mailbox_keeps fun _ _ h => hEpochCommit_keeps h

theorem execEpochStatus_keeps {dt : Nat} {m : Mbox} {s : State} : Leaves Keeps s (execEpochStatus dt m s) :=
  mailbox_keeps fun _ _ h => hEpochStatus_keeps h

theorem execEpochCancel_keeps {dt : Nat} {m : Mbox} {s : State} : Leaves Keeps s (execEpochCancel dt m s) :=
  mailbox_keeps fun _ _ h => hEpochCancel_keeps h

theorem execStageDiscard_keeps {dt : Nat} {m : Mbox} {s : State} : Leaves Keeps s (execStageDiscard dt m s) :=
  mailbox_keeps fun _ _ h => hStageDiscard_keeps h

end Sys2Proof.Machine
end

