-- ==== Sys2Proof/Laws/RowsFaultBase.lean ====
section
/-! SUPPORT. What the commands of Machine/FaultBase.lean keep (see Laws/Keeps.lean). -/
namespace Sys2Proof.Machine

theorem execFaultOccurrence_keeps {dt : Nat} {src : Fin 512} {o : Option Occ} {s0 : State} : Leaves Keeps s0 (execFaultOccurrence dt src o s0) := by
  have hk : Keeps s0 (s0.elapse dt) := State.elapse_keeps (Keeps.refl s0)
  unfold execFaultOccurrence
  repeat' first
    | with_reducible refine Leaves.next ?_
    | with_reducible exact hk
    | with_reducible assumption
    | with_reducible apply State.elapse_keeps
    | with_reducible apply State.latch_keeps
    | with_reducible apply State.parityError_keeps
    | with_reducible apply State.takeRaise_keeps
    | with_reducible refine ite_row (fun _ => ?_) (fun _ => ?_)
    | with_reducible refine ite_keeps (fun _ => ?_) (fun _ => ?_)
    | rfl
    | split
    | dsimp only

theorem execInvalidPair_keeps {dt : Nat} {src : Fin 512} {s0 : State} : Leaves Keeps s0 (execInvalidPair dt src s0) := by
  have hk : Keeps s0 (s0.elapse dt) := State.elapse_keeps (Keeps.refl s0)
  unfold execInvalidPair
  repeat' first
    | with_reducible refine Leaves.next ?_
    | with_reducible exact hk
    | with_reducible assumption
    | with_reducible apply State.elapse_keeps
    | with_reducible apply State.wireFault_keeps
    | with_reducible refine ite_row (fun _ => ?_) (fun _ => ?_)

theorem execFaultLineClear_keeps {dt : Nat} {src : Fin 512} {s0 : State} : Leaves Keeps s0 (execFaultLineClear dt src s0) := by
  have hk : Keeps s0 (s0.elapse dt) := State.elapse_keeps (Keeps.refl s0)
  unfold execFaultLineClear
  repeat' first
    | with_reducible refine Leaves.next ?_
    | with_reducible exact hk
    | with_reducible assumption
    | with_reducible apply State.currentClear_keeps
    | with_reducible apply State.elapse_keeps
    | with_reducible refine ite_row (fun _ => ?_) (fun _ => ?_)

theorem execGraceExpired_keeps {dt : Nat} {src : Fin 512} {s0 : State} : Leaves Keeps s0 (execGraceExpired dt src s0) := by
  have hk : Keeps s0 (s0.elapse dt) := State.elapse_keeps (Keeps.refl s0)
  unfold execGraceExpired
  repeat' first
    | with_reducible refine Leaves.next ?_
    | with_reducible exact hk
    | with_reducible assumption
    | with_reducible apply State.elapse_keeps
    | with_reducible apply State.logFault_keeps
    | with_reducible apply State.modRec_keeps
    | with_reducible apply State.takeReactions_keeps
    | with_reducible refine ite_row (fun _ => ?_) (fun _ => ?_)

theorem execQuietTimeExpired_keeps {dt : Nat} {src : Fin 512} {s0 : State} : Leaves Keeps s0 (execQuietTimeExpired dt src s0) := by
  have hk : Keeps s0 (s0.elapse dt) := State.elapse_keeps (Keeps.refl s0)
  unfold execQuietTimeExpired
  repeat' first
    | with_reducible refine Leaves.next ?_
    | with_reducible exact hk
    | with_reducible assumption
    | with_reducible apply State.elapse_keeps
    | with_reducible apply State.leaveFault_keeps
    | with_reducible refine ite_row (fun _ => ?_) (fun _ => ?_)

theorem execChipReset_keeps {dt : Nat} {s0 : State} : Leaves Keeps s0 (execChipReset dt s0) := by
  have hk : Keeps s0 (s0.elapse dt) := State.elapse_keeps (Keeps.refl s0)
  unfold execChipReset
  repeat' first
    | with_reducible refine Leaves.next ?_
    | with_reducible exact hk
    | with_reducible assumption
    | with_reducible apply State.elapse_keeps
    | with_reducible apply State.supervise_keeps
    | with_reducible refine ite_row (fun _ => ?_) (fun _ => ?_)
    | with_reducible refine ite_keeps (fun _ => ?_) (fun _ => ?_)
    | rfl
    | split
    | dsimp only
    | fail_if_no_progress with_reducible refine Keeps.mk_of ?_ ?_

theorem execAliveRenewal_keeps {dt : Nat} {s0 : State} : Leaves Keeps s0 (execAliveRenewal dt s0) := by
  have hk : Keeps s0 (s0.elapse dt) := State.elapse_keeps (Keeps.refl s0)
  unfold execAliveRenewal
  repeat' first
    | with_reducible refine Leaves.next ?_
    | with_reducible exact hk
    | with_reducible assumption
    | with_reducible apply State.elapse_keeps
    | with_reducible refine ite_row (fun _ => ?_) (fun _ => ?_)
    | with_reducible refine ite_keeps (fun _ => ?_) (fun _ => ?_)
    | split
    | dsimp only
    | fail_if_no_progress with_reducible refine Keeps.mk_of ?_ ?_

theorem execAliveRenewalMissed_keeps {dt : Nat} {s0 : State} : Leaves Keeps s0 (execAliveRenewalMissed dt s0) := by
  have hk : Keeps s0 (s0.elapse dt) := State.elapse_keeps (Keeps.refl s0)
  unfold execAliveRenewalMissed
  repeat' first
    | with_reducible refine Leaves.next ?_
    | with_reducible exact hk
    | with_reducible assumption
    | with_reducible apply State.elapse_keeps
    | with_reducible apply State.raiseU_keeps
    | with_reducible refine ite_row (fun _ => ?_) (fun _ => ?_)
    | with_reducible refine ite_keeps (fun _ => ?_) (fun _ => ?_)
    | split
    | dsimp only
    | fail_if_no_progress with_reducible refine Keeps.mk_of ?_ ?_

end Sys2Proof.Machine
end

