-- ==== Sys2Proof/Laws/RowsFaults.lean ====
section
/-! SUPPORT. What the commands of Machine/Faults.lean keep (see Laws/Keeps.lean). -/
namespace Sys2Proof.Machine

theorem hFaultSummary_keeps {σ : State} {_r : Req} {s : State} (hk : Keeps σ s) : (hFaultSummary _r s).Leaves Keeps σ := by
  unfold hFaultSummary
  repeat' first
    | with_reducible exact Answer.leaves_refuse
    | with_reducible refine Answer.leaves_done ?_
    | with_reducible refine Answer.leaves_later ?_
    | with_reducible exact hk

theorem hFaultRead_keeps {σ : State} {r : Req} {s : State} (hk : Keeps σ s) : (hFaultRead r s).Leaves Keeps σ := by
  unfold hFaultRead
  repeat' first
    | with_reducible exact Answer.leaves_refuse
    | with_reducible refine Answer.leaves_done ?_
    | with_reducible refine Answer.leaves_later ?_
    | with_reducible exact hk
    | with_reducible assumption
    | with_reducible apply State.modRec_keeps
    | with_reducible refine ite_leaves (fun _ => ?_) (fun _ => ?_)
    | with_reducible refine ite_keeps (fun _ => ?_) (fun _ => ?_)

theorem hFaultClear_keeps {σ : State} {r : Req} {s : State} (hk : Keeps σ s) : (hFaultClear r s).Leaves Keeps σ := by
  unfold hFaultClear
  repeat' first
    | with_reducible exact Answer.leaves_refuse
    | with_reducible refine Answer.leaves_done ?_
    | with_reducible refine Answer.leaves_later ?_
    | with_reducible exact hk
    | with_reducible assumption
    | with_reducible apply State.leaveFault_keeps
    | with_reducible refine ite_leaves (fun _ => ?_) (fun _ => ?_)

theorem hFaultRequalify_keeps {σ : State} {r : Req} {s : State} (hk : Keeps σ s) : (hFaultRequalify r s).Leaves Keeps σ := by
  unfold hFaultRequalify
  repeat' first
    | with_reducible exact Answer.leaves_refuse
    | with_reducible refine Answer.leaves_done ?_
    | with_reducible refine Answer.leaves_later ?_
    | with_reducible exact hk
    | with_reducible assumption
    | with_reducible apply State.wantRelease_keeps
    | with_reducible refine ite_leaves (fun _ => ?_) (fun _ => ?_)

theorem execRequalifyDone_keeps {dt : Nat} {q : Requal} {result loopMin loopMax : Nat} {s0 : State} :
    Leaves Keeps s0 (execRequalifyDone dt q result loopMin loopMax s0) := by
  have hk : Keeps s0 (s0.elapse dt) := State.elapse_keeps (Keeps.refl s0)
  unfold execRequalifyDone
  repeat' first
    | with_reducible refine Leaves.next ?_
    | with_reducible exact hk
    | with_reducible assumption
    | with_reducible apply State.dropRelease_keeps
    | with_reducible apply State.elapse_keeps
    | with_reducible apply State.finish_keeps
    | with_reducible apply State.modChan_keeps
    | with_reducible apply State.pinsIdle_keeps
    | with_reducible apply State.raise_keeps
    | with_reducible apply State.requalEvent_keeps
    | with_reducible apply State.requalExit_keeps
    | with_reducible apply State.testRest_keeps
    | with_reducible refine ite_row (fun _ => ?_) (fun _ => ?_)
    | with_reducible refine ite_keeps (fun _ => ?_) (fun _ => ?_)
    | rfl
    | split
    | dsimp only
    | fail_if_no_progress with_reducible refine Keeps.mk_of ?_ ?_

theorem hFaultInject_keeps {σ : State} {r : Req} {s : State} (hk : Keeps σ s) : (hFaultInject r s).Leaves Keeps σ := by
  unfold hFaultInject
  repeat' first
    | with_reducible exact Answer.leaves_refuse
    | with_reducible refine Answer.leaves_done ?_
    | with_reducible refine Answer.leaves_later ?_
    | with_reducible exact hk
    | with_reducible assumption
    | with_reducible refine ite_leaves (fun _ => ?_) (fun _ => ?_)
    | with_reducible refine ite_keeps (fun _ => ?_) (fun _ => ?_)
    | split
    | dsimp only
    | fail_if_no_progress with_reducible refine Keeps.mk_of ?_ ?_

theorem execInjectDone_keeps {dt : Nat} {residual : Option Nat} {s0 : State} : Leaves Keeps s0 (execInjectDone dt residual s0) := by
  have hk : Keeps s0 (s0.elapse dt) := State.elapse_keeps (Keeps.refl s0)
  unfold execInjectDone
  repeat' first
    | with_reducible refine Leaves.next ?_
    | with_reducible exact hk
    | with_reducible assumption
    | with_reducible apply State.elapse_keeps
    | with_reducible apply State.injectEnd_keeps
    | with_reducible apply State.latch_keeps
    | with_reducible apply State.modRec_keeps
    | with_reducible apply State.raise_keeps
    | with_reducible apply State.wireFault_keeps
    | with_reducible refine ite_row (fun _ => ?_) (fun _ => ?_)
    | with_reducible refine ite_keeps (fun _ => ?_) (fun _ => ?_)
    | split
    | dsimp only

theorem hLogRead_keeps {σ : State} {r : Req} {s : State} (hk : Keeps σ s) : (hLogRead r s).Leaves Keeps σ := by
  unfold hLogRead
  repeat' first
    | with_reducible exact Answer.leaves_refuse
    | with_reducible refine Answer.leaves_done ?_
    | with_reducible refine Answer.leaves_later ?_
    | with_reducible exact hk
    | with_reducible assumption
    | with_reducible apply State.log_keeps
    | with_reducible apply State.storeWrite_keeps
    | with_reducible refine ite_leaves (fun _ => ?_) (fun _ => ?_)

theorem hFaultPinRelease_keeps {σ : State} {r : Req} {s : State} (hk : Keeps σ s) : (hFaultPinRelease r s).Leaves Keeps σ := by
  unfold hFaultPinRelease
  repeat' first
    | with_reducible exact Answer.leaves_refuse
    | with_reducible refine Answer.leaves_done ?_
    | with_reducible refine Answer.leaves_later ?_
    | with_reducible exact hk
    | with_reducible assumption
    | with_reducible apply State.log_keeps
    | with_reducible apply State.pinSettle_keeps
    | with_reducible refine ite_leaves (fun _ => ?_) (fun _ => ?_)
    | with_reducible refine ite_keeps (fun _ => ?_) (fun _ => ?_)
    | split
    | dsimp only
    | fail_if_no_progress with_reducible refine Keeps.mk_of ?_ ?_

theorem execFaultSummary_keeps {dt : Nat} {m : Mbox} {s : State} : Leaves Keeps s (execFaultSummary dt m s) :=
  mailbox_keeps fun _ _ h => hFaultSummary_keeps h

theorem execFaultRead_keeps {dt : Nat} {m : Mbox} {s : State} : Leaves Keeps s (execFaultRead dt m s) :=
  mailbox_keeps fun _ _ h => hFaultRead_keeps h

theorem execFaultClear_keeps {dt : Nat} {m : Mbox} {s : State} : Leaves Keeps s (execFaultClear dt m s) :=
  mailbox_keeps fun _ _ h => hFaultClear_keeps h

theorem execFaultRequalify_keeps {dt : Nat} {m : Mbox} {s : State} : Leaves Keeps s (execFaultRequalify dt m s) :=
  mailbox_keeps fun _ _ h => hFaultRequalify_keeps h

theorem execFaultInject_keeps {dt : Nat} {m : Mbox} {s : State} : Leaves Keeps s (execFaultInject dt m s) :=
  mailbox_keeps fun _ _ h => hFaultInject_keeps h

theorem execLogRead_keeps {dt : Nat} {m : Mbox} {s : State} : Leaves Keeps s (execLogRead dt m s) :=
  mailbox_keeps fun _ _ h => hLogRead_keeps h

theorem execFaultPinRelease_keeps {dt : Nat} {m : Mbox} {s : State} : Leaves Keeps s (execFaultPinRelease dt m s) :=
  mailbox_keeps fun _ _ h => hFaultPinRelease_keeps h

end Sys2Proof.Machine
end

