-- ==== Sys2Proof/Laws/RowsMailbox.lean ====
section
/-! SUPPORT. What the commands of Machine/Mailbox.lean keep (see Laws/Keeps.lean). -/
namespace Sys2Proof.Machine

theorem bulkReply_keeps {σ : State} {r : Req} {data : List Byte} {s : State} (hk : Keeps σ s) : (bulkReply r data s).Leaves Keeps σ := by
  unfold bulkReply
  repeat' first
    | with_reducible exact Answer.leaves_refuse
    | with_reducible refine Answer.leaves_done ?_
    | with_reducible refine Answer.leaves_later ?_
    | with_reducible exact hk
    | with_reducible assumption
    | with_reducible apply State.storeWrite_keeps
    | with_reducible refine ite_leaves (fun _ => ?_) (fun _ => ?_)

end Sys2Proof.Machine
end

