-- ==== Sys2Proof/Laws/RowsFilter.lean ====
section
/-! SUPPORT. What the commands of Machine/Filter.lean keep (see Laws/Keeps.lean). -/
namespace Sys2Proof.Machine

theorem execRingEntry_keeps {dt : Nat} {c : Fin 32} {s0 : State} : Leaves Keeps s0 (execRingEntry dt c s0) := by
  have hk : Keeps s0 (s0.elapse dt) := State.elapse_keeps (Keeps.refl s0)
  unfold execRingEntry
  repeat' first
    | with_reducible refine Leaves.next ?_
    | with_reducible exact hk
    | with_reducible assumption
    | with_reducible apply State.elapse_keeps
    | with_reducible apply State.takeEntry_keeps
    | with_reducible apply State.tellDone_keeps
    | with_reducible refine ite_row (fun _ => ?_) (fun _ => ?_)
    | with_reducible refine ite_keeps (fun _ => ?_) (fun _ => ?_)
    | rfl
    | split
    | dsimp only

theorem hObjDefine_keeps {σ : State} {r : Req} {s : State} (hk : Keeps σ s) : (hObjDefine r s).Leaves Keeps σ := by
  unfold hObjDefine
  repeat' first
    | with_reducible exact Answer.leaves_refuse
    | with_reducible refine Answer.leaves_done ?_
    | with_reducible refine Answer.leaves_later ?_
    | with_reducible exact hk
    | with_reducible assumption
    | with_reducible apply State.restage_keeps
    | with_reducible refine ite_leaves (fun _ => ?_) (fun _ => ?_)
    | with_reducible refine ite_keeps (fun _ => ?_) (fun _ => ?_)
    | rfl
    | split
    | dsimp only

theorem hObjRead_keeps {σ : State} {r : Req} {s : State} (hk : Keeps σ s) : (hObjRead r s).Leaves Keeps σ := by
  unfold hObjRead
  repeat' first
    | with_reducible exact Answer.leaves_refuse
    | with_reducible refine Answer.leaves_done ?_
    | with_reducible refine Answer.leaves_later ?_
    | with_reducible exact hk
    | with_reducible assumption
    | with_reducible apply State.modObj_keeps
    | with_reducible apply State.storeWrite_keeps
    | with_reducible refine ite_leaves (fun _ => ?_) (fun _ => ?_)
    | with_reducible refine ite_keeps (fun _ => ?_) (fun _ => ?_)
    | rfl
    | split
    | dsimp only
    | fail_if_no_progress with_reducible refine Keeps.mk_of ?_ ?_

theorem hRuleStage_keeps {σ : State} {r : Req} {s : State} (hk : Keeps σ s) : (hRuleStage r s).Leaves Keeps σ := by
  unfold hRuleStage
  repeat' first
    | with_reducible exact Answer.leaves_refuse
    | with_reducible refine Answer.leaves_done ?_
    | with_reducible refine Answer.leaves_later ?_
    | with_reducible exact hk
    | with_reducible assumption
    | with_reducible apply State.restage_keeps
    | with_reducible refine ite_leaves (fun _ => ?_) (fun _ => ?_)
    | with_reducible refine ite_keeps (fun _ => ?_) (fun _ => ?_)
    | rfl
    | split
    | dsimp only
    | fail_if_no_progress with_reducible refine Keeps.mk_of ?_ ?_

theorem hRuleRead_keeps {σ : State} {r : Req} {s : State} (hk : Keeps σ s) : (hRuleRead r s).Leaves Keeps σ := by
  unfold hRuleRead
  repeat' first
    | with_reducible exact Answer.leaves_refuse
    | with_reducible refine Answer.leaves_done ?_
    | with_reducible refine Answer.leaves_later ?_
    | with_reducible exact hk
    | with_reducible assumption
    | with_reducible apply bulkReply_keeps
    | with_reducible refine ite_leaves (fun _ => ?_) (fun _ => ?_)
    | with_reducible refine ite_keeps (fun _ => ?_) (fun _ => ?_)
    | split

theorem hFiltStatus_keeps {σ : State} {r : Req} {s : State} (hk : Keeps σ s) : (hFiltStatus r s).Leaves Keeps σ := by
  unfold hFiltStatus
  repeat' first
    | with_reducible exact Answer.leaves_refuse
    | with_reducible refine Answer.leaves_done ?_
    | with_reducible refine Answer.leaves_later ?_
    | with_reducible exact hk
    | with_reducible assumption
    | with_reducible apply State.modRing_keeps
    | with_reducible refine ite_leaves (fun _ => ?_) (fun _ => ?_)

theorem execObjDefine_keeps {dt : Nat} {m : Mbox} {s : State} : Leaves Keeps s (execObjDefine dt m s) :=
  mailbox_keeps fun _ _ h => hObjDefine_keeps h

theorem execObjRead_keeps {dt : Nat} {m : Mbox} {s : State} : Leaves Keeps s (execObjRead dt m s) :=
  mailbox_keeps fun _ _ h => hObjRead_keeps h

theorem execRuleStage_keeps {dt : Nat} {m : Mbox} {s : State} : Leaves Keeps s (execRuleStage dt m s) :=
  mailbox_keeps fun _ _ h => hRuleStage_keeps h

theorem execRuleRead_keeps {dt : Nat} {m : Mbox} {s : State} : Leaves Keeps s (execRuleRead dt m s) :=
  mailbox_keeps fun _ _ h => hRuleRead_keeps h

theorem execFiltStatus_keeps {dt : Nat} {m : Mbox} {s : State} : Leaves Keeps s (execFiltStatus dt m s) :=
  mailbox_keeps fun _ _ h => hFiltStatus_keeps h

end Sys2Proof.Machine
end

