-- ==== Sys2Proof/Laws/RowsGeneral.lean ====
section
/-! SUPPORT. What the commands of Machine/General.lean keep (see Laws/Keeps.lean). -/
namespace Sys2Proof.Machine

theorem hGetInfo_keeps {σ : State} {r : Req} {s : State} (hk : Keeps σ s) : (hGetInfo r s).Leaves Keeps σ := by
  unfold hGetInfo
  repeat' first
    | with_reducible exact Answer.leaves_refuse
    | with_reducible refine Answer.leaves_done ?_
    | with_reducible refine Answer.leaves_later ?_
    | with_reducible exact hk

theorem hPartStatus_keeps {σ : State} {r : Req} {s : State} (hk : Keeps σ s) : (hPartStatus r s).Leaves Keeps σ := by
  unfold hPartStatus
  repeat' first
    | with_reducible exact Answer.leaves_refuse
    | with_reducible refine Answer.leaves_done ?_
    | with_reducible refine Answer.leaves_later ?_
    | with_reducible exact hk
    | with_reducible assumption
    | with_reducible refine ite_leaves (fun _ => ?_) (fun _ => ?_)

theorem hPartReset_keeps {σ : State} {r : Req} {s : State} (hk : Keeps σ s) : (hPartReset r s).Leaves Keeps σ := by
  unfold hPartReset
  repeat' first
    | with_reducible exact Answer.leaves_refuse
    | with_reducible refine Answer.leaves_done ?_
    | with_reducible refine Answer.leaves_later ?_
    | with_reducible exact hk
    | with_reducible assumption
    | with_reducible apply State.startReset_keeps
    | with_reducible refine ite_leaves (fun _ => ?_) (fun _ => ?_)

theorem State.rightsCmd_safe {σ : State} {on : Bool} {r : Req} {s : State} (hk : Safe σ s) :
    (State.rightsCmd on r s).Leaves Safe σ := by
  have event : ∀ {t : State} {p ty i : Nat} {b : List Byte}, Safe σ t → Safe σ (t.event p ty i b) :=
    fun h => h.trans (State.event_keeps (Keeps.refl _)).safe
  unfold State.rightsCmd
  extract_lets p i
  split
  · exact Answer.leaves_refuse
  · next c n _ =>
    refine ite_leaves (fun _ => Answer.leaves_refuse) fun _ => ite_leaves (fun _ => Answer.leaves_refuse) fun _ =>
      ite_leaves (fun _ => Answer.leaves_refuse) fun _ => ?_
    extract_lets owner
    refine ite_leaves (fun _ => Answer.leaves_refuse) fun _ => ite_leaves (fun _ => Answer.leaves_done hk) fun _ => ?_
    refine Answer.leaves_done ?_
    split
    · exact event (State.setRights_safe hk)
    · exact event (event (State.setRights_safe hk))

theorem hRightsList_keeps {σ : State} {r : Req} {s : State} (hk : Keeps σ s) : (hRightsList r s).Leaves Keeps σ := by
  unfold hRightsList
  repeat' first
    | with_reducible exact Answer.leaves_refuse
    | with_reducible refine Answer.leaves_done ?_
    | with_reducible refine Answer.leaves_later ?_
    | with_reducible exact hk
    | with_reducible assumption
    | with_reducible refine ite_leaves (fun _ => ?_) (fun _ => ?_)
    | with_reducible refine ite_keeps (fun _ => ?_) (fun _ => ?_)
    | split

theorem hParamSet_keeps {σ : State} {r : Req} {s : State} (hk : Keeps σ s) : (hParamSet r s).Leaves Keeps σ := by
  unfold hParamSet
  repeat' first
    | with_reducible exact Answer.leaves_refuse
    | with_reducible refine Answer.leaves_done ?_
    | with_reducible refine Answer.leaves_later ?_
    | with_reducible exact hk
    | with_reducible assumption
    | with_reducible apply State.applyEntry_keeps
    | with_reducible refine ite_leaves (fun _ => ?_) (fun _ => ?_)
    | with_reducible refine ite_keeps (fun _ => ?_) (fun _ => ?_)
    | (with_reducible refine foldl_keeps ?_ ?_; intro _ _ _)
    | rfl
    | split
    | dsimp only

theorem hParamGet_keeps {σ : State} {r : Req} {s : State} (hk : Keeps σ s) : (hParamGet r s).Leaves Keeps σ := by
  unfold hParamGet
  repeat' first
    | with_reducible exact Answer.leaves_refuse
    | with_reducible refine Answer.leaves_done ?_
    | with_reducible refine Answer.leaves_later ?_
    | with_reducible exact hk
    | with_reducible assumption
    | with_reducible apply State.storeWrite_keeps
    | with_reducible refine ite_leaves (fun _ => ?_) (fun _ => ?_)
    | with_reducible refine ite_keeps (fun _ => ?_) (fun _ => ?_)
    | split
    | dsimp only

theorem hParamLookup_keeps {σ : State} {r : Req} {s : State} (hk : Keeps σ s) : (hParamLookup r s).Leaves Keeps σ := by
  unfold hParamLookup
  repeat' first
    | with_reducible exact Answer.leaves_refuse
    | with_reducible refine Answer.leaves_done ?_
    | with_reducible refine Answer.leaves_later ?_
    | with_reducible exact hk
    | with_reducible assumption
    | with_reducible refine ite_leaves (fun _ => ?_) (fun _ => ?_)
    | with_reducible refine ite_keeps (fun _ => ?_) (fun _ => ?_)
    | split
    | dsimp only

theorem execGetInfo_keeps {dt : Nat} {m : Mbox} {s : State} : Leaves Keeps s (execGetInfo dt m s) :=
  mailbox_keeps fun _ _ h => hGetInfo_keeps h

theorem execPartStatus_keeps {dt : Nat} {m : Mbox} {s : State} : Leaves Keeps s (execPartStatus dt m s) :=
  mailbox_keeps fun _ _ h => hPartStatus_keeps h

theorem execPartReset_keeps {dt : Nat} {m : Mbox} {s : State} : Leaves Keeps s (execPartReset dt m s) :=
  mailbox_keeps fun _ _ h => hPartReset_keeps h

theorem execRightsGrant_safe {dt : Nat} {m : Mbox} {s : State} : Leaves Safe s (execRightsGrant dt m s) :=
  mailbox_safe fun _ _ h => State.rightsCmd_safe h

theorem execRightsRevoke_safe {dt : Nat} {m : Mbox} {s : State} : Leaves Safe s (execRightsRevoke dt m s) :=
  mailbox_safe fun _ _ h => State.rightsCmd_safe h

theorem execRightsList_keeps {dt : Nat} {m : Mbox} {s : State} : Leaves Keeps s (execRightsList dt m s) :=
  mailbox_keeps fun _ _ h => hRightsList_keeps h

theorem execParamSet_keeps {dt : Nat} {m : Mbox} {s : State} : Leaves Keeps s (execParamSet dt m s) :=
  mailbox_keeps fun _ _ h => hParamSet_keeps h

theorem execParamGet_keeps {dt : Nat} {m : Mbox} {s : State} : Leaves Keeps s (execParamGet dt m s) :=
  mailbox_keeps fun _ _ h => hParamGet_keeps h

theorem execParamLookup_keeps {dt : Nat} {m : Mbox} {s : State} : Leaves Keeps s (execParamLookup dt m s) :=
  mailbox_keeps fun _ _ h => hParamLookup_keeps h

end Sys2Proof.Machine
end

