-- ==== Sys2Proof/Laws/RowsQueues.lean ====
section
/-! SUPPORT. What the commands of Machine/Queues.lean keep (see Laws/Keeps.lean). -/
namespace Sys2Proof.Machine

theorem onQueue_leaves {σ s : State} {r : Req} {f : Nat → Answer} (hf : ∀ k, (f k).Leaves Keeps σ) :
    (onQueue r s f).Leaves Keeps σ := by
  unfold onQueue
  dsimp only
  repeat' first
    | with_reducible exact Answer.leaves_refuse
    | with_reducible exact hf _
    | split

theorem hQOpen_keeps {σ : State} {r : Req} {s : State} (hk : Keeps σ s) : (hQOpen r s).Leaves Keeps σ := by
  unfold hQOpen
  repeat' first
    | with_reducible exact Answer.leaves_refuse
    | with_reducible refine Answer.leaves_done ?_
    | with_reducible refine Answer.leaves_later ?_
    | with_reducible exact hk
    | with_reducible assumption
    | with_reducible apply State.modQueue_keeps
    | with_reducible apply State.refreshPage_keeps
    | with_reducible apply State.storeWrite_keeps
    | with_reducible refine onQueue_leaves (fun _ => ?_)
    | with_reducible refine ite_leaves (fun _ => ?_) (fun _ => ?_)
    | with_reducible refine ite_keeps (fun _ => ?_) (fun _ => ?_)
    | rfl
    | split
    | dsimp only
    | fail_if_no_progress with_reducible refine Keeps.mk_of ?_ ?_

theorem hQClose_keeps {σ : State} {r : Req} {s : State} (hk : Keeps σ s) : (hQClose r s).Leaves Keeps σ := by
  unfold hQClose
  repeat' first
    | with_reducible exact Answer.leaves_refuse
    | with_reducible refine Answer.leaves_done ?_
    | with_reducible refine Answer.leaves_later ?_
    | with_reducible exact hk
    | with_reducible assumption
    | with_reducible apply State.modQueue_keeps
    | with_reducible apply State.refreshPage_keeps
    | with_reducible refine onQueue_leaves (fun _ => ?_)
    | with_reducible refine ite_leaves (fun _ => ?_) (fun _ => ?_)
    | with_reducible refine ite_keeps (fun _ => ?_) (fun _ => ?_)
    | rfl
    | split
    | dsimp only
    | fail_if_no_progress with_reducible refine Keeps.mk_of ?_ ?_

theorem hQFlush_keeps {σ : State} {r : Req} {s : State} (hk : Keeps σ s) : (hQFlush r s).Leaves Keeps σ := by
  unfold hQFlush
  repeat' first
    | with_reducible exact Answer.leaves_refuse
    | with_reducible refine Answer.leaves_done ?_
    | with_reducible refine Answer.leaves_later ?_
    | with_reducible exact hk
    | with_reducible assumption
    | with_reducible apply State.flush_keeps
    | with_reducible refine onQueue_leaves (fun _ => ?_)
    | with_reducible refine ite_leaves (fun _ => ?_) (fun _ => ?_)

theorem hQStatus_keeps {σ : State} {r : Req} {s : State} (hk : Keeps σ s) : (hQStatus r s).Leaves Keeps σ := by
  unfold hQStatus
  repeat' first
    | with_reducible exact Answer.leaves_refuse
    | with_reducible refine Answer.leaves_done ?_
    | with_reducible refine Answer.leaves_later ?_
    | with_reducible exact hk
    | with_reducible assumption
    | with_reducible refine onQueue_leaves (fun _ => ?_)

theorem execQOpen_keeps {dt : Nat} {m : Mbox} {s : State} : Leaves Keeps s (execQOpen dt m s) :=
  mailbox_keeps fun _ _ h => hQOpen_keeps h

theorem execQClose_keeps {dt : Nat} {m : Mbox} {s : State} : Leaves Keeps s (execQClose dt m s) :=
  mailbox_keeps fun _ _ h => hQClose_keeps h

theorem execQFlush_keeps {dt : Nat} {m : Mbox} {s : State} : Leaves Keeps s (execQFlush dt m s) :=
  mailbox_keeps fun _ _ h => hQFlush_keeps h

theorem execQStatus_keeps {dt : Nat} {m : Mbox} {s : State} : Leaves Keeps s (execQStatus dt m s) :=
  mailbox_keeps fun _ _ h => hQStatus_keeps h

theorem hostReg_leaves {s0 s : State} {w : Via} {off : Nat} {f : State → State} (hk : Keeps s0 s)
    (hf : Keeps s0 (f s)) : Leaves Keeps s0 (hostReg w off s f) :=
  ite_row (fun _ => .next hf) fun _ => .next (State.refusePort_keeps hk)

theorem execDbQueueH2d_keeps {dt : Nat} {w : Via} {q : Fin 64} {s0 : State} : Leaves Keeps s0 (execDbQueueH2d dt w q s0) := by
  have hk : Keeps s0 (s0.elapse dt) := State.elapse_keeps (Keeps.refl s0)
  unfold execDbQueueH2d
  repeat' first
    | with_reducible refine Leaves.next ?_
    | with_reducible exact hk
    | with_reducible assumption
    | with_reducible apply State.elapse_keeps
    | with_reducible apply State.ring_keeps
    | with_reducible refine hostReg_leaves ?_ ?_

theorem execDbQueueD2h_keeps {dt : Nat} {w : Via} {q : Fin 64} {s0 : State} : Leaves Keeps s0 (execDbQueueD2h dt w q s0) := by
  have hk : Keeps s0 (s0.elapse dt) := State.elapse_keeps (Keeps.refl s0)
  unfold execDbQueueD2h
  repeat' first
    | with_reducible refine Leaves.next ?_
    | with_reducible exact hk
    | with_reducible assumption
    | with_reducible apply State.elapse_keeps
    | with_reducible apply State.ring_keeps
    | with_reducible refine hostReg_leaves ?_ ?_

theorem execReadTimeoutExpired_keeps {dt : Nat} {q : Fin 64} {s0 : State} : Leaves Keeps s0 (execReadTimeoutExpired dt q s0) := by
  have hk : Keeps s0 (s0.elapse dt) := State.elapse_keeps (Keeps.refl s0)
  unfold execReadTimeoutExpired
  repeat' first
    | with_reducible refine Leaves.next ?_
    | with_reducible exact hk
    | with_reducible assumption
    | with_reducible apply State.elapse_keeps
    | with_reducible apply State.fire_keeps
    | with_reducible refine ite_row (fun _ => ?_) (fun _ => ?_)
    | with_reducible refine ite_keeps (fun _ => ?_) (fun _ => ?_)
    | split
    | dsimp only

end Sys2Proof.Machine
end

