-- ==== Sys2Proof/Laws/RowsHostPorts.lean ====
section
/-! SUPPORT. What the commands of Machine/HostPorts.lean keep (see Laws/Keeps.lean). -/
namespace Sys2Proof.Machine

theorem execEvtTailWrite_keeps {dt : Nat} {w : Via} {value : W32} {s0 : State} : Leaves Keeps s0 (execEvtTailWrite dt w value s0) := by
  have hk : Keeps s0 (s0.elapse dt) := State.elapse_keeps (Keeps.refl s0)
  unfold execEvtTailWrite
  repeat' first
    | with_reducible refine Leaves.next ?_
    | with_reducible exact hk
    | with_reducible assumption
    | with_reducible apply State.elapse_keeps
    | with_reducible apply State.regWrite_keeps
    | with_reducible refine hostReg_leaves ?_ ?_

theorem execHbWrite_keeps {dt : Nat} {w : Via} {value : W32} {s0 : State} : Leaves Keeps s0 (execHbWrite dt w value s0) := by
  have hk : Keeps s0 (s0.elapse dt) := State.elapse_keeps (Keeps.refl s0)
  unfold execHbWrite
  repeat' first
    | with_reducible refine Leaves.next ?_
    | with_reducible exact hk
    | with_reducible assumption
    | with_reducible apply State.elapse_keeps
    | with_reducible apply State.regWrite_keeps
    | with_reducible refine hostReg_leaves ?_ ?_

theorem execPresetKey_keeps {dt : Nat} {w : Via} {value : W32} {s0 : State} : Leaves Keeps s0 (execPresetKey dt w value s0) := by
  have hk : Keeps s0 (s0.elapse dt) := State.elapse_keeps (Keeps.refl s0)
  unfold execPresetKey
  repeat' first
    | with_reducible refine Leaves.next ?_
    | with_reducible exact hk
    | with_reducible assumption
    | with_reducible apply State.elapse_keeps
    | with_reducible apply State.regWrite_keeps
    | with_reducible refine hostReg_leaves ?_ ?_

theorem execApSelect_keeps {dt : Nat} {w : Via} {n : Fin 4} {value : W32} {s0 : State} : Leaves Keeps s0 (execApSelect dt w n value s0) := by
  have hk : Keeps s0 (s0.elapse dt) := State.elapse_keeps (Keeps.refl s0)
  unfold execApSelect
  repeat' first
    | with_reducible refine Leaves.next ?_
    | with_reducible exact hk
    | with_reducible assumption
    | with_reducible apply State.elapse_keeps
    | with_reducible apply State.regWrite_keeps
    | with_reducible refine hostReg_leaves ?_ ?_

theorem execErrCountRead_keeps {dt : Nat} {w : Via} {s0 : State} : Leaves Keeps s0 (execErrCountRead dt w s0) := by
  have hk : Keeps s0 (s0.elapse dt) := State.elapse_keeps (Keeps.refl s0)
  unfold execErrCountRead
  repeat' first
    | with_reducible refine Leaves.next ?_
    | with_reducible exact hk
    | with_reducible assumption
    | with_reducible apply State.clearErr_keeps
    | with_reducible apply State.elapse_keeps
    | with_reducible refine hostReg_leaves ?_ ?_
    | with_reducible refine ite_row (fun _ => ?_) (fun _ => ?_)
    | with_reducible refine ite_keeps (fun _ => ?_) (fun _ => ?_)
    | split
    | dsimp only
    | fail_if_no_progress with_reducible refine Keeps.mk_of ?_ ?_

theorem execIrqEnableWrite_keeps {dt : Nat} {w : Via} {value : W32} {s0 : State} : Leaves Keeps s0 (execIrqEnableWrite dt w value s0) := by
  have hk : Keeps s0 (s0.elapse dt) := State.elapse_keeps (Keeps.refl s0)
  unfold execIrqEnableWrite
  repeat' first
    | with_reducible refine Leaves.next ?_
    | with_reducible exact hk
    | with_reducible assumption
    | with_reducible apply State.elapse_keeps
    | with_reducible apply State.regWrite_keeps
    | with_reducible refine hostReg_leaves ?_ ?_

theorem execRegisterWrite_keeps {dt : Nat} {w : Via} {offset : Nat} {bytes : List Byte} {s0 : State} : Leaves Keeps s0 (execRegisterWrite dt w offset bytes s0) := by
  have hk : Keeps s0 (s0.elapse dt) := State.elapse_keeps (Keeps.refl s0)
  unfold execRegisterWrite
  repeat' first
    | with_reducible refine Leaves.next ?_
    | with_reducible exact hk
    | with_reducible assumption
    | with_reducible apply State.elapse_keeps
    | with_reducible apply State.hostAccess_keeps

theorem execStoreWindowAccess_keeps {dt : Nat} {a : Access} {s0 : State} : Leaves Keeps s0 (execStoreWindowAccess dt a s0) := by
  have hk : Keeps s0 (s0.elapse dt) := State.elapse_keeps (Keeps.refl s0)
  unfold execStoreWindowAccess
  repeat' first
    | with_reducible refine Leaves.next ?_
    | with_reducible exact hk
    | with_reducible assumption
    | with_reducible apply State.elapse_keeps
    | with_reducible apply State.hostAccess_keeps

theorem execFunctionLevelReset_keeps {dt : Nat} {p : Fin 8} {s0 : State} : Leaves Keeps s0 (execFunctionLevelReset dt p s0) := by
  have hk : Keeps s0 (s0.elapse dt) := State.elapse_keeps (Keeps.refl s0)
  unfold execFunctionLevelReset
  repeat' first
    | with_reducible refine Leaves.next ?_
    | with_reducible exact hk
    | with_reducible assumption
    | with_reducible apply State.elapse_keeps
    | with_reducible apply State.startReset_keeps
    | with_reducible refine ite_row (fun _ => ?_) (fun _ => ?_)
    | with_reducible refine ite_keeps (fun _ => ?_) (fun _ => ?_)
    | rfl
    | split
    | dsimp only

theorem execHotReset_keeps {dt : Nat} {link : Port} {s0 : State} : Leaves Keeps s0 (execHotReset dt link s0) := by
  have hk : Keeps s0 (s0.elapse dt) := State.elapse_keeps (Keeps.refl s0)
  unfold execHotReset
  repeat' first
    | with_reducible refine Leaves.next ?_
    | with_reducible exact hk
    | with_reducible assumption
    | with_reducible apply State.elapse_keeps
    | with_reducible apply State.resetLink_keeps
    | with_reducible refine ite_row (fun _ => ?_) (fun _ => ?_)

theorem execLinkDown_safe {dt : Nat} {link : Port} {s0 : State} : Leaves Safe s0 (execLinkDown dt link s0) := by
  have hk : Safe s0 (s0.elapse dt) := (State.elapse_keeps (Keeps.refl s0)).safe
  unfold execLinkDown
  refine ite_row (fun _ => .next (hk.trans (Safe.trans ?_ (State.resetLink_keeps (Keeps.refl _)).safe))) fun _ => .next hk
  exact ⟨rfl, fun h => ⟨h.mem, h.log, h.parts, h.recs, h.grants⟩⟩

theorem execLinkUp_safe {dt : Nat} {link : Port} {s0 : State} : Leaves Safe s0 (execLinkUp dt link s0) := by
  have hk : Safe s0 (s0.elapse dt) := (State.elapse_keeps (Keeps.refl s0)).safe
  unfold execLinkUp
  exact .next (hk.trans ⟨rfl, fun h => ⟨h.mem, h.log, h.parts, h.recs, h.grants⟩⟩)

end Sys2Proof.Machine
end

