-- ==== Sys2Proof/Laws/RowsManagement.lean ====
section
/-! SUPPORT. What the commands of Machine/Management.lean keep (see Laws/Keeps.lean). -/
namespace Sys2Proof.Machine

theorem execMgId_keeps {dt : Nat} {s0 : State} : Leaves Keeps s0 (execMgId dt s0) := by
  have hk : Keeps s0 (s0.elapse dt) := State.elapse_keeps (Keeps.refl s0)
  unfold execMgId
  repeat' first
    | with_reducible refine Leaves.next ?_
    | with_reducible exact hk
    | with_reducible assumption
    | with_reducible apply State.blockRead_keeps

theorem execMgState_keeps {dt : Nat} {s0 : State} : Leaves Keeps s0 (execMgState dt s0) := by
  have hk : Keeps s0 (s0.elapse dt) := State.elapse_keeps (Keeps.refl s0)
  unfold execMgState
  repeat' first
    | with_reducible refine Leaves.next ?_
    | with_reducible exact hk
    | with_reducible assumption
    | with_reducible apply State.blockRead_keeps

theorem execMgFaultLo_keeps {dt : Nat} {s0 : State} : Leaves Keeps s0 (execMgFaultLo dt s0) := by
  have hk : Keeps s0 (s0.elapse dt) := State.elapse_keeps (Keeps.refl s0)
  unfold execMgFaultLo
  repeat' first
    | with_reducible refine Leaves.next ?_
    | with_reducible exact hk
    | with_reducible assumption
    | with_reducible apply State.alertRead_keeps
    | with_reducible apply State.blockRead_keeps

theorem execMgFaultHi_keeps {dt : Nat} {s0 : State} : Leaves Keeps s0 (execMgFaultHi dt s0) := by
  have hk : Keeps s0 (s0.elapse dt) := State.elapse_keeps (Keeps.refl s0)
  unfold execMgFaultHi
  repeat' first
    | with_reducible refine Leaves.next ?_
    | with_reducible exact hk
    | with_reducible assumption
    | with_reducible apply State.alertRead_keeps
    | with_reducible apply State.blockRead_keeps

theorem execMgLatchedLo_keeps {dt : Nat} {s0 : State} : Leaves Keeps s0 (execMgLatchedLo dt s0) := by
  have hk : Keeps s0 (s0.elapse dt) := State.elapse_keeps (Keeps.refl s0)
  unfold execMgLatchedLo
  repeat' first
    | with_reducible refine Leaves.next ?_
    | with_reducible exact hk
    | with_reducible assumption
    | with_reducible apply State.blockRead_keeps

theorem execMgLatchedHi_keeps {dt : Nat} {s0 : State} : Leaves Keeps s0 (execMgLatchedHi dt s0) := by
  have hk : Keeps s0 (s0.elapse dt) := State.elapse_keeps (Keeps.refl s0)
  unfold execMgLatchedHi
  repeat' first
    | with_reducible refine Leaves.next ?_
    | with_reducible exact hk
    | with_reducible assumption
    | with_reducible apply State.blockRead_keeps

theorem execMgMargin_keeps {dt : Nat} {s0 : State} : Leaves Keeps s0 (execMgMargin dt s0) := by
  have hk : Keeps s0 (s0.elapse dt) := State.elapse_keeps (Keeps.refl s0)
  unfold execMgMargin
  repeat' first
    | with_reducible refine Leaves.next ?_
    | with_reducible exact hk
    | with_reducible assumption
    | with_reducible apply State.blockRead_keeps

theorem execMgLogNewest_keeps {dt : Nat} {s0 : State} : Leaves Keeps s0 (execMgLogNewest dt s0) := by
  have hk : Keeps s0 (s0.elapse dt) := State.elapse_keeps (Keeps.refl s0)
  unfold execMgLogNewest
  repeat' first
    | with_reducible refine Leaves.next ?_
    | with_reducible exact hk
    | with_reducible assumption
    | with_reducible apply State.elapse_keeps
    | with_reducible apply State.log_keeps
    | with_reducible apply State.logBlock_keeps

theorem execMgLogPrev_keeps {dt : Nat} {s0 : State} : Leaves Keeps s0 (execMgLogPrev dt s0) := by
  have hk : Keeps s0 (s0.elapse dt) := State.elapse_keeps (Keeps.refl s0)
  unfold execMgLogPrev
  repeat' first
    | with_reducible refine Leaves.next ?_
    | with_reducible exact hk
    | with_reducible assumption
    | with_reducible apply State.elapse_keeps
    | with_reducible apply State.log_keeps
    | with_reducible apply State.logBlock_keeps

theorem execAlertResponse_keeps {dt : Nat} {wins : Bool} {s0 : State} : Leaves Keeps s0 (execAlertResponse dt wins s0) := by
  have hk : Keeps s0 (s0.elapse dt) := State.elapse_keeps (Keeps.refl s0)
  unfold execAlertResponse
  repeat' first
    | with_reducible refine Leaves.next ?_
    | with_reducible exact hk
    | with_reducible assumption
    | with_reducible apply State.blockRead_keeps
    | with_reducible apply State.elapse_keeps
    | with_reducible refine ite_row (fun _ => ?_) (fun _ => ?_)
    | with_reducible refine ite_keeps (fun _ => ?_) (fun _ => ?_)
    | split
    | dsimp only
    | fail_if_no_progress with_reducible refine Keeps.mk_of ?_ ?_

end Sys2Proof.Machine
end

