-- ==== Sys2Proof/Laws/RowsPartition.lean ====
section
/-! SUPPORT. What the commands of Machine/Partition.lean keep (see Laws/Keeps.lean). -/
namespace Sys2Proof.Machine

theorem execHbLate_keeps {dt : Nat} {p : Fin 8} {s0 : State} : Leaves Keeps s0 (execHbLate dt p s0) := by
  have hk : Keeps s0 (s0.elapse dt) := State.elapse_keeps (Keeps.refl s0)
  unfold execHbLate
  repeat' first
    | with_reducible refine Leaves.next ?_
    | with_reducible exact hk
    | with_reducible assumption
    | with_reducible apply State.elapse_keeps
    | with_reducible apply State.event_keeps
    | with_reducible apply State.irqCause_keeps
    | with_reducible refine State.modPart_keeps ?_ (fun _ => rfl) (fun _ => rfl) (fun _ => rfl)
    | with_reducible refine ite_row (fun _ => ?_) (fun _ => ?_)

theorem execHbExpired_keeps {dt : Nat} {p : Fin 8} {s0 : State} : Leaves Keeps s0 (execHbExpired dt p s0) := by
  have hk : Keeps s0 (s0.elapse dt) := State.elapse_keeps (Keeps.refl s0)
  unfold execHbExpired
  repeat' first
    | with_reducible refine Leaves.next ?_
    | with_reducible exact hk
    | with_reducible assumption
    | with_reducible apply State.condOn_keeps
    | with_reducible apply State.elapse_keeps
    | with_reducible apply State.flush_keeps
    | with_reducible apply State.irqCause_keeps
    | with_reducible apply State.postUpdate_keeps
    | with_reducible apply State.raiseU_keeps
    | with_reducible refine State.modPart_keeps ?_ (fun _ => rfl) (fun _ => rfl) (fun _ => rfl)
    | with_reducible refine ite_row (fun _ => ?_) (fun _ => ?_)
    | with_reducible refine ite_keeps (fun _ => ?_) (fun _ => ?_)
    | (with_reducible refine foldl_keeps ?_ ?_; intro _ _ _)
    | rfl
    | split
    | dsimp only
    | fail_if_no_progress with_reducible refine Keeps.mk_of ?_ ?_

theorem execPartitionResetDone_keeps {dt : Nat} {p : Fin 8} {s0 : State} : Leaves Keeps s0 (execPartitionResetDone dt p s0) := by
  have hk : Keeps s0 (s0.elapse dt) := State.elapse_keeps (Keeps.refl s0)
  unfold execPartitionResetDone
  repeat' first
    | with_reducible refine Leaves.next ?_
    | with_reducible exact hk
    | with_reducible assumption
    | with_reducible apply State.elapse_keeps
    | with_reducible apply State.finishReset_keeps

end Sys2Proof.Machine
end

