-- ==== Sys2Proof/Laws/RowsPins.lean ====
section
/-! SUPPORT. What the commands of Machine/Pins.lean keep (see Laws/Keeps.lean). -/
namespace Sys2Proof.Machine

theorem execIoRailWindowChange_safe {dt : Nat} {r : Rail} {inside : Bool} {s0 : State} : Leaves Safe s0 (execIoRailWindowChange dt r inside s0) := by
  have hk : Safe s0 (s0.elapse dt) := (State.elapse_keeps (Keeps.refl s0)).safe
  unfold execIoRailWindowChange
  exact .next (hk.trans ⟨rfl, fun h => ⟨h.mem, h.log, h.parts, h.recs, h.grants⟩⟩)

theorem execTapInstructionUpdate_safe {dt : Nat} {i : TapInstr} {s0 : State} : Leaves Safe s0 (execTapInstructionUpdate dt i s0) := by
  have hk : Safe s0 (s0.elapse dt) := (State.elapse_keeps (Keeps.refl s0)).safe
  unfold execTapInstructionUpdate
  exact .next (hk.trans ⟨rfl, fun h => ⟨h.mem, h.log, h.parts, h.recs, h.grants⟩⟩)

end Sys2Proof.Machine
end

