-- ==== Sys2Proof/Laws/RowsSched.lean ====
section
/-! SUPPORT. What the commands of Machine/Sched.lean keep (see Laws/Keeps.lean). -/
namespace Sys2Proof.Machine

theorem execFiringTargetUpdate_keeps {dt : Nat} {c : Fin 32} {s0 : State} : Leaves Keeps s0 (execFiringTargetUpdate dt c s0) := by
  have hk : Keeps s0 (s0.elapse dt) := State.elapse_keeps (Keeps.refl s0)
  unfold execFiringTargetUpdate
  repeat' first
    | with_reducible refine Leaves.next ?_
    | with_reducible exact hk
    | with_reducible assumption
    | with_reducible apply State.elapse_keeps
    | with_reducible apply State.modRt_keeps
    | with_reducible refine ite_row (fun _ => ?_) (fun _ => ?_)
    | with_reducible refine ite_keeps (fun _ => ?_) (fun _ => ?_)
    | rfl
    | split
    | dsimp only
    | fail_if_no_progress with_reducible refine Keeps.mk_of ?_ ?_

theorem execScheduledFire_keeps {dt : Nat} {c : Fin 32} {sof : W64} {blocker : Option W32} {s0 : State} : Leaves Keeps s0 (execScheduledFire dt c sof blocker s0) := by
  have hk : Keeps s0 (s0.elapse dt) := State.elapse_keeps (Keeps.refl s0)
  unfold execScheduledFire
  repeat' first
    | with_reducible refine Leaves.next ?_
    | with_reducible exact hk
    | with_reducible assumption
    | with_reducible apply State.elapse_keeps
    | with_reducible apply State.fireFirst_keeps
    | with_reducible apply State.modRt_keeps
    | with_reducible apply State.schedHush_keeps
    | with_reducible apply State.takeOff_keeps
    | with_reducible refine ite_row (fun _ => ?_) (fun _ => ?_)
    | with_reducible refine ite_keeps (fun _ => ?_) (fun _ => ?_)
    | rfl
    | split
    | dsimp only
    | fail_if_no_progress with_reducible refine Keeps.mk_of ?_ ?_

theorem execArmFire_keeps {dt : Nat} {c : Fin 32} {sof : Option W64} {readbackOk : Bool} {s0 : State} : Leaves Keeps s0 (execArmFire dt c sof readbackOk s0) := by
  have hk : Keeps s0 (s0.elapse dt) := State.elapse_keeps (Keeps.refl s0)
  unfold execArmFire
  repeat' first
    | with_reducible refine Leaves.next ?_
    | with_reducible exact hk
    | with_reducible assumption
    | with_reducible apply State.elapse_keeps
    | with_reducible apply State.modRt_keeps
    | with_reducible apply State.raiseU_keeps
    | with_reducible apply State.takeOff_keeps
    | with_reducible refine ite_row (fun _ => ?_) (fun _ => ?_)
    | with_reducible refine ite_keeps (fun _ => ?_) (fun _ => ?_)
    | rfl
    | split
    | dsimp only
    | fail_if_no_progress with_reducible refine Keeps.mk_of ?_ ?_

theorem execRefMessage_keeps {dt : Nat} {c : Fin 32} {started : Bool} {readbackOk : Bool} {s0 : State} : Leaves Keeps s0 (execRefMessage dt c started readbackOk s0) := by
  have hk : Keeps s0 (s0.elapse dt) := State.elapse_keeps (Keeps.refl s0)
  unfold execRefMessage
  repeat' first
    | with_reducible refine Leaves.next ?_
    | with_reducible exact hk
    | with_reducible assumption
    | with_reducible apply State.elapse_keeps
    | with_reducible apply State.modRt_keeps
    | with_reducible apply State.raiseU_keeps
    | with_reducible apply State.takeOff_keeps
    | with_reducible refine ite_row (fun _ => ?_) (fun _ => ?_)
    | with_reducible refine ite_keeps (fun _ => ?_) (fun _ => ?_)
    | rfl
    | split
    | dsimp only
    | fail_if_no_progress with_reducible refine Keeps.mk_of ?_ ?_

theorem execOccurrenceMissed_keeps {dt : Nat} {c : Fin 32} {s0 : State} : Leaves Keeps s0 (execOccurrenceMissed dt c s0) := by
  have hk : Keeps s0 (s0.elapse dt) := State.elapse_keeps (Keeps.refl s0)
  unfold execOccurrenceMissed
  repeat' first
    | with_reducible refine Leaves.next ?_
    | with_reducible exact hk
    | with_reducible assumption
    | with_reducible apply State.elapse_keeps
    | with_reducible apply State.schedExpire_keeps

theorem execSchedReport_keeps {dt : Nat} {c : Fin 32} {s0 : State} : Leaves Keeps s0 (execSchedReport dt c s0) := by
  have hk : Keeps s0 (s0.elapse dt) := State.elapse_keeps (Keeps.refl s0)
  unfold execSchedReport
  repeat' first
    | with_reducible refine Leaves.next ?_
    | with_reducible exact hk
    | with_reducible assumption
    | with_reducible apply State.elapse_keeps
    | with_reducible apply State.event_keeps
    | with_reducible apply State.modRt_keeps
    | with_reducible refine ite_row (fun _ => ?_) (fun _ => ?_)

theorem execExclusiveWindowEnd_keeps {dt : Nat} {c : Fin 32} {s0 : State} : Leaves Keeps s0 (execExclusiveWindowEnd dt c s0) := by
  have hk : Keeps s0 (s0.elapse dt) := State.elapse_keeps (Keeps.refl s0)
  unfold execExclusiveWindowEnd
  repeat' first
    | with_reducible refine Leaves.next ?_
    | with_reducible exact hk
    | with_reducible assumption
    | with_reducible apply State.elapse_keeps
    | with_reducible apply State.refill_keeps
    | with_reducible refine ite_row (fun _ => ?_) (fun _ => ?_)
    | with_reducible refine ite_keeps (fun _ => ?_) (fun _ => ?_)
    | rfl
    | split
    | dsimp only

theorem execSchedBoundaryCrossed_keeps {dt : Nat} {c : Fin 32} {s0 : State} : Leaves Keeps s0 (execSchedBoundaryCrossed dt c s0) := by
  have hk : Keeps s0 (s0.elapse dt) := State.elapse_keeps (Keeps.refl s0)
  unfold execSchedBoundaryCrossed
  repeat' first
    | with_reducible refine Leaves.next ?_
    | with_reducible exact hk
    | with_reducible assumption
    | with_reducible apply State.elapse_keeps
    | with_reducible apply State.schedCross_keeps

end Sys2Proof.Machine
end

