-- ==== Sys2Proof/Laws/RowsSchedCmds.lean ====
section
/-! SUPPORT. What the commands of Machine/SchedCmds.lean keep (see Laws/Keeps.lean). -/
namespace Sys2Proof.Machine

theorem hSchedStage_keeps {σ : State} {r : Req} {s : State} (hk : Keeps σ s) : (hSchedStage r s).Leaves Keeps σ := by
  unfold hSchedStage
  repeat' first
    | with_reducible exact Answer.leaves_refuse
    | with_reducible refine Answer.leaves_done ?_
    | with_reducible refine Answer.leaves_later ?_
    | with_reducible exact hk
    | with_reducible assumption
    | with_reducible apply State.restage_keeps
    | with_reducible refine ite_leaves (fun _ => ?_) (fun _ => ?_)
    | with_reducible refine ite_keeps (fun _ => ?_) (fun _ => ?_)
    | rfl
    | split
    | dsimp only

theorem hSchedClear_keeps {σ : State} {r : Req} {s : State} (hk : Keeps σ s) : (hSchedClear r s).Leaves Keeps σ := by
  unfold hSchedClear
  repeat' first
    | with_reducible exact Answer.leaves_refuse
    | with_reducible refine Answer.leaves_done ?_
    | with_reducible refine Answer.leaves_later ?_
    | with_reducible exact hk
    | with_reducible assumption
    | with_reducible apply State.restage_keeps
    | with_reducible refine ite_leaves (fun _ => ?_) (fun _ => ?_)
    | with_reducible refine ite_keeps (fun _ => ?_) (fun _ => ?_)
    | rfl
    | split
    | dsimp only
    | fail_if_no_progress with_reducible refine Keeps.mk_of ?_ ?_

theorem hSchedRead_keeps {σ : State} {r : Req} {s : State} (hk : Keeps σ s) : (hSchedRead r s).Leaves Keeps σ := by
  unfold hSchedRead
  repeat' first
    | with_reducible exact Answer.leaves_refuse
    | with_reducible refine Answer.leaves_done ?_
    | with_reducible refine Answer.leaves_later ?_
    | with_reducible exact hk
    | with_reducible assumption
    | with_reducible apply bulkReply_keeps
    | with_reducible refine ite_leaves (fun _ => ?_) (fun _ => ?_)

theorem hSchedStatus_keeps {σ : State} {r : Req} {s : State} (hk : Keeps σ s) : (hSchedStatus r s).Leaves Keeps σ := by
  unfold hSchedStatus
  repeat' first
    | with_reducible exact Answer.leaves_refuse
    | with_reducible refine Answer.leaves_done ?_
    | with_reducible refine Answer.leaves_later ?_
    | with_reducible exact hk
    | with_reducible assumption
    | with_reducible apply State.modRt_keeps
    | with_reducible refine ite_leaves (fun _ => ?_) (fun _ => ?_)
    | with_reducible refine ite_keeps (fun _ => ?_) (fun _ => ?_)

theorem execSchedStage_keeps {dt : Nat} {m : Mbox} {s : State} : Leaves Keeps s (execSchedStage dt m s) :=
  mailbox_keeps fun _ _ h => hSchedStage_keeps h

theorem execSchedClear_keeps {dt : Nat} {m : Mbox} {s : State} : Leaves Keeps s (execSchedClear dt m s) :=
  mailbox_keeps fun _ _ h => hSchedClear_keeps h

theorem execSchedRead_keeps {dt : Nat} {m : Mbox} {s : State} : Leaves Keeps s (execSchedRead dt m s) :=
  mailbox_keeps fun _ _ h => hSchedRead_keeps h

theorem execSchedStatus_keeps {dt : Nat} {m : Mbox} {s : State} : Leaves Keeps s (execSchedStatus dt m s) :=
  mailbox_keeps fun _ _ h => hSchedStatus_keeps h

end Sys2Proof.Machine
end

