-- ==== Sys2Proof/Laws/RowsSignals.lean ====
section
/-! SUPPORT. What the commands of Machine/Signals.lean keep (see Laws/Keeps.lean). -/
namespace Sys2Proof.Machine

theorem execSignalUnpack_keeps {dt : Nat} {unit : Fin 2} {s0 : State} : Leaves Keeps s0 (execSignalUnpack dt unit s0) := by
  have hk : Keeps s0 (s0.elapse dt) := State.elapse_keeps (Keeps.refl s0)
  unfold execSignalUnpack
  repeat' first
    | with_reducible refine Leaves.next ?_
    | with_reducible exact hk
    | with_reducible assumption
    | with_reducible apply State.elapse_keeps
    | with_reducible apply State.unpackNext_keeps

theorem execSignalPack_keeps {dt : Nat} {c : Fin 32} {o : Fin 128} {s0 : State} : Leaves Keeps s0 (execSignalPack dt c o s0) := by
  have hk : Keeps s0 (s0.elapse dt) := State.elapse_keeps (Keeps.refl s0)
  unfold execSignalPack
  repeat' first
    | with_reducible refine Leaves.next ?_
    | with_reducible exact hk
    | with_reducible assumption
    | with_reducible apply State.elapse_keeps
    | with_reducible apply State.packNext_keeps
    | with_reducible refine ite_row (fun _ => ?_) (fun _ => ?_)
    | with_reducible refine ite_keeps (fun _ => ?_) (fun _ => ?_)
    | rfl
    | split
    | dsimp only

theorem hSigStage_keeps {σ : State} {r : Req} {s : State} (hk : Keeps σ s) : (hSigStage r s).Leaves Keeps σ := by
  unfold hSigStage
  repeat' first
    | with_reducible exact Answer.leaves_refuse
    | with_reducible refine Answer.leaves_done ?_
    | with_reducible refine Answer.leaves_later ?_
    | with_reducible exact hk
    | with_reducible assumption
    | with_reducible apply State.restage_keeps
    | with_reducible refine ite_leaves (fun _ => ?_) (fun _ => ?_)
    | with_reducible refine ite_keeps (fun _ => ?_) (fun _ => ?_)
    | (with_reducible refine foldl_keeps ?_ ?_; intro _ _ _)
    | rfl
    | split
    | dsimp only
    | fail_if_no_progress with_reducible refine Keeps.mk_of ?_ ?_

theorem hSigClear_keeps {σ : State} {r : Req} {s : State} (hk : Keeps σ s) : (hSigClear r s).Leaves Keeps σ := by
  unfold hSigClear
  repeat' first
    | with_reducible exact Answer.leaves_refuse
    | with_reducible refine Answer.leaves_done ?_
    | with_reducible refine Answer.leaves_later ?_
    | with_reducible exact hk
    | with_reducible assumption
    | with_reducible apply State.restage_keeps
    | with_reducible refine ite_leaves (fun _ => ?_) (fun _ => ?_)
    | with_reducible refine ite_keeps (fun _ => ?_) (fun _ => ?_)
    | rfl
    | split
    | dsimp only
    | fail_if_no_progress with_reducible refine Keeps.mk_of ?_ ?_

theorem hSigRead_keeps {σ : State} {r : Req} {s : State} (hk : Keeps σ s) : (hSigRead r s).Leaves Keeps σ := by
  unfold hSigRead
  repeat' first
    | with_reducible exact Answer.leaves_refuse
    | with_reducible refine Answer.leaves_done ?_
    | with_reducible refine Answer.leaves_later ?_
    | with_reducible exact hk
    | with_reducible assumption
    | with_reducible apply bulkReply_keeps
    | with_reducible refine ite_leaves (fun _ => ?_) (fun _ => ?_)

theorem hSigStatus_keeps {σ : State} {r : Req} {s : State} (hk : Keeps σ s) : (hSigStatus r s).Leaves Keeps σ := by
  unfold hSigStatus
  repeat' first
    | with_reducible exact Answer.leaves_refuse
    | with_reducible refine Answer.leaves_done ?_
    | with_reducible refine Answer.leaves_later ?_
    | with_reducible exact hk
    | with_reducible assumption
    | with_reducible apply State.modSigStat_keeps
    | with_reducible refine ite_leaves (fun _ => ?_) (fun _ => ?_)
    | with_reducible refine ite_keeps (fun _ => ?_) (fun _ => ?_)

theorem execSigStage_keeps {dt : Nat} {m : Mbox} {s : State} : Leaves Keeps s (execSigStage dt m s) :=
  mailbox_keeps fun _ _ h => hSigStage_keeps h

theorem execSigClear_keeps {dt : Nat} {m : Mbox} {s : State} : Leaves Keeps s (execSigClear dt m s) :=
  mailbox_keeps fun _ _ h => hSigClear_keeps h

theorem execSigRead_keeps {dt : Nat} {m : Mbox} {s : State} : Leaves Keeps s (execSigRead dt m s) :=
  mailbox_keeps fun _ _ h => hSigRead_keeps h

theorem execSigStatus_keeps {dt : Nat} {m : Mbox} {s : State} : Leaves Keeps s (execSigStatus dt m s) :=
  mailbox_keeps fun _ _ h => hSigStatus_keeps h

end Sys2Proof.Machine
end

