-- ==== Sys2Proof/Laws/RowsStore.lean ====
section
/-! SUPPORT. What the commands of Machine/Store.lean keep (see Laws/Keeps.lean). -/
namespace Sys2Proof.Machine

theorem execScrub_keeps {dt : Nat} {errors : List LaneError} {passEnd : Bool} {s0 : State} : Leaves Keeps s0 (execScrub dt errors passEnd s0) := by
  have hk : Keeps s0 (s0.elapse dt) := State.elapse_keeps (Keeps.refl s0)
  unfold execScrub
  repeat' first
    | with_reducible refine Leaves.next ?_
    | with_reducible exact hk
    | with_reducible assumption
    | with_reducible apply State.elapse_keeps
    | with_reducible apply State.laneError_keeps
    | with_reducible refine ite_row (fun _ => ?_) (fun _ => ?_)
    | with_reducible refine ite_keeps (fun _ => ?_) (fun _ => ?_)
    | (with_reducible refine foldl_keeps ?_ ?_; intro _ _ _)
    | rfl
    | split
    | dsimp only
    | fail_if_no_progress with_reducible refine Keeps.mk_of ?_ ?_

theorem hStoreStatus_keeps {σ : State} {_r : Req} {s : State} (hk : Keeps σ s) : (hStoreStatus _r s).Leaves Keeps σ := by
  unfold hStoreStatus
  repeat' first
    | with_reducible exact Answer.leaves_refuse
    | with_reducible refine Answer.leaves_done ?_
    | with_reducible refine Answer.leaves_later ?_
    | with_reducible exact hk

theorem execStoreStatus_keeps {dt : Nat} {m : Mbox} {s : State} : Leaves Keeps s (execStoreStatus dt m s) :=
  mailbox_keeps fun _ _ h => hStoreStatus_keeps h

end Sys2Proof.Machine
end

