-- ==== Sys2Proof/Laws/RowsTick.lean ====
section
/-! SUPPORT. What the commands of Machine/Tick.lean keep (see Laws/Keeps.lean). -/
namespace Sys2Proof.Machine

theorem itemRow_keeps {ty : Nat} {dt : Nat} {q : Fin 64} {s0 : State} : Leaves Keeps s0 (itemRow ty dt q s0) := by
  have hk : Keeps s0 (s0.elapse dt) := State.elapse_keeps (Keeps.refl s0)
  unfold itemRow
  repeat' first
    | with_reducible refine Leaves.next ?_
    | with_reducible exact hk
    | with_reducible assumption
    | with_reducible apply State.elapse_keeps
    | with_reducible apply State.h2dDone_keeps
    | with_reducible apply State.ready_keeps
    | with_reducible apply State.refreshPage_keeps
    | with_reducible apply State.takeItem_keeps
    | with_reducible refine ite_row (fun _ => ?_) (fun _ => ?_)

theorem execObjWrite_keeps {dt : Nat} {q : Fin 64} {s : State} : Leaves Keeps s (execObjWrite dt q s) := by
  have hk : Keeps s (s.elapse dt) := State.elapse_keeps (Keeps.refl s)
  unfold execObjWrite
  repeat' first
    | with_reducible refine Leaves.next ?_
    | with_reducible exact hk
    | with_reducible assumption
    | with_reducible apply itemRow_keeps

theorem execObjSend_keeps {dt : Nat} {q : Fin 64} {s : State} : Leaves Keeps s (execObjSend dt q s) := by
  have hk : Keeps s (s.elapse dt) := State.elapse_keeps (Keeps.refl s)
  unfold execObjSend
  repeat' first
    | with_reducible refine Leaves.next ?_
    | with_reducible exact hk
    | with_reducible assumption
    | with_reducible apply itemRow_keeps

theorem execSigWrite_keeps {dt : Nat} {q : Fin 64} {s : State} : Leaves Keeps s (execSigWrite dt q s) := by
  have hk : Keeps s (s.elapse dt) := State.elapse_keeps (Keeps.refl s)
  unfold execSigWrite
  repeat' first
    | with_reducible refine Leaves.next ?_
    | with_reducible exact hk
    | with_reducible assumption
    | with_reducible apply itemRow_keeps

theorem execAxStream_keeps {dt : Nat} {q : Fin 64} {s : State} : Leaves Keeps s (execAxStream dt q s) := by
  have hk : Keeps s (s.elapse dt) := State.elapse_keeps (Keeps.refl s)
  unfold execAxStream
  repeat' first
    | with_reducible refine Leaves.next ?_
    | with_reducible exact hk
    | with_reducible assumption
    | with_reducible apply itemRow_keeps

theorem execAxCmd_keeps {dt : Nat} {q : Fin 64} {s : State} : Leaves Keeps s (execAxCmd dt q s) := by
  have hk : Keeps s (s.elapse dt) := State.elapse_keeps (Keeps.refl s)
  unfold execAxCmd
  repeat' first
    | with_reducible refine Leaves.next ?_
    | with_reducible exact hk
    | with_reducible assumption
    | with_reducible apply itemRow_keeps

theorem execAngleTel_keeps {dt : Nat} {q : Fin 64} {s : State} : Leaves Keeps s (execAngleTel dt q s) := by
  have hk : Keeps s (s.elapse dt) := State.elapse_keeps (Keeps.refl s)
  unfold execAngleTel
  repeat' first
    | with_reducible refine Leaves.next ?_
    | with_reducible exact hk
    | with_reducible assumption
    | with_reducible apply itemRow_keeps

theorem execDispatchTick_keeps {dt : Nat} {s0 : State} : Leaves Keeps s0 (execDispatchTick dt s0) := by
  have hk : Keeps s0 (s0.elapse dt) := State.elapse_keeps (Keeps.refl s0)
  unfold execDispatchTick
  repeat' first
    | with_reducible refine Leaves.next ?_
    | with_reducible exact hk
    | with_reducible assumption
    | with_reducible apply State.elapse_keeps
    | with_reducible apply State.ready_keeps
    | with_reducible apply State.tickWork_keeps
    | with_reducible refine ite_row (fun _ => ?_) (fun _ => ?_)

end Sys2Proof.Machine
end

