-- ==== Sys2Proof/Tests/Slice0.lean ====
section
/-! SUPPORT. Tests on figures of the spec, ill-formed terms, and for every obligation with hypotheses a state and
operands that meet them. -/
namespace Sys2Proof.Tests

open Sys2Proof.Machine

-- One test after the other: each `decide +kernel` would otherwise hold a thread while it waits for those before it.
set_option Elab.async false

/-! ### Ill-formed terms -/

/-- A request without data. -/
def noData : Request :=
  { tag := 7, length := 0, form := 0, flags := 0, bulkOff := 0, bulkLen := 0, data := [] }
/-- A received classical frame of no bytes. -/
def rxFrame : RxFrame :=
  { id := 5, kind := .cc, brs := false, esi := false, rtr := false, sec := false, dlc := 0, payload := [], sdt := 0,
    vcid := 0, af := 0, sof := 0, edges := [] }
/-- A start that meets no fault. -/
def cleanBoot : BootObs :=
  { readErrA := false, readErrB := false, failStep := none, badRows := [], badChans := [], badUnits := [], stall := false,
    coreOk := true, took := 1000,
    mapLost := false }

theorem test_wf_request : (Instr.getInfo 0 { via := ⟨.pa, 0⟩, slot := 0, rq := { noData with data := zs 496 } }).wf = true := by
  decide +kernel
theorem test_illformed_request :
    (Instr.getInfo 0 { via := ⟨.pa, 0⟩, slot := 0, rq := { noData with data := zs 497 } }).wf = false := by
  decide +kernel
theorem test_wf_frame : (Instr.frameReceived 0 31 rxFrame).wf = true := by decide
theorem test_illformed_frames :
    (Instr.frameReceived 0 31 { rxFrame with id := 0x800 }).wf = false ∧
      (Instr.frameReceived 0 31 { rxFrame with dlc := 16 }).wf = false ∧
      (Instr.frameReceived 0 31 { rxFrame with dlc := 1 }).wf = false ∧
      (Instr.frameReceived 0 31 { rxFrame with kind := .fd, rtr := true }).wf = false := by decide
theorem test_illformed_access :
    (Instr.storeWindowAccess 0 { via := ⟨.pa, 0⟩, offset := 0x8000000, phase := .read 4, window := .store, early := false }).wf = false ∧
      (Instr.storeWindowAccess 0 { via := ⟨.pa, 0⟩, offset := 0, phase := .read 8193, window := .store, early := false }).wf = false ∧
      (Instr.registerWrite 0 ⟨.pa, 0⟩ 0x4000 []).wf = false := by decide
theorem test_illformed_boot :
    (Instr.deviceReset 0 { cleanBoot with badRows := [(16, 0)] }).wf = false ∧
      (Instr.deviceReset 0 { cleanBoot with badChans := [32] }).wf = false ∧
      (Instr.deviceReset 0 { cleanBoot with badUnits := [2] }).wf = false ∧
      (Instr.deviceReset 0 { cleanBoot with took := 200000001 }).wf = false := by decide
theorem test_illformed_links : (Instr.hotReset 0 .qa).wf = false ∧ (Instr.linkDown 0 .none).wf = false ∧
    (Instr.linkUp 0 .qb).wf = false := by decide
theorem test_illformed_sample :
    (Instr.monitorSample 0 { slack := [1], temp := 25, v08 := 800, v18 := 1800, v33 := 3300 }).wf = false := by decide
theorem test_illformed_lane :
    (Instr.scrub 0 [{ lane := 0x400000, uncorrectable := false }] true).wf = false := by decide
/-- No word spells a command. -/
theorem test_no_word : decodeTableWord 16 0x0001 = none := rfl

/-! ### Figures of the spec -/

/-- Spec 05: an XL frame of 128 bytes at A1M and D20M lasts 100.65 µs, one of 32 bytes 58.4 µs. -/
theorem test_frame_time_xl :
    (let b := frameBits 2 false 128; b.1 * 1000 + b.2 * 50) = 100650 ∧
      (let b := frameBits 2 false 32; b.1 * 1000 + b.2 * 50) = 58400 := by decide
/-- Spec 05: a 64-byte extended FD frame at A1M and D5M lasts 192.6 µs, an 8-byte extended CC frame 160 µs. -/
theorem test_frame_time_fd_cc :
    (let b := frameBits 1 true 64; b.1 * 1000 + b.2 * 200) = 192600 ∧ frameBits 0 true 8 = (160, 0) := by decide
/-- Spec 08: BASIC with count 160, cycle 1.0 turn and phase 0 places slot 4 at 0x0666_6666 and slot 40 at 0x4000_0000. -/
theorem test_basic_slots :
    (let poss := fun (i : Nat) => (0 + (i * 0x100000000 + 80) / 160) % 0x100000000
     (poss 4, poss 40)) = (0x06666666, 0x40000000) := by decide
/-- Spec 09: mul 5, shift 3 and offset 0 turn the raw value 1,507 into 942. -/
theorem test_scaling : ({ mul := 5, shift := 3, offset := 0 } : Scale).apply 1507 = 942 := by decide

/-! ### Small states -/

/-- The device in READY, just after reset, with PORST_N high. -/
def up : State := { State.reset with dev := { State.reset.dev with mode := .ready, porst := true } }

/-- A request of P0 in slot 15, of the length that its command defines. -/
def ask (d : CmdDef) (data : List Nat) (form off n : Nat := 0) : Mbox :=
  let rq : Request :=
    { tag := 7, length := 0, form := .ofNat 8 form, flags := 0, bulkOff := .ofNat 32 off, bulkLen := .ofNat 32 n,
      data := data.map (BitVec.ofNat 8) }
  let m : Mbox := { via := ⟨.pa, 0⟩, slot := 15, rq := rq }
  { m with rq := { rq with length := .ofNat 16 (d.len (reqOf d.code m)) } }

/-- The device has accepted the request of P0. -/
def asked (s : State) (d : CmdDef) (m : Mbox) : State :=
  s.modPart 0 fun x => { x with accepted := [acceptedOf d.code m] }

/-- The premises of `Serves`, decided. -/
def serves (d : CmdDef) (m : Mbox) (s : State) : Bool :=
  (s.elapse 0).reaches m.via && decide (((s.offered d.code 0 m).part m.via.part.val).accepted = [acceptedOf d.code m]) &&
    decide ((s.offered d.code 0 m).nextPart = some m.via.part.val) &&
    decide (d.check (reqOf d.code m) (s.inHand d.code 0 m) = none)

/-- The request is served, and `p` holds of the state and the request its handler sees. -/
def meets (d : CmdDef) (m : Mbox) (s : State) (p : State → Req → Bool) : Bool :=
  let u := asked s d m
  serves d m u && p (u.taken d.code 0 m) (reqOf d.code m)

/-- The premises of `GoodItem`, decided. -/
def goodItem (t : State) (q ty : Nat) (it : InItem) : Bool :=
  decide (t.dev.mode = .ready) && t.hasItems q && !t.poisoned (t.headAddr q) 32 && decide (it.ty = ty) &&
    decide (rd (t.storeRead (t.headAddr q) 32) 0 2 = ty) && decide (it.payload.length ≤ 2080) &&
    decide (itemBytes it.payload.length ≤ ((t.queue q).wr - (t.queue q).rd).toNat) &&
    decide ((t.queue q).rd.toNat % (t.queue q).bytes + itemBytes it.payload.length ≤ (t.queue q).bytes) &&
    !t.poisoned (t.headAddr q) (itemBytes it.payload.length) &&
    decide (it = { q := q, rd := (t.queue q).rd, ty := ty, index := rd (t.storeRead (t.headAddr q) 32) 6 2,
                   payload := t.storeRead (t.headAddr q + 32) (rd (t.storeRead (t.headAddr q) 32) 2 2),
                   aux := BitVec.ofNat 64 (rd (t.storeRead (t.headAddr q) 32) 24 8) }) &&
    (t.itemBad (t.storeRead (t.headAddr q) 32) it).isNone

/-- The device with an item at the head of the open queue 63. -/
def queued (s : State) (bs : List Byte) : State :=
  (s.modQueue 63 fun x =>
    { x with isOpen := true, base := 0x100000, bytes := 4096, wr := .ofNat 32 bs.length }).storeWrite 0x100000 bs

/-- The device with channel 31 open. -/
def opened : State := up.modChan 31 fun x => { x with st := .opened }

/-- An armed occurrence of slot 0. -/
def arm0 : Armed :=
  { slot := { pos := 0, winBefore := 0, winAfter := 0, object := 0, kind := 0, policy := 0, rep := 0, baseCycle := 0
              absent := false },
    tol := 0, coord := 0, back := false, target := none, fixed := false, started := false, blocked := false
    late := false, retry := false, once := false, old := false, passed := false, arm := none }

/-- The schedule that a BASIC request gives channel 31. -/
def basic : Sched :=
  (up.basicSection (reqOf cmdSchedStage.code (ask cmdSchedStage [31, 0, 0, 0, 1, 0, 0, 0, 0, 0, 0, 0, 1]))).d

/-- Channel 31 open with that schedule. -/
def sched (f : SchedRt → SchedRt) : State :=
  opened.modChan 31 fun x => { x with sched := some basic, rt := f { x.rt with st := .running } }

/-- A command of P0 that runs on. -/
def longOf (code res : Nat) : Long :=
  { part := 0, slot := 15, code := code, tag := 7, res := res, arg := 0, blocks := false, discard := false,
    t0 := 0, bulkOff := 0, bulkLen := 0 }

/-- The same state with a late clock. -/
def late (s : State) : State := { s with clk := { s.clk with cyc := 1000000000000000 } }

/-- An item of queue 63. -/
def itemOf (ty index : Nat) (bs : List Byte) : InItem :=
  { q := 63, rd := 0, ty := ty, index := index, payload := bs, aux := 0 }

/-- Queue 63 holds that item. -/
def holding (s : State) (ty index : Nat) (bs : List Byte) : State :=
  queued s (le 2 ty ++ le 2 bs.length ++ le 1 (bs.length % 32) ++ zs 1 ++ le 2 index ++ zs 24 ++ bs ++
    zs ((32 - bs.length % 32) % 32))

/-- Queue 63 holds a good item of that type. -/
def goodHeld (s : State) (ty index : Nat) (bs : List Byte) : Bool :=
  goodItem ((holding s ty index bs).elapse 0) 63 ty (itemOf ty index bs)

/-- A transmit group of one signal on channel 31. -/
def sigs : SigSet :=
  { SigSet.empty with
    groups := [{ id := 1, first := 9, count := 1, chan := 31, flags := 1, key := 127, frameLen := 8, deliverQ := 0xFF,
                 ageTime := 0, ageDist := 0 }]
    sigs := [(9, { offset := 0, len := 8, form := 0, scale := 0xFFFF })] }

/-- A log record. -/
def logRec : LogRec :=
  { kind := 1, flags := 0, index := 0, cause := 0, reactions := 0, value := 0, time := 0, coord := 0, gen := 0,
    stampLc := 0, boot := 0, seq := 4 }

/-- A firmware slot with a good image. -/
def image : FwSlot := { code := 0, mboxVer := 1, major := 1, minor := 1, build := 1 }

/-- A commit of P0 without channels. -/
def commit : Commit :=
  { id := 9, part := 0, stage := Stage.empty, lc := 0xFF, boundary := 0, chans := [], seen := 0, hit := none }

/-- A full latch FIFO. -/
def fullFifo : List LatchRec :=
  List.replicate 4 { time := 0, lcs := [], lcState := 0, gen := 0, flags := 0, seq := 0, lost := 0 }

/-- A transmission that ended well. -/
def txEnd : TxEnd := { what := .test, sof := 0, loop := none, acked := true, edges := [] }

/-- A stuff error. -/
def busErr (w : Option TxWhat) : BusErr :=
  { attempt := w, kind := .stuff, field := .data, sof := 0, id := none, loop := none, extra := 0, firstDominant := false, dominantSeen := false }

/-- A sample. -/
def sample : Sample := { slack := [], temp := 25, v08 := 800, v18 := 1800, v33 := 3300 }

/-- Channel 31 sends. -/
def sending (w : TxWhat) : State := opened.modChan 31 fun x => { x with txNow := some w }

/-- The re-qualification of channel 31 runs: `n` of its test frames are sent. -/
def testing (n : Nat) : State :=
  { (up.modChan 31 fun x =>
      { x with st := .retired, phase := .testing, test := some { sent := n, loMin := 0xFFFF, loMax := 0, bad := false } }) with
    longs := [longOf 0x803 31] }

/-- An armed reference message whose target is TIME 0. -/
def armMsg : ArmMsg := { coord := 0, payload := [], target := some 0, fixed := true, spent := false }

/-- Coordinate 3 on a PULSE_SPEED source, tracking at one turn a second. -/
def pulsing : State :=
  (up.setPar K.lcSource 3 3).modLc 3 fun l => { l with st := .track, speed := 0x100000000 }

/-- Coordinate 3 on an SSI source. -/
def ssi (st : LcState) (last : Option Nat) : State :=
  (up.setPar K.lcSource 3 2).modLc 3 fun l => { l with st := st, ssiLast := last }

/-- An SSI word. -/
def word (start : Bool) : SsiRead := { bits := 5, parity := false, startHigh := start, speed := 0, accel := 0 }

/-- Coordinate 3 on an encoder. -/
def enc : State := (up.setPar K.lcSource 3 1).modLc 3 fun l => { l with st := .track }


/-- The outcome is a next state. -/
def goes : Host.Outcome State Fault Refusal → Bool
  | .next _ => true
  | _ => false

/-- The request is the one that the device holds, and nothing keeps it from being examined. -/
def held (d : CmdDef) (m : Mbox) (s : State) : Bool :=
  (s.elapse 0).reaches m.via && decide (((s.offered d.code 0 m).part m.via.part.val).accepted = [acceptedOf d.code m]) &&
    decide ((s.offered d.code 0 m).nextPart = some m.via.part.val)

/-- The request `m` with other fields, held, where `p` holds of it as the device examines it. -/
def heldWith (d : CmdDef) (f : Request → Request) (s : State) (p : Req → Bool) : Bool :=
  let m := ask d []
  let m := { m with rq := f m.rq }
  held d m (asked s d m) && p (reqOf d.code m)

/-- The request is served, and the command answers a next state. -/
def servesAndGoes (d : CmdDef) (m : Mbox) (s : State) (i : Mbox → Instr) : Bool :=
  let u := asked s d m
  serves d m u && goes (exec (i m) u)

/-! ### One step -/

/-- Spec 09: a 12-bit BIG signal at offset 84 over the bytes 0x2B and 0xC6 is 1,507, and its extent is 12 bytes. -/
theorem test_big_signal :
    (let d : Sig := { offset := 84, len := 12, form := 1, scale := 0 }
     (extractBits (zs 10 ++ [0x2B, 0xC6]) d.positions, d.extent)) = (1507, 12) := by decide
/-- Spec 09: the bytes of the example's group descriptor. -/
theorem test_group_descriptor :
    (let g := mapGroup (zs 32 ++ [0x14, 0, 0x0C, 0, 1, 0, 2, 0, 0, 0, 0xFF, 0, 0xE8, 3, 0x33, 3]) 0
     (g.deliverQ, g.ageTime, g.ageDist)) = (0xFF, 1000, 819) := by decide
/-- R221: the check value of CRC-32. -/
theorem test_crc32 : crc32 (("123456789".toList).map fun c => BitVec.ofNat 8 c.toNat) = 0xCBF43926 := by decide +kernel
/-- FIPS 180-4: the first bytes of the SHA-384 digest of "abc". -/
theorem test_sha384 : (Sha.sha384 [0x61, 0x62, 0x63]).take 8 = [0xCB, 0, 0x75, 0x3F, 0x45, 0xA3, 0x5E, 0x8B] := by
  decide +kernel
/-- Spec 16, R21: a PARAM_SET of `chan[1].filt_batch` = 1 and `lc[0].speed_max` = 13 by P0 is acknowledged at the next tick:
it ends OK, and both are set. -/
theorem test_param_set :
    (let m := ask cmdParamSet [2, 0, 0, 0, 0, 0, 0, 0, 1, 0, 0, 0x21, 1, 0, 0, 0, 1, 0, 0, 0, 0, 0, 0, 0, 0, 0, 0xB0, 0x31,
       4, 0, 0, 0, 13, 0, 0, 0, 0, 0, 0, 0]
     match exec (.paramSet 0 m) up with
     | .next u => match exec (.dispatchTick 1000000) u with
       | .next t => (m.rq.length, u.longs.length, t.longs.length, t.par K.chanFiltBatch 1, t.par K.lcSpeedMax 0,
           memRead (t.part 0).slots (0x200 * 15 + 6) 1)
       | _ => (0, 0, 0, 0, 0, [])
     | _ => (0, 0, 0, 0, 0, [])) = (40, 1, 0, 1, 13, [0]) := by decide +kernel
/-- Table 14.9: MG_ID answers the device id 0x3264 and silicon revision B0. -/
theorem test_mg_id :
    (match exec (.mgId 0) up with
     | .next t => t.out.bytes.take 3
     | _ => []) = [0x64, 0x32, 0xB0] := by decide +kernel
/-- R398, R399: the first start of a device as shipped that meets no fault reaches READY and is start 1. -/
theorem test_first_start :
    (match exec (.powerOnReset 0 0 cleanBoot) State.reset with
     | .next t => (t.dev.mode, t.dev.porst, t.keep.boot)
     | _ => (.held, false, 0)) = (.ready, true, 1) := by decide +kernel
/-- A command at the front of the queue runs, and the rest stay. -/
theorem test_step_queue :
    (match step { up with pending := [.aliveRenewal 0, .plan 0] } with
     | .next t => t.pending
     | _ => []) = [.plan 0] := by decide +kernel
/-- R395, Table 13.2: with BOOT_SEL = 0b11 the first start ends in Rusk mode. -/
theorem test_forced_rusk :
    (match exec (.powerOnReset 0 3 cleanBoot) State.reset with
     | .next t => t.dev.mode
     | _ => .held) = .rusk := by decide +kernel

/-! ### Witnesses: states and operands that meet the hypotheses of the obligations -/

/-- What `serves` decides is `Serves`. -/
theorem serves_Serves {d : CmdDef} {m : Mbox} {s : State} (h : serves d m s = true) : Serves d 0 m s := by
  simp only [serves, Bool.and_eq_true, Bool.not_eq_true', decide_eq_true_eq] at h
  obtain ⟨⟨⟨h1, h2⟩, h3⟩, h4⟩ := h
  exact ⟨h1, h2, h3, h4⟩

/-- What `goodItem` decides is `GoodItem`. -/
theorem goodItem_GoodItem {t : State} {q ty : Nat} {it : InItem} (h : goodItem t q ty it = true) :
    GoodItem t q ty it := by
  simp only [goodItem, Bool.and_eq_true, Bool.not_eq_true', decide_eq_true_eq, Option.isNone_iff_eq_none] at h
  obtain ⟨⟨⟨⟨⟨⟨⟨⟨⟨⟨h1, h2⟩, h3⟩, h4⟩, h5⟩, h6⟩, h7⟩, h8⟩, h9⟩, h10⟩, h11⟩ := h
  exact ⟨h1, h2, h3, ⟨h4, h5⟩, h6, h7, h8, h9, h10, h11⟩

theorem witness_StepRunsFront :
    (decide (State.reset.pending = [])) = true := by
  decide +kernel
theorem witness_ExecLeavesQueue :
    (goes (exec (.getInfo 0 (ask cmdGetInfo [])) { up with pending := [.plan 0] })) = true := by
  decide +kernel
theorem witness_GrantsOnlyByRightsGrant :
    (goes (exec (.getInfo 0 (ask cmdGetInfo [])) up) && SMap.wf 0 up.expert) = true := by
  decide +kernel
theorem witness_LinksChangeOnlyByLinkRows :
    (goes (exec (.hotReset 0 .pa) up)) = true := by
  decide +kernel
theorem witness_StrapsChangeOnlyAtPowerOn :
    (goes (exec (.powerFail 0) up)) &&
    (goes (exec (.hotReset 0 .pa) up)) = true := by
  decide +kernel
theorem witness_StartsAreCounted :
    (goes (exec (.powerFail 0) up)) = true := by
  decide +kernel
theorem witness_RefusedRequestsHaveNoEffect :
    (heldWith cmdGetInfo (fun x => { x with length := 497 }) (up) (fun r => decide (496 < r.length))) &&
    (heldWith cmdPartStatus id ({ up with dev := { up.dev with mode := .rusk } }) (fun r => decide (r.length ≤ 496) &&
      !cmdPartStatus.rusk)) &&
    (heldWith cmdGetInfo (fun x => { x with form := 2 }) (up) (fun r => decide (1 < r.form))) &&
    (heldWith cmdGetInfo (fun x => { x with form := 1 }) ({ up with dev := { up.dev with mode := .rusk } }) (fun r => decide (r.form = 1) &&
      !cmdGetInfo.expert && cmdGetInfo.rusk)) &&
    (heldWith cmdSchedStage (fun x => { x with form := 1, flags := 1 }) (up) (fun r => decide (r.form = 1) &&
      cmdSchedStage.expert && decide (r.flags ≠ 0))) &&
    (heldWith cmdGetInfo (fun x => { x with data := [1], length := 1 }) (up) (fun r => cmdGetInfo.badByte r = none &&
      decide (r.length ≠ cmdGetInfo.len r))) &&
    (heldWith cmdPartStatus (fun x => { x with data := [0, 1, 0, 0, 0, 0, 0, 0] }) (up) (fun r => (cmdPartStatus.badByte r).isSome)) &&
    (heldWith cmdGetInfo (fun x => { x with bulkLen := 0xFFFFFFFF }) (up) (fun r => cmdGetInfo.badByte r = none &&
      decide (r.length = cmdGetInfo.len r) && decide (r.bulkLen = 0xFFFFFFFF))) &&
    (heldWith cmdGetInfo (fun x => { x with bulkLen := 1, bulkOff := .ofNat 32 (up.bulkSize 0) }) (up) (fun r => decide (r.length = cmdGetInfo.len r) &&
      decide (up.bulkSize r.part < r.bulkOff + r.bulkLen))) &&
    (heldWith cmdGetInfo (fun x => { x with bulkOff := 31 }) (up) (fun r => decide (r.length = cmdGetInfo.len r) &&
      decide (r.bulkOff + r.bulkLen ≤ up.bulkSize r.part ∧ r.bulkOff % 32 ≠ 0))) = true := by
  decide +kernel
theorem witness_FreshRequestIsAccepted :
    (let u := up.elapse 0; u.served 0 && decide ((u.part 0).resetting = none) && !u.slotHeld 0 15 &&
      decide ((u.part 0).accepted = []) && Memory.wf (u.part 0).slots) = true := by
  decide +kernel
theorem witness_ResponseLayout :
    (decide ((zs 496).length ≤ 496) && Memory.wf (up.part 7).slots) = true := by
  decide +kernel
theorem witness_HeldRequestWaits :
    (let m := ask cmdGetInfo [];
      let s := asked ({ up with longs := [{ longOf 0x803 31 with blocks := true }] }) cmdGetInfo m;
      let u := s.offered cmdGetInfo.code 0 m; (s.elapse 0).reaches m.via &&
      decide ((u.part 0).accepted = [acceptedOf cmdGetInfo.code m]) && u.blocked 0) &&
    (let m := ask cmdGetInfo [];
      let s := asked (up.modPart 7 fun x => { x with accepted := [acceptedOf cmdGetInfo.code m] }) cmdGetInfo m;
      let s : State := { s with dev := { s.dev with turn := 1 } }; let u := s.offered cmdGetInfo.code 0 m;
      (s.elapse 0).reaches m.via && decide ((u.part 0).accepted = [acceptedOf cmdGetInfo.code m]) &&
      decide (u.nextPart = some 7)) &&
    (let m := ask cmdGetInfo []; let s := asked (up.modRec 0x100 fun x => { x with current := true }) cmdGetInfo m;
      let u := s.offered cmdGetInfo.code 0 m; (s.elapse 0).reaches m.via &&
      decide ((u.part 0).accepted = [acceptedOf cmdGetInfo.code m]) && (u.frec 0x100).current) &&
    (let m := ask cmdBootRecords [];
      let s := asked (up.modRec 0x101 fun x => { x with current := true }) cmdBootRecords m;
      let u := s.offered cmdBootRecords.code 0 m; (s.elapse 0).reaches m.via &&
      decide ((u.part 0).accepted = [acceptedOf cmdBootRecords.code m]) &&
      managementCodes.contains cmdBootRecords.code && (u.frec 0x101).current) = true := by
  decide +kernel
theorem witness_UnreachedPortOnlyReports :
    (!(up.elapse 0).reaches ⟨.pb, 0⟩) &&
    (!(State.reset.elapse 0).reaches ⟨.pa, 0⟩) = true := by
  decide +kernel
theorem witness_ReportsComplete :
    (meets cmdGetInfo (ask cmdGetInfo []) (up) (fun _ _ => true)) &&
    (meets cmdPartStatus (ask cmdPartStatus [7]) (up) (fun _ r => let p := r.u 0 1; decide (p ≤ 7) &&
      decide ((r.part = 0 ∨ r.part = p)))) &&
    (meets cmdRightsList (ask cmdRightsList [1, 0, 31, 0]) (up) (fun _ r => (resOfClass (r.u 0 1)).any fun (c, n) => decide (r.u 2 2 < n))) &&
    (meets cmdEpochStatus (ask cmdEpochStatus []) (up) (fun _ _ => true)) &&
    (meets cmdParamLookup (ask cmdParamLookup ("part[p].port".toList.map Char.toNat)) (up) (fun _ r => (pNamed (String.ofList ((r.data.takeWhile (· ≠ 0)).map fun b => Char.ofNat b.toNat))).any fun d => true)) = true := by
  decide +kernel
theorem witness_PartResetStarts :
    (meets cmdPartReset (ask cmdPartReset [7]) (up.setPar K.partPort 7 2) (fun t r => decide (r.u 0 1 ≠ 0) &&
      decide (r.u 0 1 ≤ 7) && decide (r.part = 0) && decide (t.portOf (r.u 0 1) ≠ .none) &&
      decide ((t.part (r.u 0 1)).resetting = none))) &&
    (decide ((up.part 7).resetting = none)) &&
    (let u := (up.startReset 7 1).elapse 0; decide ((u.part 7).resetting = some 1) && !u.resetLate 7) &&
    (let u := (late ({ up.startReset 7 1 with longs := [longOf 2 7] })).elapse 0;
      decide ((u.part 7).resetting = some 1) && u.resetLate 7) &&
    (decide (((up.elapse 0).part 7).resetting = none)) = true := by
  decide +kernel
theorem witness_RightsCommandsComplete :
    (meets cmdRightsGrant (ask cmdRightsGrant [1, 7, 31, 0]) (up) (fun t r => (resOfClass (r.u 0 1)).any fun (c, k) => let p := r.u 1 1;
      let i := r.u 2 2; decide (p ≤ 7) && decide (i < k) && decide (t.mayOperate r.part c i = true) &&
      decide (¬(p = t.ownerOf c i ∧ r.part ≠ 0)) &&
      decide (p ≠ 0) && decide (t.expertOn p c i = false))) &&
    (meets cmdRightsRevoke (ask cmdRightsRevoke [1, 7, 31, 0]) (up.setRights .chan 31 7 true) (fun t r => (resOfClass (r.u 0 1)).any fun (c, k) => let p := r.u 1 1;
      let i := r.u 2 2; decide (p ≤ 7) && decide (i < k) && decide (t.mayOperate r.part c i = true) &&
      decide (¬(p = t.ownerOf c i ∧ r.part ≠ 0)) && decide (p ≠ 0) && decide (t.expertOn p c i = true))) &&
    ([cmdRightsGrant, cmdRightsRevoke].all fun d =>
      let m := { ask d [1, 7, 31, 0] with via := ⟨.pa, 7⟩ };
      let s := ((up.setPar K.chanOwner 31 7).setPar K.partPort 7 1).modPart 7 fun x => { x with accepted := [acceptedOf d.code m] };
      serves d m s && let t := s.taken d.code 0 m; let r := reqOf d.code m;
      (resOfClass (r.u 0 1)).any fun (c, k) => decide (r.u 1 1 ≤ 7) && decide (r.u 2 2 < k) &&
      t.mayOperate r.part c (r.u 2 2) && decide (r.u 1 1 = t.ownerOf c (r.u 2 2)) && decide (r.part ≠ 0)) = true := by
  decide +kernel
theorem witness_RevocationChangesNoValue :
    (goes (exec (.rightsRevoke 0 (ask cmdRightsRevoke [1, 7, 31, 0])) up)) &&
    (let s := up.setPar K.chanOwner 31 7;
      let e := ({ key := keyId K.chanPex 31, len := 1, flags := 0, val := 1, pad := true } : PEntry);
      SMap.wf 0 s.expert && SMap.wf 0 s.revoked && decide (s.entryBad 7 e = none) &&
      decide (((pDesc e.num).map fun d => (d.expert, s.ownerOf d.res e.inst)) = some (true, s.ownerOf .chan 31))) &&
    (let s := up.setPar K.chanOwner 31 7;
      let e := ({ key := keyId K.chanMaxLen 31, len := 2, flags := 0, val := 8, pad := true } : PEntry);
      SMap.wf 0 s.expert && SMap.wf 0 s.revoked && decide (s.entryBad 7 e = none) &&
      decide (((pDesc e.num).map fun d => (d.expert, s.ownerOf d.res e.inst)) = some (false, s.ownerOf .chan 31))) = true := by
  decide +kernel
theorem witness_ParamSetCompletes :
    (meets cmdParamSet (ask cmdParamSet [1, 0, 0, 0, 0, 0, 0, 0, 0, 0, 0, 0x40, 4, 0, 0, 0, 100, 0, 0, 0, 0, 0, 0, 0]) (up) (fun t r => let bs := (if r.bulkLen ≠ 0 then t.bulkIn r else r.data.drop 8);
      decide ((r.bulkLen ≠ 0 → r.bulkLen = entriesEnd bs (r.u 0 2) 0 ∧ t.poisoned (t.bulkBase r.part + r.bulkOff) r.bulkLen = false)) &&
      decide (firstEntry (t.entryBad r.part) (entriesAt bs (r.u 0 2) 0) = none) &&
      decide (t.setBad (entriesAt bs (r.u 0 2) 0) (stageEntries (entriesAt bs (r.u 0 2) 0) (t.stage r.part)) = none) &&
      let u := (entriesAt bs (r.u 0 2) 0).foldl (State.applyEntry r.part) t; decide (u.upd.posted = t.upd.posted))) &&
    (meets cmdParamSet (ask cmdParamSet [1, 0, 0, 0, 0, 0, 0, 0, 0, 0, 0xB0, 0x31, 4, 0, 0, 0, 13, 0, 0, 0, 0, 0, 0, 0]) (up) (fun t r => let bs := (if r.bulkLen ≠ 0 then t.bulkIn r else r.data.drop 8);
      decide ((r.bulkLen ≠ 0 → r.bulkLen = entriesEnd bs (r.u 0 2) 0 ∧ t.poisoned (t.bulkBase r.part + r.bulkOff) r.bulkLen = false)) &&
      decide (firstEntry (t.entryBad r.part) (entriesAt bs (r.u 0 2) 0) = none) &&
      decide (t.setBad (entriesAt bs (r.u 0 2) 0) (stageEntries (entriesAt bs (r.u 0 2) 0) (t.stage r.part)) = none) &&
      let u := (entriesAt bs (r.u 0 2) 0).foldl (State.applyEntry r.part) t; decide (u.upd.posted ≠ t.upd.posted))) &&
    (meets cmdParamSet (ask cmdParamSet [1, 0, 0, 0, 0, 0, 0, 0, 0, 0, 0xF0, 0xFF, 1, 0, 0, 0, 0, 0, 0, 0, 0, 0, 0, 0]) (up) (fun t r => let bs := (if r.bulkLen ≠ 0 then t.bulkIn r else r.data.drop 8);
      decide ((r.bulkLen ≠ 0 → r.bulkLen = entriesEnd bs (r.u 0 2) 0 ∧ t.poisoned (t.bulkBase r.part + r.bulkOff) r.bulkLen = false)) &&
      (firstEntry (t.entryBad r.part) (entriesAt bs (r.u 0 2) 0)).any fun (i, st) => true)) = true := by
  decide +kernel
theorem witness_ParamGetCompletes :
    (meets cmdParamGet (ask cmdParamGet [0, 0, 1, 0, 0, 0, 0, 0, 7, 0, 0x20, 0, 0, 0, 0, 0]) (up) (fun t r => decide (r.u 2 1 ≤ 1) &&
      decide (r.bulkLen = 0) && let es := entriesBare (r.data.drop 8) (r.u 0 2);
      decide (firstEntry (fun e => e.keyBad true) es = none) &&
      let out := (es.map (t.entryOut (decide (r.u 2 1 = 1)))).flatten; decide (8 + out.length ≤ 496))) &&
    (meets cmdParamGet (ask cmdParamGet [1, 0, 1, 0, 0, 0, 0, 0] (n := 32)) (up.storeWrite (up.bulkBase 0) [7, 0, 0x20, 0]) (fun t r => decide (r.u 2 1 ≤ 1) &&
      decide (r.bulkLen ≠ 0) && decide (8 * r.u 0 2 ≤ r.bulkLen) &&
      decide (t.poisoned (t.bulkBase r.part + r.bulkOff) (8 * r.u 0 2) = false) &&
      let es := entriesBare (t.bulkIn r) (r.u 0 2); decide (firstEntry (fun e => e.keyBad true) es = none) &&
      let out := (es.map (t.entryOut (decide (r.u 2 1 = 1)))).flatten; decide (out.length ≤ r.bulkLen))) = true := by
  decide +kernel
theorem witness_EpochCommandsComplete :
    (meets cmdEpochCommit (ask cmdEpochCommit []) (up) (fun t r => decide ((t.stage r.part).any = false))) &&
    (meets cmdEpochCommit (ask cmdEpochCommit [1]) ((up.modStage 0 fun g => g.setPar K.schedArmLead 0 1000)) (fun t r => decide ((t.stage r.part).any = true) &&
      decide (t.admission (t.stage r.part) none = 0) && decide (bitOf (r.u 0 1) 0 = true))) &&
    (meets cmdEpochCommit (ask cmdEpochCommit []) ((up.modStage 0 fun g => g.setPar K.schedArmLead 0 1000)) (fun t r => decide ((t.stage r.part).any = true) &&
      decide (t.commits.all (fun k => !t.overlap k.chans (t.stage r.part) k.stage) = true) &&
      decide (t.admission (t.stage r.part) none = 0) && decide (bitOf (r.u 0 1) 0 = false) &&
      let lc := (match t.boundaryOf (t.stage r.part) with | some (some n) => n | _ => 0xFF); true)) &&
    (meets cmdEpochCancel (ask cmdEpochCancel [9]) ({ up with commits := [commit] }) (fun t r => let id := BitVec.ofNat 32 (r.u 0 4);
      (t.commits.find? (fun k => k.id = id)).any fun k => decide (k.part = r.part))) &&
    (meets cmdStageDiscard (ask cmdStageDiscard []) (up) (fun _ _ => true)) &&
    (let s := late up; decide (s.dev.mode = .ready) && (s.elapse 0).tickDue) = true := by
  decide +kernel
theorem witness_AdmitReportCompletes :
    (meets cmdAdmitReport (ask cmdAdmitReport [] (n := 1072)) (up) (fun t r => decide (r.u 0 1 ≤ 1) &&
      decide ((r.u 0 1 = 1 → (t.stage r.part).any = true)) && decide (1072 ≤ r.bulkLen))) = true := by
  decide +kernel
theorem witness_ChannelCommandsComplete :
    (meets cmdChanOpen (ask cmdChanOpen [31, 4]) (up) (fun t r => let c := r.u 0 1; decide (c ≤ 31) &&
      decide (t.mayOperate r.part .chan c = true) && decide (t.retired c = false) && decide (r.u 1 1 ≤ 4) &&
      decide (t.chanInUse c = false) && decide ((t.chan c).st = .closed) && decide ((t.cfg c).timingOk = true) &&
      decide (t.admitOpen c = 0))) &&
    (meets cmdChanClose (ask cmdChanClose [31]) (up.modChan 31 fun x => { x with st := .opened }) (fun t r => let c := r.u 0 1;
      decide (c ≤ 31) && decide (t.mayOperate r.part .chan c = true) && decide (t.retired c = false) &&
      decide (t.chanInUse c = false) && decide ((t.chan c).st ≠ .closed) && decide (t.chanUsed c false = false))) &&
    (meets cmdChanMode (ask cmdChanMode [31, 5]) (up.modChan 31 fun x => { x with st := .opened }) (fun t r => let c := r.u 0 1;
      decide (c ≤ 31) && decide (t.mayOperate r.part .chan c = true) && decide (t.retired c = false) &&
      decide (t.chanInUse c = false) && decide (r.u 1 1 ≤ 5) && decide ((t.chan c).st = .opened) &&
      decide ((r.u 1 1 = 5 → t.chanUsed c true = false)))) &&
    (meets cmdChanMode (ask cmdChanMode [31, 5]) (up.modChan 31 fun x => { x with st := .sleep }) (fun t r => let c := r.u 0 1;
      decide (c ≤ 31) && decide (t.mayOperate r.part .chan c = true) && decide (t.retired c = false) &&
      decide (t.chanInUse c = false) && decide (r.u 1 1 ≤ 5) && decide ((t.chan c).st = .sleep))) &&
    (meets cmdChanRecover (ask cmdChanRecover [31]) ((up.modChan 31 fun x => { x with st := .opened }).modErr 31 fun e => { e with st := .busOffHeld }) (fun t r => let c := r.u 0 1;
      decide (c ≤ 31) && decide (t.mayOperate r.part .chan c = true) && decide (t.retired c = false) &&
      decide (t.chanInUse c = false) && decide ((t.chan c).err.st = .busOffHeld) && decide ((t.chan c).st = .opened))) &&
    (meets cmdChanRetire (ask cmdChanRetire [31]) (up.modChan 31 fun x => { x with st := .opened }) (fun t r => let c := r.u 0 1;
      decide (c ≤ 31) && decide (t.mayOperate r.part .chan c = true) && decide (t.retired c = false) &&
      decide (t.chanInUse c = false) && decide ((t.chan c).st ≠ .closed))) = true := by
  decide +kernel
theorem witness_ChannelReportsComplete :
    (meets cmdChanStatus (ask cmdChanStatus [31]) (up) (fun _ r => decide (r.u 0 1 ≤ 31))) &&
    (meets cmdChanDiag (ask cmdChanDiag [] (n := 2048)) (up) (fun t r => decide (64 * (t.myChans r.part).length ≤ r.bulkLen))) &&
    (meets cmdChanCollideClear (ask cmdChanCollideClear [31, 0xFF]) (up) (fun t r => let c := r.u 0 1;
      decide (c ≤ 31) && decide (t.mayOperate r.part .chan c = true) && decide (t.retired c = false) &&
      decide (t.chanInUse c = false) &&
      decide (r.u 1 1 = 0xFF))) &&
    (meets cmdChanCollideClear (ask cmdChanCollideClear [31, 127]) ((up.setPar K.objDir 4095 2)) (fun t r => let c := r.u 0 1;
      decide (c ≤ 31) && decide (t.mayOperate r.part .chan c = true) && decide (t.retired c = false) &&
      decide (t.chanInUse c = false) &&
      decide (r.u 1 1 ≤ 127) && decide (t.objTx c (r.u 1 1) = true))) &&
    (meets cmdAgeClearHist (ask cmdAgeClearHist [31]) (up.modChan 31 fun x => { x with st := .opened }) (fun t r => let c := r.u 0 1;
      decide (c ≤ 31) && decide (t.mayOperate r.part .chan c = true) && decide (t.retired c = false) &&
      decide (t.chanInUse c = false) && decide ((t.chan c).st ≠ .closed))) = true := by
  decide +kernel
theorem witness_ChanConfigStages :
    (meets cmdChanConfig (ask cmdChanConfig [31]) (up) (fun t r => let c := r.u 0 1; decide (c ≤ 31) &&
      decide (t.mayOperate r.part .chan c = true) && decide (t.retired c = false) && decide (t.chanInUse c = false) &&
      decide ((chanConfigKeys r).all (fun k => valueOk k.1 k.2.1) = true) &&
      decide ((r.form = 1 → t.expertOn r.part .chan c = true)) && decide (t.stageBusy r.part (0x10000 + c) = false) &&
      let g := (chanConfigKeys r).foldl (fun (g : Stage) k => g.write k.1 c k.2.1) (t.stage r.part);
      decide (ChanCfg.timingOk (fun num => t.viewOf g num c) = true))) = true := by
  decide +kernel
theorem witness_ObjectCommandsComplete :
    (meets cmdObjDefine (ask cmdObjDefine [31, 0]) (up) (fun t r => decide (t.objRefused r = none))) &&
    (meets cmdObjRead (ask cmdObjRead [31, 127]) ((up.setPar K.objDir 4095 2)) (fun t r => let c := r.u 0 1;
      decide (c ≤ 31) && decide (t.mayOperate r.part .chan c = true) && decide (t.retired c = false) &&
      let o := r.u 1 1; decide (o ≤ 127) && decide (t.objDir c o ≠ 0) &&
      decide (((t.chan c).obj o).payload.length ≤ 432))) &&
    (meets cmdObjRead (ask cmdObjRead [31, 127] (n := 512)) ((up.setPar K.objDir 4095 2).modObj 31 127 fun o => { o with len := 512, buf0 := zs 512 }) (fun t r => let c := r.u 0 1;
      decide (c ≤ 31) && decide (t.mayOperate r.part .chan c = true) && decide (t.retired c = false) &&
      let o := r.u 1 1; decide (o ≤ 127) && decide (t.objDir c o ≠ 0) &&
      decide (432 < ((t.chan c).obj o).payload.length) && decide (((t.chan c).obj o).payload.length ≤ r.bulkLen))) &&
    (meets cmdFiltStatus (ask cmdFiltStatus [31]) (up) (fun t r => let c := r.u 0 1; decide (c ≤ 31) &&
      decide (t.mayOperate r.part .chan c = true) && decide (t.retired c = false))) = true := by
  decide +kernel
theorem witness_RuleCommandsComplete :
    (meets cmdRuleStage (ask cmdRuleStage [31] (n := 32)) (up.storeWrite (up.bulkBase 0) (({ tableId := 5, rules := [] } : RuleList).bytes 31)) (fun t r => decide ((match t.rulesOf r with | .ok _ => true | .error _ => false) = true))) &&
    (meets cmdRuleRead (ask cmdRuleRead [31, 0] (n := 32)) (up) (fun t r => let c := r.u 0 1; decide (c ≤ 31) &&
      decide (t.mayOperate r.part .chan c = true) && decide (t.retired c = false) && decide (r.u 1 1 = 0) &&
      let bs := (t.chan c).rules.bytes c; decide (bs.length ≤ r.bulkLen) && decide (r.bulkLen ≠ 0))) &&
    (meets cmdRuleRead (ask cmdRuleRead [31, 1] (n := 32)) (up.modStage 0 fun g => { g with rules := [(31, ({ tableId := 5, rules := [] } : RuleList))] }) (fun t r => let c := r.u 0 1;
      decide (c ≤ 31) && decide (t.mayOperate r.part .chan c = true) && decide (t.retired c = false) &&
      decide (r.u 1 1 = 1) && (t.stagedRules c).any fun l => let bs := l.bytes c; decide (bs.length ≤ r.bulkLen) &&
      decide (r.bulkLen ≠ 0))) = true := by
  decide +kernel
theorem witness_ScheduleCommandsComplete :
    (meets cmdSchedStage (ask cmdSchedStage [] (form := 1) (n := 128)) (up.storeWrite (up.bulkBase 0) (waferBytes [(31, basic)])) (fun t r => decide (r.form = 1) &&
      decide (t.waferRefused r = none))) &&
    (meets cmdSchedStage (ask cmdSchedStage [31, 0, 0, 0, 1, 0, 0, 0, 0, 0, 0, 0, 1]) (up) (fun t r => decide (r.form = 0) &&
      decide (t.basicRefused r = none))) &&
    (meets cmdSchedClear (ask cmdSchedClear [31]) (up) (fun t r => let c := r.u 0 1; decide (c ≤ 31) &&
      decide (t.mayOperate r.part .chan c = true) && decide (t.retired c = false) &&
      decide (t.stageBusy r.part (0x10000 + c) = false))) &&
    (meets cmdSchedRead (ask cmdSchedRead [0] (n := 32)) (up) (fun t r => decide (r.u 0 1 ≤ 1) &&
      let bs := waferBytes ((t.myChans r.part).filterMap fun c => (if r.u 0 1 = 0 then (t.chan c).sched else (t.stagedSched c).getD none).map fun d => (c, d));
      decide (bs.length ≤ r.bulkLen) && decide (r.bulkLen ≠ 0))) &&
    (meets cmdSchedStatus (ask cmdSchedStatus [31, 1]) (up) (fun t r => let c := r.u 0 1; decide (c ≤ 31) &&
      decide (t.retired c = false) && decide ((bitOf (r.u 1 1) 0 = true → t.mayOperate r.part .chan c = true)))) = true := by
  decide +kernel
theorem witness_SignalCommandsComplete :
    (meets cmdSigStage (ask cmdSigStage [] (n := 32)) (up.storeWrite (up.bulkBase 0) (mapBytes [(31, SigSet.empty)])) (fun t r => decide (t.sigMapBad r = none))) &&
    (meets cmdSigClear (ask cmdSigClear [31]) (up) (fun t r => let c := r.u 0 1; decide (c ≤ 31) &&
      decide (t.mayOperate r.part .chan c = true) && decide (t.retired c = false) &&
      decide (t.stageBusy r.part (0x10000 + c) = false))) &&
    (meets cmdSigRead (ask cmdSigRead [0] (n := 32768)) (up) (fun t r => decide (r.u 0 1 = 0) &&
      let bs := mapBytes ((t.myChans r.part).map fun c => (c, (t.chan c).sigs)); decide (bs.length ≤ r.bulkLen) &&
      decide (r.bulkLen ≠ 0))) &&
    (meets cmdSigRead (ask cmdSigRead [1] (n := 64)) (up.modStage 0 fun g => { g with sigs := [(31, SigSet.empty)] }) (fun t r => decide (r.u 0 1 = 1) &&
      let sets := (t.myChans r.part).filterMap (fun c => (t.stagedSigs c).map fun x => (c, x));
      decide (sets.isEmpty = false) && decide ((mapBytes sets).length ≤ r.bulkLen) && decide (r.bulkLen ≠ 0))) &&
    (meets cmdSigStatus (ask cmdSigStatus [31, 1]) (up) (fun t r => let c := r.u 0 1; decide (c ≤ 31) &&
      decide (t.retired c = false) && decide ((bitOf (r.u 1 1) 0 = true → t.mayOperate r.part .chan c = true)))) = true := by
  decide +kernel
theorem witness_AxisCommandsComplete :
    (meets cmdAxDefine (ask cmdAxDefine [127, 31, 127, 127, 32]) (up) (fun t r => let a := r.u 0 1;
      decide (a ≤ 127) && decide ((r.u 1 1 ≤ 31 ∨ r.u 1 1 = 0xFF)) && decide (r.u 2 1 ≤ 127) &&
      decide ((r.u 3 1 ≤ 127 ∨ r.u 3 1 = 0xFF)) && decide (r.u 4 1 ≤ 32) && decide (r.u 8 4 ≤ 0x3FFFF) &&
      decide ((r.u 12 4 ≤ 0x3FFFF ∨ r.u 12 4 = 0xFFFFFFFF)) &&
      decide ((r.form = 1 → r.u 16 4 ≤ 0x3FFFF ∨ r.u 16 4 = 0xFFFFFFFF)) &&
      decide (t.mayOperate r.part .axis a = true) && decide ((r.form = 1 → t.expertOn r.part .axis a = true)) &&
      decide (t.stageBusy r.part (resKey .axis a) = false))) &&
    (meets cmdAxStart (ask cmdAxStart [127, 2, 1]) ((((up.setPar K.axChan 127 31).setPar K.axObj 127 127).setPar K.objDir 4095 2)) (fun t r => let a := r.u 0 1;
      decide (a ≤ 127) && decide ((r.u 1 1 = 1 ∨ r.u 1 1 = 2)) && decide (r.u 2 1 ≤ 2) &&
      decide (t.mayOperate r.part .axis a = true) && decide (t.axDefined a = true) &&
      decide ((t.axis a).st ≠ .track) && decide ((t.axis a).st ≠ .target) && decide ((t.axis a).st ≠ .stopping) &&
      decide ((t.axis a).st = .inactive → (t.axis a).redefined = false) &&
      decide ((r.u 2 1 = 0 → t.par K.axFbSig a ≠ 0xFFFFFFFF ∧ (t.sigRec (t.par K.axFbSig a)).valid = true)) &&
      decide ((r.u 2 1 = 2 → (t.axis a).st ≠ .inactive ∨ (t.axis a).ran = true)))) &&
    (meets cmdAxStop (ask cmdAxStop [0xFF]) (up) (fun _ r => decide (r.u 0 1 = 0xFF))) &&
    (meets cmdAxStop (ask cmdAxStop [127]) (up) (fun t r => decide (r.u 0 1 ≤ 127) &&
      decide (t.mayOperate r.part .axis (r.u 0 1) = true))) &&
    (meets cmdAxStatus (ask cmdAxStatus [127, 1]) (up) (fun t r => decide (r.u 0 1 ≤ 127) &&
      decide ((bitOf (r.u 1 1) 0 = true → t.mayOperate r.part .axis (r.u 0 1) = true)))) = true := by
  decide +kernel
theorem witness_QueueCommandsComplete :
    (meets cmdQOpen (ask cmdQOpen [63]) (up.setPar K.qSize 63 4096) (fun t r => let q := r.u 0 1; decide (q ≤ 63) &&
      decide (t.mayOperate r.part .queue q = true) && decide ((t.queue q).isOpen = false) &&
      decide (t.queueUse (t.par K.qOwner q) + t.par K.qSize q ≤ t.par K.partQQuota (t.par K.qOwner q)) &&
      (t.allocBlock (t.par K.qSize q)).any fun b => true)) &&
    (meets cmdQClose (ask cmdQClose [63]) (up.modQueue 63 fun x => { x with isOpen := true, bytes := 4096 }) (fun t r => let q := r.u 0 1;
      decide (q ≤ 63) && decide (t.mayOperate r.part .queue q = true) && decide ((t.queue q).isOpen = true) &&
      decide (t.queueNamed q = false))) &&
    (meets cmdQFlush (ask cmdQFlush [63]) (up.modQueue 63 fun x => { x with isOpen := true, bytes := 4096 }) (fun t r => let q := r.u 0 1;
      decide (q ≤ 63) && decide (t.mayOperate r.part .queue q = true) && decide ((t.queue q).isOpen = true))) &&
    (meets cmdQStatus (ask cmdQStatus [63]) (up) (fun t r => let q := r.u 0 1; decide (q ≤ 63) &&
      decide (t.mayOperate r.part .queue q = true))) &&
    (meets cmdStoreStatus (ask cmdStoreStatus []) (up) (fun _ _ => true)) = true := by
  decide +kernel
theorem witness_CoordinateCommandsComplete :
    (meets cmdLcRead (ask cmdLcRead []) (up) (fun _ _ => true)) &&
    (meets cmdLcStart (ask cmdLcStart [3]) ((up.setPar K.lcSource 3 1).setPar K.lcDirHyst 3 0x200000000) (fun t r => let n := r.u 0 1;
      decide (n ≤ 3) && decide (t.mayOperate r.part .lc n = true) && decide ((t.lc n).started = false) &&
      decide (t.par K.lcSource n ≠ 0) &&
      decide ((t.par K.lcSource n = 2 → t.par K.lcSsiTurnBits n ≤ t.par K.lcSsiBits n ∧ t.par K.lcSsiBits n ≤ t.par K.lcSsiTurnBits n + 32)) &&
      decide ((t.par K.lcSource n = 1 → 2 * t.par K.lcCntDen n * 0x100000000 ≤ t.par K.lcDirHyst n * t.par K.lcCntNum n)))) &&
    (meets cmdLcStop (ask cmdLcStop [3]) (up) (fun t r => let n := r.u 0 1; decide (n ≤ 3) &&
      decide (t.mayOperate r.part .lc n = true) && decide (t.lcUsed n = false))) &&
    (meets cmdLcSet (ask cmdLcSet [3, 0]) (up) (fun t r => let n := r.u 0 1; decide (n ≤ 3) &&
      decide (t.mayOperate r.part .lc n = true) && decide (r.u 1 1 = 0) && decide (t.lcUsed n = false))) &&
    (meets cmdLcSet (ask cmdLcSet [3, 2, 15]) (up) (fun t r => let n := r.u 0 1; decide (n ≤ 3) &&
      decide (t.mayOperate r.part .lc n = true) && decide ((r.u 1 1 = 1 ∨ (r.u 1 1 = 2 ∧ r.u 2 1 ≤ 15))) &&
      decide (t.lcUsed n = false))) &&
    (meets cmdLatStatus (ask cmdLatStatus [15]) (up) (fun t r => let i := r.u 0 1; decide (i ≤ 15) &&
      decide (t.mayOperate r.part .latch i = true))) &&
    (meets cmdSyncStatus (ask cmdSyncStatus [3]) (up) (fun t r => let i := r.u 0 1; decide (i ≤ 3) &&
      decide (t.mayOperate r.part .sync i = true))) = true := by
  decide +kernel
theorem witness_TimeDisciplineSlewsOrSteps :
    (meets cmdTimeDiscipline (ask cmdTimeDiscipline [0, 0, 0, 0, 0, 0, 0, 0, 0, 0, 0, 0, 0, 0, 0, 0, 0, 0, 0, 0, 0, 0, 0, 0, 0xFF, 0xFF, 0xFF, 0xFF, 0xFF, 0xFF, 0xFF, 0xFF]) (up) (fun t r => decide (r.u 0 1 ≤ 1) &&
      decide (t.par K.timeOwner 0 = r.part) &&
      let o := (if r.u 0 1 = 0 then sgn 64 (r.u 24 8) else (BitVec.ofNat 64 (r.u 16 8) - BitVec.ofNat 64 (r.u 8 8) : W64).toInt);
      decide ((t.par K.timeStepEnable 0 = 0 ∨ o.natAbs ≤ t.par K.timeStepThreshold 0)))) &&
    (meets cmdTimeDiscipline (ask cmdTimeDiscipline [1, 0, 0, 0, 0, 0, 0, 0, 0, 0, 0, 0, 0, 0, 0, 0, 0, 0, 0, 0, 1]) (up.setPar K.timeStepEnable 0 1) (fun t r => decide (r.u 0 1 ≤ 1) &&
      decide (t.par K.timeOwner 0 = r.part) &&
      let o := (if r.u 0 1 = 0 then sgn 64 (r.u 24 8) else (BitVec.ofNat 64 (r.u 16 8) - BitVec.ofNat 64 (r.u 8 8) : W64).toInt);
      decide (t.par K.timeStepEnable 0 ≠ 0) && decide (t.par K.timeStepThreshold 0 < o.natAbs))) = true := by
  decide +kernel
theorem witness_FaultReportsComplete :
    (meets cmdFaultSummary (ask cmdFaultSummary []) (up) (fun _ _ => true)) &&
    (meets cmdFaultRead (ask cmdFaultRead [0x1F, 0, 1]) (up) (fun t r => let k := r.u 0 2;
      decide (sourceDefined k = true) && decide (t.mayReadSrc r.part k = true))) &&
    (meets cmdLogRead (ask cmdLogRead [0, 0, 0, 0, 1] (n := 32)) (up) (fun _ r => decide (32 * r.u 4 2 ≤ r.bulkLen))) = true := by
  decide +kernel
theorem witness_FaultCommandsComplete :
    (meets cmdFaultClear (ask cmdFaultClear [0x20]) (up.modRec 0x20 fun x => { x with st := .fault }) (fun t r => let k := r.u 0 2;
      decide (sourceDefined k = true) && decide (r.part = 0) && decide (0x20 ≤ k) && decide (k ≠ 0x72) &&
      decide (k ≠ 0x73) && decide ((t.frec k).st = .fault) && decide ((t.frec k).current = false))) &&
    (meets cmdFaultRequalify (ask cmdFaultRequalify [31, 0, 4]) (up.modChan 31 fun x => { x with st := .retired }) (fun t r => let c := r.u 0 2;
      decide (c < 0x20) && decide (r.u 2 1 ≤ 4) && decide (t.mayOperate r.part .chan c = true) &&
      decide ((t.longs.any fun l => l.code = 0x803 && l.res = c) = false) && decide (t.chanInUse c = false) &&
      decide ((t.chan c).st = .retired) && decide (t.admitOpen c = 0))) &&
    (meets cmdFaultRequalify (ask cmdFaultRequalify [0x73]) ({ up with dev := { up.dev with unitsOk := (true, false) } }) (fun t r => let u := r.u 0 2;
      decide ((u = 0x72 ∨ u = 0x73)) && decide (r.u 2 1 = 0) && decide (r.part = 0) &&
      decide ((t.longs.any fun l => l.code = 0x803 && l.res = u) = false) && decide (t.unitOk (u % 2) = false))) &&
    (meets cmdFaultInject (ask cmdFaultInject [0x27, 0, 1, 0, 7]) (up) (fun t r => let k := r.u 0 2;
      decide (sourceDefined k = true) && decide (k ≤ 0x15F) &&
      decide ((checkCase k (r.u 2 1) = true ∨ 5 ≤ r.u 2 1)) &&
      decide ((checkCase k (r.u 2 1) = true → (k = 0x27 → 1 ≤ r.u 4 1 ∧ r.u 4 1 ≤ 7) ∧ (k = 0x20 ∨ k = 0x21 → r.u 4 1 ≤ 15))) &&
      decide (r.part = 0) && decide (t.fc.inject = none))) &&
    (meets cmdFaultPinRelease (ask cmdFaultPinRelease []) (up) (fun t r => decide (r.part = 0) &&
      decide (t.pinForce = false))) = true := by
  decide +kernel
theorem witness_BootCommandsComplete :
    (meets cmdBootStatus (ask cmdBootStatus []) (up) (fun _ _ => true)) &&
    (meets cmdBootRecords (ask cmdBootRecords [64] (n := 2048)) (up) (fun _ r => let n := r.u 0 1; decide (1 ≤ n) &&
      decide (n ≤ 64) && decide (32 * n ≤ r.bulkLen))) &&
    (meets cmdFwLoad (ask cmdFwLoad [2] (n := 512)) (up) (fun t r => let n := r.u 0 1; decide ((n = 1 ∨ n = 2)) &&
      decide (r.part = 0) && decide (t.loading = false) && decide (t.dev.runSlot ≠ n) && decide (512 ≤ r.bulkLen) &&
      decide (t.poisoned (t.bulkBase r.part + r.bulkOff) r.bulkLen = false) &&
      decide (512 + rd (t.bulkIn r) 12 4 ≤ r.bulkLen))) &&
    (meets cmdFwSelect (ask cmdFwSelect [2]) ({ up with dev := { up.dev with resultB := 0 } }) (fun t r => let n := r.u 0 1;
      decide ((n = 1 ∨ n = 2)) && decide (r.part = 0) &&
      decide ((if n = 1 then t.dev.resultA else t.dev.resultB) = 0) &&
      decide ((t.keep.writing.any fun w => w.1 = n) = false))) &&
    (meets cmdBootClearFailures (ask cmdBootClearFailures []) (up) (fun _ r => decide (r.part = 0))) &&
    (meets cmdDevRestart (ask cmdDevRestart [2, 1]) (up) (fun t r => let n := r.u 0 1; decide (n ≤ 2) &&
      decide (r.part = 0) && decide (t.loading = false))) = true := by
  decide +kernel
theorem witness_AgeAndBudgetCommandsComplete :
    (meets cmdBudgetStatus (ask cmdBudgetStatus [1]) (up) (fun _ r => decide ((bitOf (r.u 0 1) 0 = true → r.part = 0)))) &&
    (meets cmdAgeReport (ask cmdAgeReport [] (n := 1712)) (up) (fun _ r => decide (1712 ≤ r.bulkLen))) &&
    (meets cmdAgeHistory (ask cmdAgeHistory [1, 0, 1] (n := 32)) (up) (fun t r => decide (r.u 0 1 ≤ 1) &&
      decide (32 * r.u 2 2 ≤ r.bulkLen) && let xs := (if r.u 0 1 = 0 then t.keep.daily else t.keep.long); true)) &&
    (meets cmdAgeClearHist (ask cmdAgeClearHist [31]) (up.modChan 31 fun x => { x with st := .opened }) (fun t r => let c := r.u 0 1;
      decide (c ≤ 31) && decide (t.mayOperate r.part .chan c = true) && decide (t.retired c = false) &&
      decide (t.chanInUse c = false) && decide ((t.chan c).st ≠ .closed))) = true := by
  decide +kernel
theorem witness_CoordinateRowsComplete :
    (let n : Fin 4 := 3; decide (0 < enc.par K.lcCntNum n)) &&
    (let t := (enc).elapse 0; let e : EncEdge := { up := true, both := false, speed := 0, accel := 0 };
      let n : Fin 4 := 3; decide (t.par K.lcSource n = 1) && decide ((t.lc n).started = true) &&
      decide (e.both = false) && decide (0 < (t.lc n).inAt → (t.lc n).inAt + 39 ≤ t.now)) &&
    (let t := ((late enc).modLc 3 fun l => { l with inAt := (late enc).now - 39 }).elapse 0; let n : Fin 4 := 3;
      decide (0 < (t.lc n).inAt) && decide ((t.lc n).inAt + 39 ≤ t.now)) &&
    (let t := ((late enc).modLc 3 fun l => { l with inAt := (late enc).now - 38 }).elapse 0; let n : Fin 4 := 3;
      decide (t.par K.lcSource n = 1) && decide ((t.lc n).started = true) && decide (0 < (t.lc n).inAt) &&
      decide (t.now < (t.lc n).inAt + 39)) &&
    (let t := (late (enc)).elapse 0; let n : Fin 4 := 3; decide (t.par K.lcSource n = 1) &&
      decide ((t.lc n).started = true) && decide ((t.lc n).edgeAt + 1000 * t.par K.lcStandstillTime n ≤ t.now)) &&
    (let t := ((up.setPar K.lcSource 3 2).modLc 3 fun l => { l with set := some (1, 0, 5) }).elapse 0;
      decide (t.par K.lcSource 3 = 2) && decide ((t.lc 3).setIndex = some 5)) &&
    (let t := ((ssi (.track) (none))).elapse 0; let n : Fin 4 := 3; decide ((t.lc n).setIndex = none) &&
      decide ((t.lc n).started = true) && decide (t.par K.lcSource n = 2)) &&
    (let t := (pulsing).elapse 0; let n : Fin 4 := 3; decide ((t.lc n).setIndex = none) &&
      decide (t.par K.lcSource n = 3)) &&
    (let t := (pulsing.modLc 3 fun l => { l with set := some (1, 0, 5) }).elapse 0; let n : Fin 4 := 3;
      decide ((t.lc n).setIndex = some 5) && decide (t.par K.lcSource n = 3)) &&
    (let t := (late ((pulsing))).elapse 0; let n : Fin 4 := 3;
      (t.turnTime n).any fun w => decide (t.par K.lcSource n = 3) && decide ((t.lc n).st = .track) &&
      decide ((t.lc n).pulseAt + w ≤ t.now) && decide (t.pulseOff n = true)) &&
    (let t := ((ssi (.track) (none))).elapse 0; let x : SsiRead := word false; let n : Fin 4 := 3;
      decide (t.par K.lcSource n = 2) && decide ((t.lc n).started = true) && decide (x.startHigh = false)) &&
    (let t := ((ssi (.track) (none)).setPar K.lcSsiParity 3 2).elapse 0; let x : SsiRead := word true;
      let n : Fin 4 := 3; decide (t.par K.lcSource n = 2) && decide ((t.lc n).started = true) &&
      decide (t.ssiParityOk n x = false)) &&
    (let t := ((ssi (.acquire) (some 0x1000000))).elapse 0; let x : SsiRead := word true; let n : Fin 4 := 3;
      decide (t.par K.lcSource n = 2) && decide ((t.lc n).started = true) &&
      decide (t.ssiFast n (t.ssiCode n x.bits.toNat) = true)) &&
    (let t := ((ssi (.holdover) (none)).setPar K.lcSsiParity 3 1).elapse 0; let x : SsiRead := word true;
      let n : Fin 4 := 3; decide (t.par K.lcSource n = 2) && decide ((t.lc n).started = true) &&
      decide (x.startHigh = true) && decide (t.ssiParityOk n x = true) &&
      decide (t.ssiFast n (t.ssiCode n x.bits.toNat) = false)) &&
    (let t := ((ssi (.track) (some 6))).elapse 0; let x : SsiRead := word true; let n : Fin 4 := 3;
      decide (t.ssiParityOk n x = true) && decide (t.ssiFast n (t.ssiCode n x.bits.toNat) = false)) &&
    (let t := (late ((pulsing))).elapse 0; let n : Fin 4 := 3; decide (3 ≤ t.par K.lcSource n) &&
      decide ((t.lc n).st = .track) && decide ((t.lc n).telAt + 1000 * t.par K.lcTelTimeout n ≤ t.now)) &&
    (let t := (late ((up.modLc 3 fun l => { l with st := .holdover }))).elapse 0; let n : Fin 4 := 3;
      decide ((t.lc n).st = .holdover) && decide ((t.lc n).holdAt + 1000 * t.par K.lcHoldover n ≤ t.now)) &&
    (let t := ((ssi (.track) (none))).elapse 0; let n : Fin 4 := 3; decide (2 ≤ t.par K.lcSource n) &&
      decide ((t.lc n).started = true)) = true := by
  decide +kernel
theorem witness_TimeAndLatchRowsComplete :
    (let t := (({ up with clk := { up.clk with slewing := true } } : State)).elapse 0;
      decide (t.clk.slewing = true) && decide (t.clk.slewLeft = 0)) &&
    (let t := ((up.setPar K.latEnable 15 1).setPar K.latWinLc 15 255).elapse 0; let falling : Bool := false;
      let k : Fin 16 := 15; decide (t.dev.mode = .ready) && decide (t.par K.latEnable k = 1) &&
      decide ((t.par K.latEdge k = 0 → falling = false)) && decide ((t.par K.latEdge k = 1 → falling = true)) &&
      decide (t.inCapture k = true) && decide ((t.lat k).fifo.length < 4)) &&
    (let t := (((up.setPar K.latEnable 15 1).setPar K.latWinLc 15 255).modLat 15 fun x => { x with fifo := fullFifo }).elapse 0;
      let falling : Bool := false; let k : Fin 16 := 15; decide (t.dev.mode = .ready) &&
      decide (t.par K.latEnable k = 1) && decide ((t.par K.latEdge k = 0 → falling = false)) &&
      decide ((t.par K.latEdge k = 1 → falling = true)) && decide (t.inCapture k = true) &&
      decide (4 ≤ (t.lat k).fifo.length)) &&
    (let t := ((up.setPar K.latEnable 15 1).setPar K.latWinLc 15 0).elapse 0; let falling : Bool := false;
      let k : Fin 16 := 15; decide (t.dev.mode = .ready) && decide (t.par K.latEnable k = 1) &&
      decide ((t.par K.latEdge k = 0 → falling = false)) && decide ((t.par K.latEdge k = 1 → falling = true)) &&
      decide (t.inCapture k = false)) &&
    (let t := (((up.setPar K.syncMode 3 1).setPar K.syncCount 3 1).modLc 0 fun l => { l with st := .track }).elapse 0;
      let u := t.syncRearm 3; let n := u.par K.syncLc 3;
      let past := u.syncDiff 3 (u.lcVal n + BitVec.ofInt 64 (dispOf (BitVec.ofInt 64 (u.lcSpd n)) 0 (u.par K.syncLead 3))) 0;
      decide (u.dev.mode = .ready) && u.syncPos 3 0 && decide (0 ≤ past) &&
      !((u.sync 3).spent.any fun e => decide (u.syncDiff 3 e.1 0 = 0)) && decide ((u.lc n).st = .track)) &&
    (let t := (((up.setPar K.syncMode 3 1).setPar K.syncCount 3 1).modLc 0 fun l => { l with st := .noSource }).elapse 0;
      let u := t.syncRearm 3; let n := u.par K.syncLc 3;
      let past := u.syncDiff 3 (u.lcVal n + BitVec.ofInt 64 (dispOf (BitVec.ofInt 64 (u.lcSpd n)) 0 (u.par K.syncLead 3))) 0;
      decide (u.dev.mode = .ready) && u.syncPos 3 0 && decide (0 ≤ past) &&
      !((u.sync 3).spent.any fun e => decide (u.syncDiff 3 e.1 0 = 0)) && decide ((u.lc n).st = .noSource)) &&
    (let t := (late ((up.modSync 3 fun x => { x with active := true }))).elapse 0; let k : Fin 4 := 3;
      decide ((t.sync k).active = true) && decide ((t.sync k).until_ ≤ t.now)) = true := by
  decide +kernel
theorem witness_FrameRowsComplete :
    (let t := (opened).elapse 0; let c : Fin 32 := 31; decide (t.dev.mode = .ready) &&
      decide ((t.chan c).st = .opened) && decide ((t.chan c).mode ≠ .loopInt) && decide ((t.chan c).phase = .none)) &&
    (let t := (sending (.test)).elapse 0; let x : TxEnd := txEnd; let c : Fin 32 := 31;
      !t.testing c x.what x.sof && t.underWay c x.what x.sof && decide (((t.chan c).mode = .normal → x.acked = true))) &&
    (let t := (sending (.object 127)).elapse 0; let x : TxEnd := { txEnd with what := .object 127, loop := some 500 };
      let c : Fin 32 := 31; !t.testing c x.what x.sof && t.underWay c x.what x.sof &&
      decide (((t.chan c).mode = .normal → x.acked = true))) &&
    (let t := (testing 0).elapse 0; t.testing 31 txEnd.what txEnd.sof) &&
    (let t := (sending (.object 127)).elapse 0; t.underWay 31 (.object 127) 0) &&
    (let t := (sending (.test)).elapse 0; t.underWay 31 .test 0) &&
    (let t := (opened).elapse 0; let x : BusErr := busErr (none); let c : Fin 32 := 31; decide (x.attempt = none) &&
      decide (t.dev.mode = .ready) && decide ((t.chan c).st = .opened) && decide ((t.chan c).mode ≠ .loopInt) &&
      decide ((t.chan c).phase = .none)) &&
    (let t := (sending (.test)).elapse 0; let x : BusErr := busErr (some .test); let c : Fin 32 := 31;
      decide (x.attempt = some .test) && t.underWay c .test x.sof) &&
    (let t := (sending (.object 127)).elapse 0; let x : BusErr := busErr (some (.object 127)); let c : Fin 32 := 31;
      decide (x.attempt = some (.object 127)) && t.underWay c (.object 127) x.sof) &&
    (let t := (opened).elapse 0; let c : Fin 32 := 31; decide (t.engCfg c K.chanPex = 0)) &&
    (let t := (opened.setPar K.chanPex 31 1).elapse 0; let c : Fin 32 := 31; decide (t.dev.mode = .ready) &&
      decide ((t.chan c).st = .opened) && decide ((t.chan c).mode ≠ .loopInt) && decide ((t.chan c).phase = .none) &&
      decide (t.engCfg c K.chanPex = 1)) = true := by
  decide +kernel
theorem witness_ChannelStateRowsComplete :
    (let t := (late ((opened.modErr 31 fun e => { e with st := .busOffHeld }))).elapse 0; let c : Fin 32 := 31;
      decide ((t.chan c).err.st = .busOffHeld) && decide ((t.chan c).st = .opened) &&
      decide (t.par K.chanBoffRecovery c = 0) &&
      decide ((t.chan c).err.offTimes.headD 0 + 1000000 * t.par K.chanBoffDelay c ≤ t.now)) &&
    (let t := (opened.modErr 31 fun e => { e with st := .busOff }).elapse 0; let c : Fin 32 := 31;
      decide ((t.chan c).err.st = .busOff) && decide ((t.chan c).st = .opened)) &&
    (let t := (late ((opened.modErr 31 fun e => { e with ackErr := true }))).elapse 0; let c : Fin 32 := 31;
      decide (t.dev.mode = .ready) && decide ((t.chan c).st = .opened) && decide ((t.chan c).mode = .normal) && decide ((t.chan c).phase = .none) &&
      decide ((t.chan c).err.lone = false) && decide ((t.chan c).err.ackErr = true) &&
      decide ((t.chan c).err.heardAt + 1000000 * t.par K.chanLoneTime c ≤ t.now)) &&
    (let t := (late ((opened.modErr 31 fun e => { e with lone := true }))).elapse 0; let c : Fin 32 := 31;
      decide ((t.chan c).err.lone = true) && decide (t.probeRequest c = none) && decide (t.canSend c = true) &&
      decide ((t.chan c).txNow = none) &&
      decide ((t.chan c).err.probeAt + 1000000 * t.par K.chanLoneProbe c ≤ t.now) &&
      decide (t.mayStart (t.schedHome c) t.clk.time ((t.cfg c).frameTime (kindNat (lowestKind (t.par K.chanFormats c))) true 1 false) = true)) &&
    (let t := (late ((((opened.modErr 31 fun e => { e with lone := true }).setPar K.objDir 4095 2).modObj 31 127 fun o => { o with pending := true }))).elapse 0;
      let u := t.checkBuffer 31 127; decide (t.probeRequest 31 = some (31, 127)) &&
      decide (u.probeRequest 31 = some (31, 127)) && decide (31 = u.homeOf 31 127) && (t.chan 31).err.lone &&
      (u.chan 31).err.lone && u.canSend 31 && decide ((u.chan 31).txNow = none) &&
      decide ((u.chan 31).err.probeAt + 1000000 * u.par K.chanLoneProbe 31 ≤ u.now) &&
      u.mayStart (u.schedHome 31) u.clk.time (u.objDuration 31 127)) &&
    (let t := (late opened).elapse 0; let c : Fin 32 := 31; let low : Nat := 1000000 * t.par K.chanStuckTime c;
      decide (t.dev.mode = .ready) && decide ((t.chan c).st = .opened) && decide (1000000 * t.par K.chanStuckTime c ≤ low) &&
      decide ((t.chan c).openAt + 1000000 * t.par K.chanStuckTime c ≤ t.now) &&
      decide ((t.par K.chanTwin (c - c % 2) ≠ 1 ∨ (t.chan (partner c)).st = .retired))) &&
    (let t := (late (opened.setPar K.chanTwin 30 1)).elapse 0; let c : Fin 32 := 31;
      let low : Nat := 1000000 * t.par K.chanStuckTime c; decide (t.dev.mode = .ready) &&
      decide ((t.chan c).st = .opened) && decide (1000000 * t.par K.chanStuckTime c ≤ low) &&
      decide ((t.chan c).openAt + 1000000 * t.par K.chanStuckTime c ≤ t.now) && decide (t.par K.chanTwin (c - c % 2) = 1) &&
      decide ((t.chan (partner c)).st ≠ .retired)) &&
    (let t := (late (opened)).elapse 0; let c : Fin 32 := 31; decide (t.dev.mode = .ready) &&
      decide ((t.chan c).st = .opened) && let e := (t.chan c).err; let w := 1000000 * t.par K.chanTdcWindow c;
      decide (e.winAt + w ≤ t.now)) &&
    (let t := (up).elapse 0; decide (t.dev.mode = .ready)) &&
    (let t := (opened.modErr 31 fun e => { e with causes := [4] }).elapse 0; let c : Fin 32 := 31;
      decide ((t.chan c).err.causes.isEmpty = false) && decide ((t.chan c).st ≠ .retired) &&
      decide ((t.chan c).txNow = none)) &&
    (let t := (opened.modErr 31 fun e => { e with handTick := true }).elapse 0; let c : Fin 32 := 31;
      decide ((t.chan c).err.handTick = true)) &&
    (let t := (opened.modChan 31 fun x => { x with wantSleep := true }).elapse 0; let c : Fin 32 := 31;
      decide ((t.chan c).wantSleep = true) && decide ((t.chan c).st = .opened) && decide ((t.chan c).txNow = none)) &&
    (let t := ({ (up.modChan 31 fun x => { x with st := .sleep }) with clk := { up.clk with time := 1000000000 } }).elapse 0;
      let fell : W64 := 0; let c : Fin 32 := 31; decide (t.dev.mode = .ready) && decide ((t.chan c).st = .sleep) &&
      decide (1000 * (t.par K.chanWakeFilter c : Int) ≤ (t.clk.time - fell).toInt)) &&
    (let t := (late ((up.modChan 31 fun x => { x with phase := .releasing }))).elapse 0; let c : Fin 32 := 31;
      decide ((t.chan c).phase = .releasing) && decide ((t.chan c).phaseAt + 1000 * t.par K.chanWakeTime c ≤ t.now)) &&
    (let t := (up.modChan 31 fun x => { x with phase := .integrating }).elapse 0; let c : Fin 32 := 31;
      decide ((t.chan c).phase = .integrating)) &&
    (let t := (late ({ (up.modChan 31 fun x => { x with phase := .integrating }) with longs := [longOf 0x100 31] })).elapse 0;
      let c : Fin 32 := 31; ((t.longs.find? fun l => l.code = 0x100 &&
      l.res = c.val)).any fun l => decide (((t.chan c).phase = .releasing ∨ (t.chan c).phase = .integrating)) &&
      decide ((t.chan c).phaseAt + 100000000 ≤ t.now)) &&
    (let t := (opened).elapse 0; let c : Fin 32 := 31; decide ((t.chan c).st = .opened) &&
      decide ((t.chan c).txNow = none)) &&
    (let t := (opened.modChan 31 fun x => { x with timingDue := some 0 }).elapse 0; let c : Fin 32 := 31;
      ((t.chan c).timingDue).any fun n => decide ((t.chan c).txNow = none)) &&
    (let t := (opened.modChan 31 fun x => { x with spMoveDue := true }).elapse 0; let c : Fin 32 := 31;
      decide ((t.chan c).spMoveDue = true) && decide ((t.chan c).st = .opened) && decide ((t.chan c).txNow = none) &&
      let a := (t.chan c).age; true) = true := by
  decide +kernel
theorem witness_ScheduleRowsComplete :
    (let t := (sched fun r => { r with armed := some arm0 }).elapse 0; let c : Fin 32 := 31;
      ((t.chan c).sched).any fun d => ((t.chan c).rt.armed).any fun x => decide (x.fixed = false)) &&
    (let t := ((sched fun r => { r with flying := some { arm0 with target := some 0 } }).elapse 0).schedHush 31; let sof : W64 := 0;
      let c : Fin 32 := 31;
      ((t.chan c).sched).any fun d => ((t.chan c).rt.flying).any fun x => decide (x.started = false) &&
      decide ((0 < ahead x.back (startLimit x) (t.schedPosAt d sof) ∨ x.target = some sof)) &&
      decide ((t.chan c).passDue = none) && decide (t.canSend (t.engineOf c) = true) &&
      decide ((t.chan c).rt.st ≠ .suspended) &&
      decide ((t.chan (t.engineOf c)).txNow = none)) &&
    (let t := ((sched fun r => { r with armed := some { arm0 with target := some 0 } }).elapse 0).schedHush 31; let sof : W64 := 0;
      let c : Fin 32 := 31; ((t.chan c).sched).any fun d => decide ((t.chan c).rt.flying = none) &&
      ((t.chan c).rt.armed).any fun x => (x.target).any fun at_ => decide (0 ≤ (busTime sof - at_).toInt) &&
      decide ((0 < ahead x.back (startLimit x) (t.schedPosAt d sof) ∨ x.target = some sof)) &&
      decide ((t.chan c).passDue = none) && decide (t.canSend (t.engineOf c) = true) &&
      decide ((t.chan c).rt.st ≠ .suspended) &&
      decide ((t.chan (t.engineOf c)).txNow = none)) &&
    (let t := (sched fun r => { r with armed := some { arm0 with arm := some armMsg } }).elapse 0; let sof : W64 := 0;
      let c : Fin 32 := 31; ((t.chan c).rt.armed).any fun x => (x.arm).any fun a => (a.target).any fun at_ =>
      decide (a.spent = false) && decide (0 ≤ (busTime sof - at_).toInt) &&
      decide (16 * (sof - at_).toInt ≤ ((t.engCfg c).bitA + 320 : Int)) && decide (t.canSend (t.engineOf c) = true) &&
      decide ((t.chan c).rt.st ≠ .suspended) && decide ((t.chan (t.engineOf c)).txNow = none) &&
      decide ((t.chan c).passDue = none)) &&
    (let t := (sched fun r => { r with armed := some { arm0 with arm := some armMsg } }).elapse 0;
      let sof : Option W64 := some 1000000; let c : Fin 32 := 31; ((t.chan c).rt.armed).any fun x => (x.arm).any fun a =>
      (a.target).any fun at_ => decide (a.spent = false) && decide (0 ≤ (busTime (sof.getD t.clk.time) - at_).toInt) &&
      decide (((t.engCfg c).bitA + 320 : Int) < 16 * (sof.getD t.clk.time - at_).toInt)) &&
    (let t := ((opened.modChan 31 fun x => { x with sched := some { basic with kind := 0, cycle := 1000 }, rt := { x.rt with st := .running, last := none, cycleAt := 0 } })).elapse 0;
      let readbackOk : Bool := true; let started : Bool := true; let c : Fin 32 := 31;
      ((t.chan c).sched).any fun d => let r := (t.chan c).rt;
      let due := (if r.last.isNone then r.cycleAt else r.cycleAt + BitVec.ofNat 64 d.cycle);
      decide (d.angle = false) && decide (r.st ≠ .idle) && decide (0 ≤ (t.clk.time - due).toInt) &&
      let ok := (started && readbackOk && t.canSend (t.engineOf c) && (t.chan (t.engineOf c)).txNow.isNone && (t.chan c).passDue.isNone);
      ok) &&
    (let t := ((opened.modChan 31 fun x => { x with sched := some { basic with kind := 0, cycle := 1000 }, rt := { x.rt with st := .running, last := some 5, cycleAt := -1000 } })).elapse 0;
      let c : Fin 32 := 31; ((t.chan c).sched).any fun d => let r := (t.chan c).rt; decide (d.angle = false) &&
      decide (r.st ≠ .idle) && decide (r.last.isNone = false) &&
      decide (0 ≤ (t.clk.time - (r.cycleAt + BitVec.ofNat 64 d.cycle)).toInt)) &&
    (let t := (late ((sched fun r => { r with repMissed := 1 }))).elapse 0; let c : Fin 32 := 31;
      let r := (t.chan c).rt; decide ((r.repMissed ≠ 0 ∨ r.repBlocked ≠ 0)) &&
      decide ((r.reportAt = 0 ∨ r.reportAt + 1000000 * t.par K.schedReportInterval 0 ≤ t.now))) &&
    (let t := (sched fun r => { r with st := .idle }).elapse 0; let c : Fin 32 := 31;
      ((t.chan c).sched).any fun d => decide (t.inWindow c (t.schedPos d) = false)) = true := by
  decide +kernel
theorem witness_QueueRowsComplete :
    (let t := (up.modQueue 63 fun x => { x with isOpen := true }).elapse 0; let q : Fin 64 := 63;
      let w : Via := ⟨.pa, 0⟩; decide (t.reaches w = true) && decide (t.dev.mode = .ready) &&
      decide ((t.part w.part).resetting = none) && decide ((t.queue q).isOpen = true) &&
      decide (t.par K.qOwner q = w.part.val) && decide (t.par K.qDir q = 0)) &&
    (let t := ((up.setPar K.qDir 63 1).modQueue 63 fun x => { x with isOpen := true }).elapse 0; let q : Fin 64 := 63;
      let w : Via := ⟨.pa, 0⟩; decide (t.reaches w = true) && decide (t.dev.mode = .ready) &&
      decide ((t.part w.part).resetting = none) && decide ((t.queue q).isOpen = true) &&
      decide (t.par K.qOwner q = w.part.val) && decide (t.par K.qDir q ≠ 0)) &&
    (goodHeld (up.setPar K.objDir 4095 2) 0x201 4095 (zs 8)) &&
    (goodHeld (up.setPar K.objDir 4095 2) 0x202 4095 ([])) &&
    (goodHeld (up.modChan 31 fun x => { x with sigs := sigs }) 0x501 0 ((le 4 9 ++ zs 12))) &&
    (goodHeld ((up.setPar K.axChan 127 31).setPar K.axObj 127 127) 0x601 127 (zs 16)) &&
    (goodHeld ((up.setPar K.axChan 127 31).setPar K.axObj 127 127) 0x602 127 ((1 :: zs 31))) &&
    (goodHeld (up) 0x301 0 (zs 32)) &&
    (let t := (late ((up.modQueue 63 fun x => { x with timer := some 0 }))).elapse 0; let q : Fin 64 := 63;
      ((t.queue q).timer).any fun t0 => decide (t0 + 1000 * t.par K.qReadTimeout q ≤ t.now)) &&
    (let t := (late (up)).elapse 0; decide (t.dev.mode = .ready) && decide (t.dev.tick < t.tickAt)) &&
    (let t := (up).elapse 0; t.live) &&
    (let t := (late (up)).elapse 0; t.live &&
      decide (t.store.scrubAt + 1000000000 * t.par K.storeScrubPeriod 0 ≤ t.now)) = true := by
  decide +kernel
theorem witness_FaultRowsComplete :
    (let t := (up).elapse 0; let k : Fin 512 := 0x24; decide (sourceDefined k = true) && decide (t.dev.mode ≠ .held)) &&
    (let t := (up).elapse 0; let k : Fin 512 := 0x27; decide (sourceDefined k = true) && decide (t.dev.mode ≠ .held)) &&
    (let t := ({ up with fc := { up.fc with raised := [{ src := 0x24, sub := 1, cls := 0, detail := 0, persists := false, owner := 0 }] } }).elapse 0;
      let k : Fin 512 := 0x24; decide (sourceDefined k = true) && decide (t.dev.mode ≠ .held) &&
      (t.fc.raised.find? (fun r => r.src = k.val)).any fun x => true) &&
    (let t := (up).elapse 0; let k : Fin 512 := 0x24; decide (sourceDefined k = true) && decide (t.dev.mode ≠ .held)) &&
    (let t := (up.modRec 0x24 fun y => { y with current := true }).elapse 0; let k : Fin 512 := 0x24;
      decide ((t.frec k).current = true) && decide ((t.fc.conds.any fun c => decide (c.1 = k.val)) = false)) &&
    (let t := (late ((up.modRec 0x24 fun y => { y with st := .grace }))).elapse 0; let k : Fin 512 := 0x24;
      let x := t.frec k; decide (x.st = .grace) && decide (x.graceAt + 1000 * t.par K.faultGrace k ≤ t.now)) &&
    (let t := (late ((up.modRec 0x24 fun y => { y with st := .fault }))).elapse 0; let k : Fin 512 := 0x24;
      decide ((t.frec k).st = .fault) && decide ((t.frec k).cls < 2) && decide ((t.frec k).current = false) &&
      decide ((t.frec k).quietAt + 1000000 * t.par K.faultQuietTime 0 ≤ t.now)) &&
    (let t := ({ up with fc := { up.fc with chipDue := true } }).elapse 0; decide (t.fc.chipDue = true)) &&
    (let t := (late (up)).elapse 0; decide (t.dev.mode = .ready) && decide (t.fc.aliveMiss = false) &&
      decide (t.fc.renewAt + 2000000 ≤ t.now)) &&
    (let t := ({ up with fc := { up.fc with inject := some (0x24, 6, 0, 0, 0) } }).elapse 0;
      (t.fc.inject).any fun (src, pat, mask, idx, t0) => decide (checkCase src pat = false)) &&
    (let t := ({ up with fc := { up.fc with inject := some (0x27, 1, 0, 0, 0) } }).elapse 0;
      (t.fc.inject).any fun (src, pat, mask, idx, t0) => decide (checkCase src pat = true)) &&
    (let t := (late (({ up with fc := { up.fc with inject := some (0x24, 6, 0, 0, 0) } }))).elapse 0;
      (t.fc.inject).any fun (src, pat, mask, idx, t0) => decide (t0 + 10000000 ≤ t.now)) &&
    (let t := (testing 0).elapse 0; let s := ((testing (t.testCount 31)).elapse 0).testRest 31 0xFFFF 0xFFFF; let c : Fin 32 := 31;
      ((s.longs.find? fun l => l.code = 0x803 && l.res = c.val)).any fun l => decide (s.now < l.t0 + 1000000000) &&
      decide ((s.chan c).st = .retired) && decide ((s.chan c).passDue = none) && decide ((s.chan c).phase = .testing) &&
      ((s.chan c).test).any fun r => decide (r.sent = s.testCount c) && decide (r.bad = false)) &&
    (let t := ((testing 0).elapse 0).testRest 31 1 100; let c : Fin 32 := 31;
      ((t.longs.find? fun l => l.code = 0x803 && l.res = c.val)).any fun l => decide (t.now < l.t0 + 1000000000) &&
      decide ((t.chan c).st = .retired) && decide ((t.chan c).passDue = none) && t.testEnds c 4 && t.testEnds c 5 &&
      decide ((t.chan c).testLoops = (1, 100))) &&
    (let t := (late (testing 0)).elapse 0; let t := { t with longs := [{ longOf 0x803 31 with t0 := t.now }] };
      let t := (t.modChan 31 fun x => { x with phase := .integrating }).testRest 31 1 100; let c : Fin 32 := 31;
      ((t.longs.find? fun l => l.code = 0x803 && l.res = c.val)).any fun l => decide (t.now < l.t0 + 1000000000) &&
      decide ((t.chan c).st = .retired) && decide ((t.chan c).passDue = none) && t.testEnds c 3) &&
    (let t := (late (testing 0)).elapse 0; let c : Fin 32 := 31;
      ((t.longs.find? fun l => l.code = 0x803 && l.res = c.val)).any fun l => decide (l.t0 + 1000000000 ≤ t.now) &&
      decide ((t.chan c).passDue = none)) &&
    (let t := ({ up with longs := [longOf 0x803 0x73] }).elapse 0; let u : Fin 2 := 1;
      ((t.longs.find? fun l => l.code = 0x803 && l.res = 0x72 + u.val)).any fun l =>
      decide (t.now < l.t0 + 1000000000)) = true := by
  decide +kernel
theorem witness_PowerAndStartRowsComplete :
    (let t := (State.reset).elapse 0; decide (t.dev.porst = false)) &&
    (let t := (up).elapse 0; decide (t.dev.porst = true)) &&
    (let t := ({ up with dev := { up.dev with restartAt := some 0 } }).elapse 0; decide (t.dev.mode ≠ .held) &&
      (t.resetOrigin).any fun x => true) &&
    (let t := (late ({ up with dev := { up.dev with mode := .boot }, keep := { up.keep with isOpen := true } })).elapse 0;
      decide (t.starting = true) && decide (2000000000 ≤ t.now)) &&
    (let t := ({ up with dev := { up.dev with mode := .boot }, keep := { up.keep with isOpen := true } }).elapse 0;
      decide (t.starting = true)) &&
    (let t := (up).elapse 0; decide ((t.dev.mode = .ready ∨ t.dev.mode = .rusk))) &&
    (let t := ({ up with keep := { up.keep with writing := some (2, image) } }).elapse 0;
      (t.keep.writing).any fun (n, f) => let d := (if n = 1 then { t.dev with resultA := 0 } else { t.dev with resultB := 0 });
      true) &&
    (let t := ({ up with keep := { up.keep with writing := some (2, image) }, longs := [longOf 0x902 2] }).elapse 0;
      t.keep.writing.isSome && (t.longs.find? fun l => l.code = 0x902).isSome) &&
    (let t := (late (up)).elapse 0; decide (t.dev.mode = .ready) && decide ((t.budget.mark + 1) * 1000000 ≤ t.now)) = true := by
  decide +kernel
theorem witness_AgeRowsComplete :
    (let t := (late (up)).elapse 0; decide (t.dev.mode = .ready) && !t.supHeld && decide (t.age.sampleAt + 1000000 ≤ t.now) &&
      let below := (fun v => decide (2 * v < (t.par K.ageCoreGuard 0 : Int))); true) &&
    (let t := (up).elapse 0; decide (t.dev.mode = .ready)) &&
    (let t := (late (up)).elapse 0; decide (t.dev.mode = .ready) && !t.supHeld &&
      decide (t.age.planAt + 1000000000 * t.par K.agePlanPeriod 0 ≤ t.now) &&
      let u := (if t.age.slackPer.isEmpty then t else t.lowSlack t.age.slackPer fun x => decide (x < (t.par K.ageCoreGuard 0 : Int)));
      true) &&
    (let t := (late (up)).elapse 0; decide (t.dev.mode = .ready) && !t.supHeld &&
      decide (t.age.sumAt + 3600000000000 * t.par K.ageSummaryPeriod 0 ≤ t.now) &&
      let u := subjects.foldl (fun y x => y.histDaily (t.summary x.1 x.2)) t;
      let v := { u with keep := { u.keep with summaries := t.keep.summaries + 1 } };
      let w := (List.range 32).foldl State.takeDrift (if (t.keep.summaries + 1) % 30 = 0 then subjects.foldl (fun y x => y.histLong (v.longRecord x.1 x.2)) v else v);
      true) &&
    (let t := (late (up)).elapse 0; decide (t.dev.mode = .ready) && !t.supHeld &&
      decide (t.age.ksAt + 3600000000000 * t.par K.ageKsScan 0 ≤ t.now)) = true := by
  decide +kernel
theorem witness_ManagementReadsComplete :
    (let t := (up).elapse 0; decide (t.dev.mode ≠ .held)) &&
    (let t := (up).elapse 0; decide (t.dev.mode ≠ .held)) &&
    (let t := (up).elapse 0; decide (t.dev.mode ≠ .held)) &&
    (let t := (up).elapse 0; decide (t.dev.mode ≠ .held)) &&
    (let t := (up).elapse 0; decide (t.dev.mode ≠ .held)) &&
    (let t := (up).elapse 0; decide (t.dev.mode ≠ .held)) &&
    (let t := (up).elapse 0; decide (t.dev.mode ≠ .held) && decide (t.dev.mode ≠ .rusk)) &&
    (let t := ({ up with dev := { up.dev with mode := .rusk } }).elapse 0; decide (t.dev.mode = .rusk)) &&
    (let t := ({ up with keep := { up.keep with log := [logRec] } }).elapse 0; decide (t.dev.mode ≠ .held) &&
      (t.keep.log.getLast?).any fun r => true) &&
    (let t := (up).elapse 0; decide (t.dev.mode ≠ .held) && decide (t.keep.log = [])) &&
    (let t := ({ up with keep := { up.keep with log := [logRec] }, fc := { up.fc with mgLast := some 5 } }).elapse 0;
      decide (t.dev.mode ≠ .held) &&
      (t.fc.mgLast).any fun k => (t.keep.log.find? (fun x => x.seq + 1 = k)).any fun r => true) &&
    (let t := up.elapse 0; decide (t.dev.mode ≠ .held) && decide (t.fc.mgLast = none)) &&
    (let t := ({ up with fc := { up.fc with alert := true } }).elapse 0; decide (t.dev.mode ≠ .held) &&
      decide (t.fc.alert = true) && decide (t.fc.alertAns = false)) &&
    (let t := (up).elapse 0; let wins : Bool := false; decide (t.dev.mode ≠ .held) &&
      decide ((t.fc.alert = false ∨ t.fc.alertAns = true ∨ wins = false))) = true := by
  decide +kernel
theorem witness_HostPortRowsComplete :
    (let t := (up).elapse 0; let w : Via := ⟨.pa, 0⟩; decide (t.reaches w = true)) &&
    (let t := (up).elapse 0; let w : Via := ⟨.pa, 0⟩; decide (t.reaches w = true)) &&
    (let t := (up).elapse 0; let w : Via := ⟨.pa, 0⟩; decide (t.reaches w = true)) &&
    (let t := (up).elapse 0; let w : Via := ⟨.pa, 0⟩; decide (t.reaches w = true)) &&
    (let t := (up).elapse 0; let w : Via := ⟨.pa, 0⟩; decide (t.reaches w = true)) &&
    (let t := (up).elapse 0; let w : Via := ⟨.pa, 0⟩; decide (t.reaches w = true)) &&
    (let t := (up).elapse 0; let bs : List Byte := zs 4; let off : Nat := 0x54; let w : Via := ⟨.pa, 0⟩;
      decide (t.reaches w = true) && decide (portPcie w.port = true) && decide (isReg off = true) &&
      decide (off % 4 = 0) && decide (bs.length = 4)) &&
    (let t := (up).elapse 0; let bs : List Byte := zs 4; let off : Nat := 0x1FFFFFC; let w : Via := ⟨.pa, 0⟩;
      decide (t.reaches w = true) && decide (portPcie w.port = true) && decide (off + bs.length ≤ 0x2000000) &&
      decide (off < 0x2000000)) &&
    (let t := (up).elapse 0; let n : Nat := 4; let off : Nat := 0x1FFFFFC; let w : Via := ⟨.pa, 0⟩;
      decide (t.reaches w = true) && decide (portPcie w.port = true) && decide (off + n ≤ 0x2000000) &&
      decide (off < 0x2000000)) &&
    (let t := (up).elapse 0; let p : Fin 8 := 0; decide (t.served p = true) &&
      decide (portPcie (t.portOf p) = true) && decide (t.portOf p ∉ t.linksDown)) &&
    (let t := (up).elapse 0; let l : Port := .pb; decide (portPcie l = true) && decide (l ∉ t.linksDown)) &&
    (let t := (up).elapse 0; let l : Port := .pb; decide (portPcie l = true) && decide (l ∉ t.linksDown) &&
      decide (t.dev.mode ≠ .held)) &&
    (let t := (late ((up.modPart 7 fun x => { x with hb := .ok }))).elapse 0; let p : Fin 8 := 7;
      decide ((t.part p).hb = .ok) && decide ((t.part p).resetting = none) &&
      decide ((t.part p).hbAt + 500000 * t.par K.partHbTimeout p ≤ t.now)) &&
    (let t := (late ((up.modPart 7 fun x => { x with hb := .late }))).elapse 0; let p : Fin 8 := 7;
      decide (((t.part p).hb = .ok ∨ (t.part p).hb = .late)) && decide ((t.part p).resetting = none) &&
      decide ((t.part p).hbAt + 1000000 * t.par K.partHbTimeout p ≤ t.now) && !(decide (t.par K.partHbFallback p = 2) && t.served (t.par K.partHbTarget p))) &&
    (let t := (late (((up.modPart 7 fun x => { x with hb := .late }).setPar K.partHbFallback 7 2).setPar K.partHbTarget 7 0)).elapse 0;
      let p : Fin 8 := 7; let k := t.par K.partHbTarget p; decide ((t.part p).hb = .late) &&
      decide ((t.part p).resetting = none) && decide ((t.part p).hbAt + 1000000 * t.par K.partHbTimeout p ≤ t.now) &&
      decide (t.par K.partHbFallback p = 2) && t.served k && decide (k ≠ p.val) && decide ((t.part k).hb ≠ .expired)) = true := by
  decide +kernel
theorem witness_ReportsChangeOnlyTheirAnswer :
    (servesAndGoes cmdGetInfo (ask cmdGetInfo []) (up) (.getInfo 0)) &&
    (servesAndGoes cmdPartStatus (ask cmdPartStatus [7]) (up) (.partStatus 0)) &&
    (servesAndGoes cmdRightsList (ask cmdRightsList [1, 0, 31, 0]) (up) (.rightsList 0)) &&
    (servesAndGoes cmdParamLookup (ask cmdParamLookup ("part[p].port".toList.map Char.toNat)) (up) (.paramLookup 0)) &&
    (servesAndGoes cmdEpochStatus (ask cmdEpochStatus []) (up) (.epochStatus 0)) &&
    (servesAndGoes cmdChanStatus (ask cmdChanStatus [31]) (up) (.chanStatus 0)) &&
    (servesAndGoes cmdLcRead (ask cmdLcRead []) (up) (.lcRead 0)) &&
    (servesAndGoes cmdLatStatus (ask cmdLatStatus [15]) (up) (.latStatus 0)) &&
    (servesAndGoes cmdSyncStatus (ask cmdSyncStatus [3]) (up) (.syncStatus 0)) &&
    (servesAndGoes cmdQStatus (ask cmdQStatus [63]) (up) (.qStatus 0)) &&
    (servesAndGoes cmdStoreStatus (ask cmdStoreStatus []) (up) (.storeStatus 0)) &&
    (servesAndGoes cmdFaultSummary (ask cmdFaultSummary []) (up) (.faultSummary 0)) &&
    (servesAndGoes cmdBootStatus (ask cmdBootStatus []) (up) (.bootStatus 0)) = true := by
  decide +kernel
theorem witness_BulkReportsWriteOnlyTheirRange :
    (servesAndGoes cmdAdmitReport (ask cmdAdmitReport [] (n := 1072)) (up) (.admitReport 0)) &&
    (servesAndGoes cmdRuleRead (ask cmdRuleRead [31, 0] (n := 32)) (up) (.ruleRead 0)) &&
    (servesAndGoes cmdSchedRead (ask cmdSchedRead [0] (n := 32)) (up) (.schedRead 0)) &&
    (servesAndGoes cmdSigRead (ask cmdSigRead [0] (n := 32768)) (up) (.sigRead 0)) &&
    (servesAndGoes cmdLogRead (ask cmdLogRead [0, 0, 0, 0, 1] (n := 32)) (up) (.logRead 0)) &&
    (servesAndGoes cmdBootRecords (ask cmdBootRecords [64] (n := 2048)) (up) (.bootRecords 0)) &&
    (servesAndGoes cmdAgeReport (ask cmdAgeReport [] (n := 1712)) (up) (.ageReport 0)) &&
    (servesAndGoes cmdAgeHistory (ask cmdAgeHistory [1, 0, 1] (n := 32)) (up) (.ageHistory 0)) = true := by
  decide +kernel
theorem witness_StagingChangesOnlyTheStage :
    (servesAndGoes cmdChanConfig (ask cmdChanConfig [31]) (up) (.chanConfig 0)) &&
    (servesAndGoes cmdObjDefine (ask cmdObjDefine [31, 0]) (up) (.objDefine 0)) &&
    (servesAndGoes cmdRuleStage (ask cmdRuleStage [31] (n := 32)) (up.storeWrite (up.bulkBase 0) (({ tableId := 5, rules := [] } : RuleList).bytes 31)) (.ruleStage 0)) &&
    (servesAndGoes cmdSchedStage (ask cmdSchedStage [31, 0, 0, 0, 1, 0, 0, 0, 0, 0, 0, 0, 1]) (up) (.schedStage 0)) &&
    (servesAndGoes cmdSchedClear (ask cmdSchedClear [31]) (up) (.schedClear 0)) &&
    (servesAndGoes cmdSigStage (ask cmdSigStage [] (n := 32)) (up.storeWrite (up.bulkBase 0) (mapBytes [(31, SigSet.empty)])) (.sigStage 0)) &&
    (servesAndGoes cmdSigClear (ask cmdSigClear [31]) (up) (.sigClear 0)) &&
    (servesAndGoes cmdAxDefine (ask cmdAxDefine [127, 31, 127, 127, 32]) (up) (.axDefine 0)) &&
    (servesAndGoes cmdStageDiscard (ask cmdStageDiscard []) (up) (.stageDiscard 0)) = true := by
  decide +kernel
theorem witness_ManagementReadsOnlyReport :
    ([Instr.mgId 0, .mgState 0, .mgFaultLo 0, .mgFaultHi 0, .mgLatchedLo 0, .mgLatchedHi 0, .mgMargin 0, .mgLogNewest 0, .mgLogPrev 0, .alertResponse 0 true].all fun i => goes (exec i up)) = true := by
  decide +kernel
theorem witness_RegisterWritesStayInTheirWindow :
    ((up.elapse 0).reaches ⟨.pa, 0⟩) &&
    ([Instr.evtTailWrite 0 ⟨.pa, 0⟩ 0, .apSelect 0 ⟨.pa, 0⟩ 3 0, .irqEnableWrite 0 ⟨.pa, 0⟩ 0x3F, .errCountRead 0 ⟨.pa, 0⟩].all fun i => goes (exec i up)) = true := by
  decide +kernel
theorem witness_RegistersFollowTheirAccessCodes :
    ((up.elapse 0).reaches ⟨.pa, 0⟩ && portPcie .pa && decide ((zs 4).length = 4)) = true := by
  decide +kernel
theorem witness_EventRingKeepsUnreadEvents :
    (up.served 0 && decide (up.dev.mode ≠ .rusk) && Memory.wf up.store.mem && decide ((up.part 0).unread < 1024)) &&
    (let s := up.modPart 0 fun x => { x with evtHead := 1024 }; s.served 0 && decide (s.dev.mode ≠ .rusk) &&
      Memory.wf s.store.mem && decide (1024 ≤ (s.part 0).unread)) = true := by
  decide +kernel
theorem witness_MissedRenewalStopsAlive :
    (let t := (late up).elapse 0; decide (t.dev.mode = .ready) && !t.fc.aliveMiss &&
      decide (t.fc.renewAt + 2000000 ≤ t.now)) &&
    (let s : State := { up with fc := { up.fc with aliveMiss := true } }; s.fc.aliveMiss &&
      decide (s.dev.mode = .ready)) &&
    (goes (exec (.aliveRenewal 0) up) && decide (10 * 199999 < 2000000)) = true := by
  decide +kernel
theorem witness_AlertIsHeldUntilBothMapsAreRead :
    (let s : State := { up with fc := { up.fc with alert := true, alertAns := false, alertHi := false, alertLo := false } };
      let t := s.elapse 0; decide (t.dev.mode ≠ .held) && t.fc.alert &&
      decide (t.fc.alertAns = false ∧ t.fc.alertHi = false ∧ t.fc.alertLo = false)) &&
    (let s : State := { up with fc := { up.fc with alert := true, alertAns := true, alertHi := false, alertLo := true } };
      let t := s.elapse 0; decide (t.dev.mode ≠ .held) && t.fc.alert &&
      decide (t.fc.alertAns = true ∧ t.fc.alertHi = false ∧ t.fc.alertLo = true)) &&
    (let s : State := { up with fc := { up.fc with alert := true, alertAns := true, alertHi := true, alertLo := false } };
      let t := s.elapse 0; decide (t.dev.mode ≠ .held) && t.fc.alert &&
      decide (t.fc.alertAns = true ∧ t.fc.alertHi = true ∧ t.fc.alertLo = false)) = true := by
  decide +kernel
theorem witness_RuskServesSixCommands :
    (heldWith cmdPartStatus id ({ up with dev := { up.dev with mode := .rusk } }) (fun r => !cmdPartStatus.rusk &&
      decide (r.length ≤ 496))) &&
    (let a : Accepted := { acceptedOf 0xFFFF (ask cmdGetInfo []) with code := 0xFFFF };
      let s := up.modPart 7 fun x => { x with accepted := [a] }; decide ((s.part 7).accepted = a :: []) &&
      !knownCode a.code && !s.blocked 7 && !s.ctlHeld && decide (a.rq.length.toNat ≤ 496)) = true := by
  decide +kernel
theorem witness_PowerLossKeepsOnlyTheKeepStore :
    ((up.elapse 0).dev.porst) &&
    (let s : State := { up with keep := { up.keep with writing := some (2, image) } };
      (s.elapse 0).keep.writing.isSome) = true := by
  decide +kernel
/-- A state whose store holds a byte meets the invariant, and its step answers. -/
theorem witness_InvStep :
    (let s : State := { State.reset with store := { State.reset.store with mem := [(5, 1)] } }
     s.Inv ∧ step s = .next s) := by
  exact ⟨⟨by decide +kernel, by decide +kernel, State.reset_parts, by decide +kernel, by decide +kernel⟩, rfl⟩

end Sys2Proof.Tests
end

section
/-! SUPPORT. The commands that stage configuration (R102, R125): the statement that they change their stage only. -/
namespace Sys2Proof.Machine

variable {d : CmdDef} {h : Req → State → Answer} {dt : Nat} {m : Mbox} {r : Req} {s t u : State} {p : Nat}

/-! ### The relation `StageOnly` -/

/-- What is answered does not depend on what is staged, nor on the store. -/
theorem AnswerOnly.over (a : AnswerOnly p s t) (g : Tab Stage 8) (b : Store) :
    AnswerOnly p { s with stages := g, store := b } { t with stages := g, store := b } where
  state := congrArg (fun x : State => { x with stages := g, store := b }) a.state
  others := a.others
  window := a.window

theorem StageOnly.trans (a : StageOnly p s t) (b : StageOnly p t u) : StageOnly p s u where
  answer := a.answer.trans (b.answer.over s.stages s.store)
  stages q hq := (b.stages q hq).trans (a.stages q hq)
  store := by rw [b.store, a.store]
  healed l hl := a.healed l (b.healed l hl)
  others l hc hl := b.others l hc (a.others l hc hl)

theorem AnswerOnly.stageOnly (a : AnswerOnly p s t) : StageOnly p s t := by
  have stages : t.stages = s.stages := by rw [a.state]
  have store : t.store = s.store := by rw [a.state]
  refine ⟨a.over s.stages s.store, fun q _ => ?_, ?_, fun l hl => ?_, fun l _ hl => ?_⟩
  · simp only [State.stage, stages]
  · rw [store]
  · rwa [← store]
  · rwa [store]

theorem State.modStage_stageOnly (f : Stage → Stage) : StageOnly p s (s.modStage p f) where
  answer := (show OnlyTime s s from rfl).answer
  stages _ hq := State.modStage_stage_other _ f hq
  store := rfl
  healed _ hl := hl
  others _ _ hl := hl

/-- Writing staged tables anew heals lanes of the configuration copies and changes nothing else (R125). -/
theorem State.rewriteStaged_stageOnly (tables : List Nat) : StageOnly p s (s.rewriteStaged tables) where
  answer := (show OnlyTime s s from rfl).answer
  stages _ _ := rfl
  store := rfl
  healed _ hl := List.mem_of_mem_filter hl
  others l hc hl := List.mem_filter.mpr ⟨hl, by simp [hc]⟩

theorem State.restage_stageOnly (f : Stage → Stage) : StageOnly p s (s.restage p f) :=
  (State.modStage_stageOnly f).trans (State.rewriteStaged_stageOnly _)

/-! ### The state in which a handler works -/

theorem State.LogOnly.part (k : s.LogOnly t) (q : Nat) : t.part q = s.part q :=
  k.same (·.part q) fun _ _ => rfl

theorem Serves.taken_accepted (hs : Serves d dt m s) :
    ((s.taken d.code dt m).part m.via.part.val).accepted = [] := by
  unfold State.taken
  split
  · rw [State.relayRequest_only.part]
    exact hs.accepted
  · exact hs.accepted

/-! ### Answers that only stage -/

/-- The answer of a handler in state `s` that refuses, or completes having changed the stage of partition `p` only and
taken no other request in hand. -/
def Answer.Stages (p : Nat) (s : State) (x : Answer) : Prop :=
  match x with
  | .refuse _ _ => True
  | .done _ _ t => StageOnly p s t ∧ (t.part p).accepted = (s.part p).accepted
  | .later _ _ => False

theorem Answer.stages_refuse {st detail : Nat} : (Answer.refuse st detail).Stages p s := trivial

theorem Answer.stages_restage {st : Nat} {data : List Byte} (f : Stage → Stage) :
    (Answer.done st data (s.restage p f)).Stages p s := ⟨State.restage_stageOnly f, rfl⟩

/-- A check before the rest of a handler refuses or lets the rest answer. -/
theorem Answer.stages_check {c : Prop} [Decidable c] {st detail : Nat} {x : Answer} (hx : x.Stages p s) :
    (if c then .refuse st detail else x : Answer).Stages p s := by
  split
  · exact Answer.stages_refuse
  · exact hx

/-- A command whose handler only stages. -/
theorem mailbox_stages (hh : ∀ r s, (h r s).Stages r.part s) (hs : Serves d dt m s)
    (e : mailbox d h dt m s = .next u) : StageOnly m.via.part s u := by
  have hp : m.via.part.val < 8 := m.via.part.isLt
  have answer := hh (reqOf d.code m) (s.taken d.code dt m)
  refine mailbox_leaves (R := StageOnly m.via.part s) hs e hs.inHand.stageOnly (fun st data t done => ?_)
    (fun l t later => ?_) (fun t ht => ht.trans State.relayDone_only.answer.stageOnly)
    (fun t st detail data ht => ht.trans (State.respond_answer hp).stageOnly)
  · rw [done] at answer
    obtain ⟨stages, accepted⟩ := answer
    exact ⟨hs.taken.stageOnly.trans stages, accepted.trans hs.taken_accepted⟩
  · rw [later] at answer
    exact answer

/-! ### The handlers -/

theorem hChanConfig_stages (r : Req) (s : State) : (hChanConfig r s).Stages r.part s := by
  refine Answer.stages_check (Answer.stages_check (Answer.stages_check (Answer.stages_check ?_)))
  split
  · exact Answer.stages_refuse
  · exact Answer.stages_check (Answer.stages_check (Answer.stages_check (Answer.stages_restage _)))

theorem hObjDefine_stages (r : Req) (s : State) : (hObjDefine r s).Stages r.part s := by
  unfold hObjDefine
  split
  · exact Answer.stages_refuse
  · exact Answer.stages_restage _

theorem hRuleStage_stages (r : Req) (s : State) : (hRuleStage r s).Stages r.part s := by
  unfold hRuleStage
  split
  · exact Answer.stages_refuse
  · exact Answer.stages_restage _

theorem hSchedStage_stages (r : Req) (s : State) : (hSchedStage r s).Stages r.part s := by
  unfold hSchedStage
  dsimp only
  split
  · exact Answer.stages_refuse
  · exact Answer.stages_restage _

theorem hSchedClear_stages (r : Req) (s : State) : (hSchedClear r s).Stages r.part s :=
  Answer.stages_check (Answer.stages_check (Answer.stages_check (Answer.stages_check (Answer.stages_restage _))))

theorem hSigStage_stages (r : Req) (s : State) : (hSigStage r s).Stages r.part s := by
  unfold hSigStage
  split
  · exact Answer.stages_refuse
  · exact Answer.stages_restage _

theorem hSigClear_stages (r : Req) (s : State) : (hSigClear r s).Stages r.part s :=
  Answer.stages_check (Answer.stages_check (Answer.stages_check (Answer.stages_check (Answer.stages_restage _))))

theorem hAxDefine_stages (r : Req) (s : State) : (hAxDefine r s).Stages r.part s := by
  unfold hAxDefine
  dsimp only
  split
  · exact Answer.stages_refuse
  · exact Answer.stages_check (Answer.stages_check (Answer.stages_check (Answer.stages_restage _)))

theorem hStageDiscard_stages (r : Req) (s : State) : (hStageDiscard r s).Stages r.part s :=
  ⟨State.modStage_stageOnly _, rfl⟩

/-- Settles O52: the handler of each of the nine commands only stages. -/
theorem stagingChangesOnlyTheStage : Obligations.StagingChangesOnlyTheStage := fun _ _ _ _ =>
  ⟨mailbox_stages hChanConfig_stages, mailbox_stages hObjDefine_stages, mailbox_stages hRuleStage_stages,
    mailbox_stages hSchedStage_stages, mailbox_stages hSchedClear_stages, mailbox_stages hSigStage_stages,
    mailbox_stages hSigClear_stages, mailbox_stages hAxDefine_stages, mailbox_stages hStageDiscard_stages⟩

end Sys2Proof.Machine
end

section
/-! SUPPORT. A write of one register of the control window through PCIe (R11, R77, R78): the statement that register
writes follow their access codes. -/
namespace Sys2Proof.Machine

theorem portQspi_of_portPcie {p : Port} (h : portPcie p = true) : portQspi p = false := by
  revert h
  cases p <;> decide

/-- Every register lies whole within the control window (Tables 3.3 and 3.4). -/
theorem isReg_within_window {off : Nat} (h : isReg off = true) : off + 4 ≤ windowSize .control := by
  simp only [isReg, Bool.or_eq_true, Bool.and_eq_true, decide_eq_true_eq] at h
  simp only [windowSize]
  omega

theorem touchesReg_of_isReg {off n : Nat} (hn : 0 < n) (h : isReg off = true) : touchesReg off n = true :=
  List.any_eq_true.mpr ⟨0, List.mem_range.mpr hn, h⟩

/-- An aligned write of one whole register is performed under the register's access code (R78). -/
theorem State.ctrlWrite_register {s : State} {p off : Nat} {bs : List Byte} {burst : Bool} (hr : isReg off = true)
    (ha : off % 4 = 0) (hn : bs.length = 4) : s.ctrlWrite p off bs burst = s.regWrite p off (rd bs 0 4) := by
  have touches : touchesReg off bs.length = true := touchesReg_of_isReg (by omega) hr
  rw [hn] at touches
  simp [State.ctrlWrite, touches, hn, ha, hr]

/-- A write of one register through a PCIe port that reaches its partition. -/
theorem execRegisterWrite_register {dt off : Nat} {w : Via} {bs : List Byte} {s : State}
    (hw : (s.elapse dt).reaches w = true) (hp : portPcie w.port = true) (hr : isReg off = true) (ha : off % 4 = 0)
    (hn : bs.length = 4) :
    execRegisterWrite dt w off bs s = .next ((s.elapse dt).regWrite w.part off (rd bs 0 4)) := by
  have pcie : portQspi w.port = false := portQspi_of_portPcie hp
  have within : off + 4 ≤ windowSize .control := isReg_within_window hr
  have past : ¬ windowSize .control < off + 4 := by omega
  have start : ¬ windowSize .control ≤ off := by omega
  have whole : bs.take 4 = bs := List.take_of_length_le hn.le
  simp [execRegisterWrite, State.hostAccess, accessCount, accessMalformed, State.winWrite, hw, pcie, hn, past, start,
    whole, State.ctrlWrite_register hr ha hn]

/-- Settles O55: each register's arm of `regWrite` is its access code. -/
theorem registersFollowTheirAccessCodes : Obligations.RegistersFollowTheirAccessCodes := by
  intro dt w off bs s t p v hw hp hn
  have row (hr : isReg off = true) (ha : off % 4 = 0) :
      exec (.registerWrite dt w off bs) s = .next (t.regWrite p off v) :=
    execRegisterWrite_register hw hp hr ha hn
  refine ⟨?done, ?notifyLo, ?notifyHi, ?status, ?vector, ?readOnly⟩
  case vector => rintro rfl; exact ⟨_, row rfl rfl, rfl⟩
  case readOnly => rintro (rfl | rfl | rfl | rfl | rfl | rfl) <;> exact row rfl rfl
  all_goals rintro rfl; exact row rfl rfl

end Sys2Proof.Machine
end

section
/-! SUPPORT. A mailbox command whose request the control core does not start (R25, R87, R88): the statement that it waits. -/
namespace Sys2Proof.Machine

variable {d : CmdDef} {h : Req → State → Answer} {dt : Nat} {m : Mbox} {s : State} {p : Nat}

/-- A command with a request goes through the mailbox. -/
theorem exec_eq_mailbox {i : Instr} (hi : i.request = some (d, dt, m)) :
    ∃ h : Req → State → Answer, exec i s = mailbox d h dt m s := by
  cases i <;> cases hi <;> exact ⟨_, rfl⟩

/-- A mailbox command that reaches its partition hands its request in, and the control core serves what it can. -/
theorem mailbox_reached (reach : (s.elapse dt).reaches m.via = true) :
    mailbox d h dt m s = .next ((s.offered d.code dt m).serve m.via.part.val m.slot.val d h) := by
  unfold mailbox State.offered
  simp only [reach, Bool.not_true, Bool.false_eq_true, if_false]
  split <;> rfl

/-- The control core serves nothing of a partition whose turn has not come (R87). -/
theorem State.serve_eq_self {slot : Nat} (turn : s.nextPart ≠ some p) : s.serve p slot d h = s := by
  unfold State.serve
  split
  · simp [turn]
  · rfl

/-- The partition that the control core takes next has a command that it can start. -/
theorem State.canStart_of_nextPart (next : s.nextPart = some p) : s.canStart p = true := List.find?_some next

/-- What holds of a partition whose oldest accepted request the control core can start (R25, R88). -/
theorem State.canStart_front {a : Accepted} {rest : List Accepted} (start : s.canStart p = true)
    (front : (s.part p).accepted = a :: rest) : s.blocked p = false ∧ s.planeHeld a.code = false := by
  unfold State.canStart at start
  rw [front] at start
  simp only [Bool.and_eq_true, Bool.not_eq_true'] at start
  obtain ⟨⟨_, blocked⟩, held⟩ := start
  exact ⟨blocked, held⟩

/-- A lockstep fault of the control core holds every command (R25). -/
theorem State.planeHeld_of_control {code : Nat} (fault : (s.frec 0x100).current = true) : s.planeHeld code = true := by
  simp [State.planeHeld, State.ctlHeld, fault]

/-- A lockstep fault of the supervisor core holds the commands of the management plane (R25). -/
theorem State.planeHeld_of_supervisor {code : Nat} (management : code ∈ managementCodes)
    (fault : (s.frec 0x101).current = true) : s.planeHeld code = true := by
  simp [State.planeHeld, State.supHeld, management, fault]

/-- Settles O14: in each case the control core does not take the partition next, so it serves nothing. -/
theorem heldRequestWaits : Obligations.HeldRequestWaits := by
  intro i d dt m s hi reach front held
  obtain ⟨h, row⟩ := exec_eq_mailbox (s := s) hi
  have turn : (s.offered d.code dt m).nextPart ≠ some m.via.part.val := by
    intro next
    obtain ⟨free, unheld⟩ := State.canStart_front (State.canStart_of_nextPart next) front
    rcases held with blocked | ⟨q, other, ne⟩ | control | ⟨management, supervisor⟩
    · exact absurd blocked (by simp [free])
    · exact ne (Option.some.inj (other.symm.trans next))
    · exact absurd (State.planeHeld_of_control control) (ne_true_of_eq_false unheld)
    · exact absurd (State.planeHeld_of_supervisor management supervisor) (ne_true_of_eq_false unheld)
  rw [row, mailbox_reached reach, State.serve_eq_self turn]

end Sys2Proof.Machine
end

section
/-! SUPPORT. The removal of expert rights (R32, R96): the statement that it changes no value in force and stops EXPERT
writes only. -/
namespace Sys2Proof.Machine

variable {s t u : State} {p : Nat}

/-! ### What is in force -/

/-- From `s` to `t` the parameters, the channels, the axes and the coordinates are the same, with every value that they hold
in force. -/
def SameInForce (s t : State) : Prop :=
  t.params = s.params ∧ t.chans = s.chans ∧ t.axes = s.axes ∧ t.lcs = s.lcs

theorem SameInForce.refl (s : State) : SameInForce s s := ⟨rfl, rfl, rfl, rfl⟩

theorem SameInForce.trans (a : SameInForce s t) (b : SameInForce t u) : SameInForce s u := by
  obtain ⟨p1, c1, a1, l1⟩ := a
  obtain ⟨p2, c2, a2, l2⟩ := b
  exact ⟨p2.trans p1, c2.trans c1, a2.trans a1, l2.trans l1⟩

theorem OnlyTime.sameInForce (k : OnlyTime s t) : SameInForce s t := by
  unfold OnlyTime at k
  rw [k]
  exact .refl s

theorem State.irq_sameInForce (k : Nat) : SameInForce s (s.irq p k) := by
  unfold State.irq
  dsimp only
  split
  · split <;> exact .refl s
  · exact .refl s

theorem State.irqCause_sameInForce (k : Nat) : SameInForce s (s.irqCause p k) := by
  unfold State.irqCause
  split
  · exact .refl s
  · exact State.irq_sameInForce (s := s.modPart p _) k

theorem State.countIgnored_sameInForce : SameInForce s (s.countIgnored p) :=
  State.irqCause_sameInForce (s := s.modPart p _) 7

theorem State.refuseCtrl_sameInForce (off : Nat) : SameInForce s (s.refuseCtrl p off) :=
  State.irqCause_sameInForce (s := s.modPart p _) 7

theorem State.refusePort_sameInForce (v : Via) (win off : Nat) : SameInForce s (s.refusePort v win off) := by
  unfold State.refusePort
  split <;> exact .refl s

theorem State.event_sameInForce (ty index : Nat) (payload : List Byte) : SameInForce s (s.event p ty index payload) := by
  unfold State.event
  split
  · exact .refl s
  · dsimp only
    split
    · exact State.irq_sameInForce (s := (s.storeWrite _ _).modPart p _) 1
    · exact .refl s

theorem State.setRights_sameInForce (c : PRes) (i : Nat) (on : Bool) : SameInForce s (s.setRights c i p on) := by
  unfold State.setRights
  dsimp only
  split <;> exact .refl s

/-! ### A mailbox command -/

section mailbox

variable {d : CmdDef} {h : Req → State → Answer} {dt : Nat} {m : Mbox}

theorem State.respond_sameInForce (slot code : Nat) (tag : W16) (st detail : Nat) (data : List Byte) :
    SameInForce s (s.respond p slot code tag st detail data) :=
  State.irq_sameInForce (s := s.modPart p _) 0

theorem State.drain_sameInForce (n : Nat) : SameInForce s (s.drain p n) := by
  induction n generalizing s with
  | zero => exact .refl s
  | succ n ih =>
    unfold State.drain
    split
    · split
      · exact .refl s
      · exact (State.respond_sameInForce (s := s.modPart p _) _ _ _ _ _ _).trans ih
    · exact .refl s

theorem State.doorbell_sameInForce (slot : Nat) : SameInForce s (s.doorbell p slot) := by
  unfold State.doorbell
  split
  · exact State.countIgnored_sameInForce
  · exact .refl s

theorem State.submit_sameInForce (slot code : Nat) (q : Request) : SameInForce s (s.submit p slot code q) := by
  unfold State.submit
  split
  · exact (State.refuseCtrl_sameInForce _).trans State.countIgnored_sameInForce
  · exact State.doorbell_sameInForce (s := s.modPart p _) slot

theorem State.offered_sameInForce (s : State) (code dt : Nat) (m : Mbox) : SameInForce s (s.offered code dt m) := by
  have time : SameInForce s (s.elapse dt) := (State.elapse_time s dt).sameInForce
  unfold State.offered
  dsimp only
  split
  · exact time
  · exact time.trans (State.submit_sameInForce _ _ _)

theorem State.answer_sameInForce {r : Req} {x : Answer} (hx : x.Leaves SameInForce s) :
    SameInForce s (s.answer r x) := by
  cases x with
  | refuse st detail => exact State.respond_sameInForce ..
  | done st data t => exact SameInForce.trans hx (State.respond_sameInForce ..)
  | later l t => exact hx

/-- A handler that changes no value in force changes none behind the plane event rings (R20). -/
theorem State.route_sameInForce {r : Req} (hh : ∀ t, (h r t).Leaves SameInForce t) :
    (s.route r h).Leaves SameInForce s := by
  unfold State.route
  split
  · have request : SameInForce s (s.relayRequest r.part r.slot) :=
      (State.relayRequest_only.time (rfl : OnlyTime s s)).sameInForce
    have handled := hh (s.relayRequest r.part r.slot)
    revert handled
    cases h r (s.relayRequest r.part r.slot) with
    | refuse st detail => exact id
    | done st data t => exact fun handled => request.trans handled
    | later l t => exact fun handled => request.trans handled
  · exact hh s

theorem State.serve_sameInForce {slot : Nat} (hh : ∀ r t, (h r t).Leaves SameInForce t) :
    SameInForce s (s.serve p slot d h) := by
  unfold State.serve
  split
  · split
    · exact .refl s
    · have taken : SameInForce s (s.takeRequest p) := .refl s
      refine taken.trans (SameInForce.trans ?_ (State.drain_sameInForce 16))
      split
      · exact State.answer_sameInForce Answer.leaves_refuse
      · exact State.answer_sameInForce (State.route_sameInForce (hh _))
  · exact .refl s

/-- A mailbox command whose handler changes no value in force changes none. -/
theorem mailbox_sameInForce (hh : ∀ r t, (h r t).Leaves SameInForce t) : Leaves SameInForce s (mailbox d h dt m s) := by
  by_cases reach : (s.elapse dt).reaches m.via = true
  · rw [mailbox_reached reach]
    exact Leaves.next ((State.offered_sameInForce s d.code dt m).trans (State.serve_sameInForce hh))
  · have refused : mailbox d h dt m s = .next ((s.elapse dt).refusePort m.via 0 (0x1000 + 0x200 * m.slot.val)) := by
      simp [mailbox, reach]
    rw [refused]
    exact Leaves.next ((State.elapse_time s dt).sameInForce.trans (State.refusePort_sameInForce ..))

end mailbox

/-- RIGHTS_GRANT and RIGHTS_REVOKE change rights and tell of it; they change no value in force. -/
theorem State.rightsCmd_sameInForce (on : Bool) (r : Req) (s : State) :
    (State.rightsCmd on r s).Leaves SameInForce s := by
  unfold State.rightsCmd
  extract_lets p i
  split
  · exact Answer.leaves_refuse
  · next c n _ =>
    refine ite_leaves (fun _ => Answer.leaves_refuse) fun _ => ite_leaves (fun _ => Answer.leaves_refuse) fun _ =>
      ite_leaves (fun _ => Answer.leaves_refuse) fun _ => ?_
    extract_lets owner
    refine ite_leaves (fun _ => Answer.leaves_refuse) fun _ =>
      ite_leaves (fun _ => Answer.leaves_done (.refl s)) fun _ => Answer.leaves_done ?_
    have told (pay : List Byte) : SameInForce s ((s.setRights c i p on).event p 0x0008 i pay) :=
      (State.setRights_sameInForce c i on).trans (State.event_sameInForce _ _ _)
    split
    · exact told _
    · exact (told _).trans (State.event_sameInForce _ _ _)

/-! ### What PARAM_SET denies -/

/-- A chain of checks that none fails: the first passes, and so do the others. -/
theorem check_passed {c : Prop} [Decidable c] {st : Nat} {rest : Option Nat}
    (good : (if c then some st else rest) = none) : ¬c ∧ rest = none := by
  by_cases hc : c
  · simp [hc] at good
  · exact ⟨hc, (if_neg hc).symm.trans good⟩

/-- The parameter of an entry that a partition other than P0 may set is one of its own resources (R93, R96). -/
theorem State.entryBad_none_owner {e : PEntry} {d : PDesc} (hp : p ≠ 0) (hd : pDesc e.num = some d)
    (good : s.entryBad p e = none) : s.ownerOf d.res e.inst = p := by
  unfold State.entryBad at good
  rw [hd] at good
  cases key : e.keyBad false with
  | some st => rw [key] at good; cases good
  | none =>
    rw [key] at good
    obtain ⟨owned, -⟩ := check_passed good
    by_contra other
    exact owned (by simp [hp, other])

/-- With other revocations, an entry that was good is denied where it is EXPERT and the partition holds no expert right on
its resource, and good elsewhere (R93). -/
theorem State.entryBad_revoked {e : PEntry} {d : PDesc} (g : SMap Nat) (hd : pDesc e.num = some d)
    (good : s.entryBad p e = none) :
    ({ s with revoked := g } : State).entryBad p e =
      if d.expert && !({ s with revoked := g } : State).expertOn p d.res e.inst then some stDenied else none := by
  unfold State.entryBad at good ⊢
  rw [hd] at good ⊢
  cases key : e.keyBad false with
  | some st => rw [key] at good; cases good
  | none =>
    rw [key] at good
    obtain ⟨owned, good⟩ := check_passed good
    obtain ⟨-, others⟩ := check_passed good
    exact (if_neg owned).trans (congrArg (@ite _ _ _ _) others)

/-- The owner of a resource, other than P0, whose expert right is removed holds it no more (R96). -/
theorem State.expertOn_revoked {c : PRes} {i k : Nat} (hp : p ≠ 0) (hk : resKey c i = k) (owner : s.ownerOf c i = p) :
    ({ s with revoked := SMap.put s.revoked k 1 } : State).expertOn p c i = false := by
  have same : ({ s with revoked := SMap.put s.revoked k 1 } : State).ownerOf c i = p := owner
  simp [State.expertOn, hp, same, hk, SMap.get, SMap.find_put_self]

/-- Settles O19: rights are no value in force, and of the checks of PARAM_SET only that of the EXPERT level asks for
them. -/
theorem revocationChangesNoValue : Obligations.RevocationChangesNoValue := by
  refine ⟨fun dt m s u row => mailbox_sameInForce (State.rightsCmd_sameInForce false) u row, ?_⟩
  intro s c i p hp _ _ _ e d hd key owners good
  have owner : s.ownerOf d.res e.inst = p := State.entryBad_none_owner hp hd good
  have revoked : s.setRights c i p false = { s with revoked := SMap.put s.revoked (resKey c i) 1 } := by
    simp [State.setRights, owners.symm.trans owner]
  rw [revoked, State.entryBad_revoked _ hd good, State.expertOn_revoked hp key owner]
  simp

end Sys2Proof.Machine
end

section
/-! SUPPORT. What the device holds before its first start (R46, R129, R154, R371, R394). -/
namespace Sys2Proof

/-- A table whose entries all are the default reads as the default at every index, outside it too. -/
theorem Tab.get_replicate {α : Type} {n : Nat} (d : α) (i : Nat) : Tab.get d (Vector.replicate n d : Tab α n) i = d := by
  by_cases h : i < n
  · simp [Tab.get, h]
  · exact Tab.get_outside d _ (Nat.le_of_not_lt h)

namespace Machine

theorem State.reset_part (p : Nat) : State.reset.part p = Part.reset := Tab.get_replicate _ p
theorem State.reset_queue (q : Nat) : State.reset.queue q = Queue.reset := Tab.get_replicate _ q
theorem State.reset_lc (n : Nat) : State.reset.lc n = Lc.reset := Tab.get_replicate _ n
theorem State.reset_axis (a : Nat) : State.reset.axis a = Axis.reset := Tab.get_replicate _ a
theorem State.reset_frec (k : Nat) : State.reset.frec k = FRec.reset := rfl

/-- Each channel differs from the others only by the data core that serves it (R17). -/
theorem State.reset_chan (c : Nat) : State.reset.chan c = Chan.reset (if c < 32 then c % 4 else 0) := by
  by_cases h : c < 32
  · simp [State.chan, Tab.get, State.reset, h]
  · rw [if_neg h]
    exact Tab.get_outside _ _ (Nat.le_of_not_lt h)

/-- Settles O10: every table of `State.reset` reads as its entries' reset value, at every index. -/
theorem resetState : Obligations.ResetState := by
  refine ⟨rfl, rfl, rfl, rfl, fun q => ?queue, fun c => ?channel, fun n => ?coordinate, State.reset_frec,
    State.reset_part, State.reset_axis, rfl, rfl, rfl, rfl⟩
  case queue => rw [State.reset_queue]; rfl
  case channel => rw [State.reset_chan]; rfl
  case coordinate => rw [State.reset_lc]; exact ⟨rfl, rfl⟩

end Machine
end Sys2Proof
end

section
/-! SUPPORT. The commands of the line-coordinate unit (R54, R56, R67, R68): what the handler of a good request answers. -/
namespace Sys2Proof.Machine

variable {r : Req} {s : State} {n i : Nat}

/-- A request whose issuer may operate the coordinate that it names is not refused for that coordinate. -/
theorem onLc_operated {f : Nat → Answer} (hn : n = r.u 0 1) (range : n ≤ 3) (own : s.mayOperate r.part .lc n = true) :
    onLc r s f = f n := by
  subst hn
  simp [onLc, own, Nat.not_lt.mpr range]

/-- LC_START of a stopped coordinate whose source has the SSI widths (R40) or the hysteresis (R53) that it demands. -/
theorem hLcStart_acquires (hn : n = r.u 0 1) (range : n ≤ 3) (own : s.mayOperate r.part .lc n = true)
    (stopped : (s.lc n).started = false) (source : s.par K.lcSource n ≠ 0)
    (widths : s.par K.lcSource n = 2 → s.par K.lcSsiTurnBits n ≤ s.par K.lcSsiBits n ∧
      s.par K.lcSsiBits n ≤ s.par K.lcSsiTurnBits n + 32)
    (hysteresis : s.par K.lcSource n = 1 →
      2 * s.par K.lcCntDen n * 0x100000000 ≤ s.par K.lcDirHyst n * s.par K.lcCntNum n) :
    hLcStart r s = .done stOk [] (s.lcAcquire n) := by
  have ssi : ¬(s.par K.lcSource n = 2 ∧ (s.par K.lcSsiBits n < s.par K.lcSsiTurnBits n ∨
      s.par K.lcSsiTurnBits n + 32 < s.par K.lcSsiBits n)) := by
    rintro ⟨two, bad⟩
    obtain ⟨least, most⟩ := widths two
    omega
  have inc : ¬(s.par K.lcSource n = 1 ∧
      s.par K.lcDirHyst n * s.par K.lcCntNum n < 2 * s.par K.lcCntDen n * 0x100000000) :=
    fun bad => Nat.not_lt.mpr (hysteresis bad.1) bad.2
  unfold hLcStart
  rw [onLc_operated hn range own]
  simp only [stopped, source, Bool.or_eq_true, Bool.and_eq_true, decide_eq_true_eq, ssi, inc, if_false, or_self,
    Bool.false_eq_true]

theorem hLcStop_freezes (hn : n = r.u 0 1) (range : n ≤ 3) (own : s.mayOperate r.part .lc n = true)
    (free : s.lcUsed n = false) :
    hLcStop r s = .done stOk [] ((s.lcFreeze n .noSource).condOff (0x50 + n) 0 0) := by
  unfold hLcStop
  rw [onLc_operated hn range own, free]
  rfl

theorem hLcSet_now (hn : n = r.u 0 1) (range : n ≤ 3) (own : s.mayOperate r.part .lc n = true) (now : r.u 1 1 = 0)
    (free : s.lcUsed n = false) :
    hLcSet r s = .done stOk [] ((s.lcPut n (BitVec.ofNat 64 (r.u 8 8))).modLc n fun l => { l with set := none }) := by
  unfold hLcSet
  rw [onLc_operated hn range own]
  simp [now, free]

theorem hLcSet_waits (hn : n = r.u 0 1) (range : n ≤ 3) (own : s.mayOperate r.part .lc n = true)
    (edge : r.u 1 1 = 1 ∨ (r.u 1 1 = 2 ∧ r.u 2 1 ≤ 15)) (free : s.lcUsed n = false) :
    hLcSet r s = .done stOk []
      (s.modLc n fun l => { l with set := some (r.u 1 1, r.u 2 1, BitVec.ofNat 64 (r.u 8 8)) }) := by
  unfold hLcSet
  rw [onLc_operated hn range own]
  rcases edge with index | ⟨latch, input⟩
  · simp [index, free]
  · simp [latch, free, Nat.not_lt.mpr input]

theorem hLatStatus_reports (hi : i = r.u 0 1) (range : i ≤ 15) (own : s.mayOperate r.part .latch i = true) :
    hLatStatus r s = .done stOk (le 4 (s.lat i).captured.toNat ++ le 4 (s.lat i).outside.toNat ++
      le 4 (s.lat i).lost.toNat ++ le 2 (s.lat i).seq.toNat ++ zs 2) s := by
  subst hi
  simp [hLatStatus, own, Nat.not_lt.mpr range]

theorem hSyncStatus_reports (hi : i = r.u 0 1) (range : i ≤ 3) (own : s.mayOperate r.part .sync i = true) :
    hSyncStatus r s = .done stOk (le 4 (s.sync i).pulses.toNat ++ le 4 (s.sync i).merged.toNat ++
      le 4 (s.sync i).skipped.toNat ++ zs 4) s := by
  subst hi
  simp [hSyncStatus, own, Nat.not_lt.mpr range]

/-- Settles O33: each request passes the checks of its handler. -/
theorem coordinateCommandsComplete : Obligations.CoordinateCommandsComplete := by
  refine ⟨fun _ _ _ hs => ?read, fun _ _ _ hs => ?start, fun _ _ _ hs => ?stop, fun _ _ _ hs => ?setNow,
    fun _ _ _ hs => ?setLater, fun _ _ _ hs => ?latch, fun _ _ _ hs => ?sync⟩
  case read => exact mailbox_done hs rfl
  case start =>
    intro t r n hn range own stopped source widths hysteresis
    exact mailbox_done hs (hLcStart_acquires hn range own stopped source widths hysteresis)
  case stop => exact fun n hn range own free => mailbox_done hs (hLcStop_freezes hn range own free)
  case setNow => exact fun n hn range own now free => mailbox_done hs (hLcSet_now hn range own now free)
  case setLater => exact fun n hn range own edge free => mailbox_done hs (hLcSet_waits hn range own edge free)
  case latch => exact fun i hi range own => mailbox_done hs (hLatStatus_reports hi range own)
  case sync => exact fun i hi range own => mailbox_done hs (hSyncStatus_reports hi range own)

end Sys2Proof.Machine
end

section
/-! SUPPORT. TIME_DISCIPLINE (R34, R56): the two ways in which TIME takes up an offset. -/
namespace Sys2Proof.Machine

variable {r : Req} {s : State} {o : Int}

/-- The offset that a request names: by itself, or as the difference of two instants (R56). -/
def Req.offset (r : Req) : Int :=
  if r.u 0 1 = 0 then sgn 64 (r.u 24 8) else (BitVec.ofNat 64 (r.u 16 8) - BitVec.ofNat 64 (r.u 8 8) : W64).toInt

/-- The clock slews the rest `o` and waits for no step. -/
def State.slews (s : State) (o : Int) : State :=
  { s with clk := { s.clk with slewing := decide (o ≠ 0), slewLeft := o, slewAcc := 0, step := none } }

/-- The clock waits to step by `o` and slews nothing. -/
def State.awaitsStep (s : State) (o : Int) : State :=
  { s with clk := { s.clk with slewing := false, slewLeft := 0, slewAcc := 0, step := some o } }

theorem hTimeDiscipline_slews (form : r.u 0 1 ≤ 1) (own : s.par K.timeOwner 0 = r.part) (ho : o = r.offset)
    (slew : s.par K.timeStepEnable 0 = 0 ∨ o.natAbs ≤ s.par K.timeStepThreshold 0) :
    hTimeDiscipline r s =
      .done stOk ((Config.disciplineBytes 0 (divRound (1000 * o.natAbs) (s.par K.timeSlewMax 0)).toNat).take 496)
        (if s.par K.timeStepEnable 0 = 0 ∧ 1000000000 < o.natAbs then
          (s.slews o).raiseU 0x58 0 1 0 false (s.par K.timeOwner 0) else s.slews o) := by
  subst ho
  unfold hTimeDiscipline
  rw [if_neg (Nat.not_lt.mpr form), if_neg (not_not.mpr own), ← Req.offset]
  simp [slew, State.slews]

theorem hTimeDiscipline_steps (form : r.u 0 1 ≤ 1) (own : s.par K.timeOwner 0 = r.part) (ho : o = r.offset)
    (enabled : s.par K.timeStepEnable 0 ≠ 0) (above : s.par K.timeStepThreshold 0 < o.natAbs) :
    hTimeDiscipline r s = .done stOk ((Config.disciplineBytes 1 0).take 496) (s.awaitsStep o) := by
  subst ho
  unfold hTimeDiscipline
  rw [if_neg (Nat.not_lt.mpr form), if_neg (not_not.mpr own), ← Req.offset]
  simp [enabled, Nat.not_le.mpr above, State.awaitsStep]

/-- Settles O34: the offset is slewed or stepped by the one check that the handler makes of it. -/
theorem timeDisciplineSlewsOrSteps : Obligations.TimeDisciplineSlewsOrSteps :=
  ⟨fun _ _ _ hs form own _ ho slew => mailbox_done hs (hTimeDiscipline_slews form own ho slew),
    fun _ _ _ hs form own _ ho enabled above => mailbox_done hs (hTimeDiscipline_steps form own ho enabled above)⟩

end Sys2Proof.Machine
end

section
/-! SUPPORT. The rows that move a coordinate (R37 to R53): what each leaves where its guards hold. -/
namespace Sys2Proof.Machine

variable {dt : Nat} {n : Fin 4} {e : EncEdge} {x : SsiRead} {s t : State}

/-! ### A count and its remainder (R37) -/

/-- The model's direction of a count is that of the edge, inverted by `lc[n].dir_invert`. -/
theorem countsUp_iff {up : Bool} {invert : Nat} : up ≠ decide (invert = 1) ↔ (up = true ↔ invert ≠ 1) := by
  cases up <;> simp

/-- What an edge of coordinate `n` brings, with the remainder kept before it, in 2^-32 turn times `cnt_num`. -/
def State.incTotal (s : State) (n : Nat) (e : EncEdge) : Int :=
  (s.lc n).rem +
    (if e.up ≠ decide (s.par K.lcDirInvert n = 1) then 1 else -1) * (s.par K.lcCntDen n * 0x100000000 : Nat)

theorem State.incTotal_up (up : e.up = true ↔ s.par K.lcDirInvert n ≠ 1) :
    s.incTotal n e = (s.lc n).rem + s.par K.lcCntDen n * 2 ^ 32 := by
  rw [State.incTotal, if_pos (countsUp_iff.mpr up)]
  push_cast
  ring

theorem State.incTotal_down (down : ¬(e.up = true ↔ s.par K.lcDirInvert n ≠ 1)) :
    s.incTotal n e = (s.lc n).rem - s.par K.lcCntDen n * 2 ^ 32 := by
  rw [State.incTotal, if_neg (countsUp_iff.not.mpr down)]
  push_cast
  ring

/-- A count divides that by `cnt_num`: the quotient moves the coordinate, and the remainder is kept. -/
theorem State.incCount_lc (e : EncEdge) (ratio : 0 < s.par K.lcCntNum n) :
    ((s.incCount n e).lc n).val = (s.lc n).val + BitVec.ofInt 64 (s.incTotal n e / s.par K.lcCntNum n) ∧
      ((s.incCount n e).lc n).rem = s.incTotal n e % s.par K.lcCntNum n := by
  have num : max 1 (s.par K.lcCntNum n) = s.par K.lcCntNum n := Nat.max_eq_right ratio
  unfold State.incCount
  rw [State.modLc_lc_self s _ n.isLt, num]
  simp only [decide_eq_true_eq]
  exact ⟨rfl, rfl⟩

/-- A count adds a whole number of units and keeps the exact rest below `cnt_num`. -/
theorem State.incCount_exact (e : EncEdge) (ratio : 0 < s.par K.lcCntNum n) :
    ∃ k : Int, ((s.incCount n e).lc n).val = (s.lc n).val + BitVec.ofInt 64 k ∧
      s.par K.lcCntNum n * k + ((s.incCount n e).lc n).rem = s.incTotal n e ∧
      0 ≤ ((s.incCount n e).lc n).rem ∧ ((s.incCount n e).lc n).rem < s.par K.lcCntNum n := by
  obtain ⟨val, rem⟩ := State.incCount_lc e ratio
  have positive : (0 : Int) < s.par K.lcCntNum n := Int.ofNat_lt.mpr ratio
  refine ⟨_, val, ?_⟩
  rw [rem]
  exact ⟨Int.mul_ediv_add_emod _ _, Int.emod_nonneg _ positive.ne', Int.emod_lt_of_pos _ positive⟩

/-! ### Quadrature edges (R37, R38, R48) -/

/-- An edge that comes alone, as the first or at least 40 ns after the one before it, is no error. The instant of the last
edge is kept with 1 added, for 0 says that none has come. -/
theorem State.incBad_eq_false (alone : e.both = false) (apart : 0 < (s.lc n).inAt → (s.lc n).inAt + 39 ≤ s.now) :
    s.incBad n e = false := by
  simp only [State.incBad, alone, Bool.false_or, Bool.and_eq_false_iff, decide_eq_false_iff_not]
  omega

theorem State.incBad_eq_true (error : e.both = true ∨ (0 < (s.lc n).inAt ∧ s.now < (s.lc n).inAt + 39)) :
    s.incBad n e = true := by
  simp only [State.incBad, Bool.or_eq_true, Bool.and_eq_true, decide_eq_true_eq]
  exact error.imp_right fun close => by omega

section rows

variable (ht : s.elapse dt = t)
include ht

theorem execEncCount_counts (source : t.par K.lcSource n = 1) (started : (t.lc n).started = true)
    (good : t.incBad n e = false) :
    execEncCount dt n e s =
      .next ((((t.modLc n fun l => { l with inAt := t.now + 1 }).incCount n e).lcMoved n (t.lcVal n)).lcReady n) := by
  unfold execEncCount
  rw [ht, if_neg (by simp [source, started]), if_neg (by simp [good])]

theorem execEncCount_errs (source : t.par K.lcSource n = 1) (started : (t.lc n).started = true)
    (bad : t.incBad n e = true) :
    execEncCount dt n e s = .next ((t.modLc n fun l => { l with inAt := t.now + 1 }).incError n) := by
  unfold execEncCount
  rw [ht, if_neg (by simp [source, started]), if_pos bad]

theorem execStandstillTimeout_still (source : t.par K.lcSource n = 1) (started : (t.lc n).started = true)
    (still : (t.lc n).edgeAt + 1000 * t.par K.lcStandstillTime n ≤ t.now) :
    execStandstillTimeout dt n s =
      .next (((t.modLc n fun x => { x with speed := 0, accel := 0 }).lcMoved n (t.lcVal n)).lcReady n) := by
  unfold execStandstillTimeout
  rw [ht, if_neg (by simp [source, started, State.incStill, State.passed, still])]

/-! ### Index pulses (R39, R45, R54) -/

/-- An index pulse of an encoder or an SSI source applies a set that waits for it. -/
theorem execIndexPulse_sets (source : t.par K.lcSource n = 1 ∨ t.par K.lcSource n = 2) {v : W64}
    (waits : (t.lc n).setIndex = some v) :
    execIndexPulse dt n s = .next (((t.lcPut n v).modLc n fun l =>
      { l with set := none, aligned := if t.par K.lcZMode n = 2 then true else l.aligned }).lcReady n) := by
  unfold execIndexPulse
  rcases source with inc | ssi
  · simp [ht, inc, waits]
  · simp [ht, ssi, waits]

/-- Without a set that waits it acts under `lc[n].z_mode`. -/
theorem execIndexPulse_marks (source : t.par K.lcSource n = 1 ∨ t.par K.lcSource n = 2)
    (waits : (t.lc n).setIndex = none) (started : (t.lc n).started = true) :
    execIndexPulse dt n s = .next ((t.indexMode n).lcReady n) := by
  unfold execIndexPulse
  rcases source with inc | ssi
  · simp [ht, inc, waits, started]
  · simp [ht, ssi, waits, started]

/-- On a PULSE_SPEED coordinate it is the pulse of a revolution. -/
theorem execIndexPulse_pulse (source : t.par K.lcSource n = 3) (waits : (t.lc n).setIndex = none) :
    execIndexPulse dt n s = .next ((t.pulseEdge n none).lcMoved n (t.lcVal n)) := by
  simp [execIndexPulse, ht, source, waits]

theorem execIndexPulse_pulse_sets (source : t.par K.lcSource n = 3) {v : W64} (waits : (t.lc n).setIndex = some v) :
    execIndexPulse dt n s =
      .next (((t.pulseEdge n (some v)).modLc n fun l => { l with set := none }).lcSpeed n) := by
  simp [execIndexPulse, ht, source, waits]

theorem execPulseMissing_holds {w : Nat} (turn : t.turnTime n = some w) (source : t.par K.lcSource n = 3)
    (track : (t.lc n).st = .track) (due : (t.lc n).pulseAt + w ≤ t.now) (off : t.pulseOff n = true) :
    execPulseMissing dt n s = .next ((t.lcHold n).modLc n fun x => { x with pulseAt := x.pulseAt + w }) := by
  simp [execPulseMissing, ht, turn, source, track, due, off]

/-! ### SSI words (R40, R41) -/

theorem execSsiWord_invalid (source : t.par K.lcSource n = 2) (started : (t.lc n).started = true) {code : Nat}
    (hc : code = t.ssiCode n x.bits.toNat)
    (bad : x.startHigh = false ∨ t.ssiParityOk n x = false ∨ t.ssiFast n code = true) :
    execSsiWord dt n x s = .next (t.ssiInvalid n (t.ssiFast n code)) := by
  subst hc
  unfold execSsiWord
  rw [ht, if_neg (by simp [source, started]), if_pos ?_]
  rcases bad with low | parity | fast
  · simp [low]
  · simp [parity]
  · simp [fast]

theorem execSsiWord_valid (source : t.par K.lcSource n = 2) (started : (t.lc n).started = true) {code : Nat}
    (hc : code = t.ssiCode n x.bits.toNat) (high : x.startHigh = true) (parity : t.ssiParityOk n x = true)
    (slow : t.ssiFast n code = false) :
    execSsiWord dt n x s = .next ((t.ssiTake n code x).lcReady n) := by
  subst hc
  unfold execSsiWord
  rw [ht, if_neg (by simp [source, started]), if_neg (by simp [high, parity, slow])]

/-! ### Timeouts and the estimator (R46, R47, R50, R53) -/

theorem execTelegramTimeout_holds (source : 3 ≤ t.par K.lcSource n) (track : (t.lc n).st = .track)
    (due : (t.lc n).telAt + 1000 * t.par K.lcTelTimeout n ≤ t.now) :
    execTelegramTimeout dt n s = .next (t.lcHold n) := by
  simp [execTelegramTimeout, ht, source, track, State.passed, due]

theorem execHoldoverExpired_loses (hold : (t.lc n).st = .holdover)
    (due : (t.lc n).holdAt + 1000 * t.par K.lcHoldover n ≤ t.now) :
    execHoldoverExpired dt n s = .next (t.lcLose n) := by
  simp [execHoldoverExpired, ht, hold, State.passed, due]

theorem execEstimatedDirectionChange_turns (source : 2 ≤ t.par K.lcSource n) (started : (t.lc n).started = true) :
    execEstimatedDirectionChange dt n s = .next (t.lcTurn n) := by
  simp [execEstimatedDirectionChange, ht, source, started]

end rows

/-- Settles O39: the quotient and the remainder of a count, and for every other row the branch that its guards select. -/
theorem coordinateRowsComplete : Obligations.CoordinateRowsComplete := by
  refine ⟨fun n e s ratio => ?exact, fun dt n e s => ?counts, fun dt n e s => ?errs,
    fun _ _ _ => execStandstillTimeout_still rfl, fun _ _ _ source _ => execIndexPulse_sets rfl source,
    fun _ _ _ => execIndexPulse_marks rfl, fun _ _ _ => execIndexPulse_pulse rfl,
    fun _ _ _ source _ => execIndexPulse_pulse_sets rfl source, fun _ _ _ _ => execPulseMissing_holds rfl,
    fun _ _ _ _ _ hc source started => execSsiWord_invalid rfl source started hc,
    fun _ _ _ _ _ hc source started => execSsiWord_valid rfl source started hc,
    fun _ _ _ => execTelegramTimeout_holds rfl, fun _ _ _ => execHoldoverExpired_loses rfl, fun _ _ _ => rfl,
    fun _ _ _ => execEstimatedDirectionChange_turns rfl⟩
  case exact =>
    obtain ⟨k, val, total, rest⟩ := State.incCount_exact e ratio
    exact ⟨k, val, fun up => total.trans (State.incTotal_up up), fun down => total.trans (State.incTotal_down down), rest⟩
  case counts =>
    rintro t source started alone apart u rfl
    exact execEncCount_counts rfl source started (State.incBad_eq_false alone apart)
  case errs => exact fun source started error => execEncCount_errs rfl source started (State.incBad_eq_true error)

end Sys2Proof.Machine
end

section
/-! SUPPORT. The rows of TIME, the latch inputs and the SYNC outputs (R56 to R64): what each leaves where its guards hold. -/
namespace Sys2Proof.Machine

variable {dt : Nat} {s t u : State}

theorem execTimeSlewDone_ends (ht : s.elapse dt = t) (slews : t.clk.slewing = true) (whole : t.clk.slewLeft = 0) :
    execTimeSlewDone dt s = .next { t with clk := { t.clk with slewing := false } } := by
  simp [execTimeSlewDone, ht, slews, whole]

/-! ### Latch edges (R58 to R60) -/

section latch

variable {k : Fin 16} {falling : Bool}

/-- Latch input `k` is enabled in READY, for edges of that direction (R58). -/
structure State.TakesEdge (t : State) (k : Nat) (falling : Bool) : Prop where
  ready : t.dev.mode = .ready
  enabled : t.par K.latEnable k = 1
  rises : t.par K.latEdge k = 0 → falling = false
  falls : t.par K.latEdge k = 1 → falling = true

/-- What an edge captures: TIME, the coordinates and the edges lost before it (R60). -/
def State.captureOf (t : State) (k : Nat) (falling : Bool) : LatchRec :=
  { time := t.clk.time, lcs := t.lcAll, lcState := t.lcStates, gen := t.clk.gen,
    flags := flag 0 falling + flag 1 ((t.lat k).lostDue ≠ 0) +
      flag 2 ((List.range 4).any fun n => ((t.lc n).setAt k).isSome),
    seq := ((t.lat k).seq + 1).toNat, lost := (t.lat k).lostDue }

/-- The guard of LATCH_EDGE does not turn away an edge that its input takes. -/
theorem State.TakesEdge.unguarded (takes : t.TakesEdge k falling) :
    ¬(decide (t.dev.mode ≠ .ready) || decide (t.par K.latEnable k ≠ 1) || (decide (t.par K.latEdge k = 0) && falling) ||
      (decide (t.par K.latEdge k = 1) && !falling)) = true := by
  obtain ⟨ready, enabled, rises, falls⟩ := takes
  cases falling
  · simpa [ready, enabled] using falls
  · simpa [ready, enabled] using rises

section guarded
variable (ht : s.elapse dt = t) (takes : t.TakesEdge k falling)
include ht takes

theorem execLatchEdge_outside (outside : t.inCapture k = false) :
    execLatchEdge dt k falling s = .next (t.modLat k fun l => { l with outside := l.outside + 1 }) := by
  unfold execLatchEdge
  rw [ht, if_neg takes.unguarded, if_pos (by simp [outside])]

theorem execLatchEdge_loses (inside : t.inCapture k = true) (full : 4 ≤ (t.lat k).fifo.length) :
    execLatchEdge dt k falling s = .next (t.latchLost k) := by
  unfold execLatchEdge
  rw [ht, if_neg takes.unguarded, if_neg (by simp [inside]), if_pos full]

theorem execLatchEdge_captures (inside : t.inCapture k = true) (room : (t.lat k).fifo.length < 4) :
    execLatchEdge dt k falling s = .next ((t.modLat k fun y =>
      { y with fifo := y.fifo ++ [t.captureOf k falling], captured := y.captured + 1, lostDue := 0,
               seq := y.seq + 1 }).latchSets k) := by
  unfold execLatchEdge
  rw [ht, if_neg takes.unguarded, if_neg (by simp [inside]), if_neg (Nat.not_le.mpr room)]
  rfl

end guarded

end latch

/-! ### SYNC pulses (R62, R63) -/

section sync

variable {k : Fin 4} {position : W64} {backward wiringOk : Bool}

/-- By how much the coordinate of output `k`, advanced by the lead, lies past `position`. -/
def State.syncPast (u : State) (k : Nat) (position : W64) : Int :=
  let n := u.par K.syncLc k
  u.syncDiff k (u.lcVal n + BitVec.ofInt 64 (dispOf (BitVec.ofInt 64 (u.lcSpd n)) 0 (u.par K.syncLead k))) position

/-- Output `k` fires at a position in that direction: it is one of the output's positions, the coordinate has reached it,
and it has not fired there since the coordinate left it (R62). -/
structure State.Fires (u : State) (k : Nat) (position : W64) (backward : Bool) : Prop where
  ready : u.dev.mode = .ready
  listed : u.syncPos k position = true
  direction : backward = true → u.par K.syncDir k ≠ 0
  reached : if backward then u.syncPast k position ≤ 0 else 0 ≤ u.syncPast k position
  fresh : ((u.sync k).spent.any fun e => decide (u.syncDiff k e.1 position = 0)) = false

/-- The guard of SYNC_PULSE does not turn away a pulse of an output that fires. -/
theorem State.Fires.unguarded (fires : u.Fires k position backward) :
    ¬(decide (u.dev.mode ≠ .ready) || !u.syncPos k position || (backward && decide (u.par K.syncDir k = 0)) ||
      (if backward then decide (0 < u.syncPast k position) else decide (u.syncPast k position < 0)) ||
      (u.sync k).spent.any fun e => decide (u.syncDiff k e.1 position = 0)) = true := by
  obtain ⟨ready, listed, direction, reached, fresh⟩ := fires
  cases backward
  · simpa [ready, listed, fresh] using reached
  · simpa [ready, listed, fresh, direction] using reached

/-- A pulse raises its output for its width; one that is high already merges it (R63). -/
def State.syncFire (u : State) (k : Nat) (position : W64) (backward : Bool) : State :=
  u.modSync k fun x =>
    if x.active then { x with merged := x.merged + 1 }
    else { x with active := true, until_ := u.now + u.par K.syncWidth k, pulses := x.pulses + 1,
                  spent := x.spent ++ [(position, backward)] }

section firing
variable (hu : u = (s.elapse dt).syncRearm k) (fires : u.Fires k position backward)
include hu fires

theorem execSyncPulse_pulses
    (valid : (u.lc (u.par K.syncLc k)).st = .track ∨ (u.lc (u.par K.syncLc k)).st = .holdover) :
    execSyncPulse dt k position backward wiringOk s = .next (
      if wiringOk then u.syncFire k position backward
      else (u.syncFire k position backward).raiseU 0x5A 0 2 k false (u.par K.syncOwner k)) := by
  subst hu
  unfold execSyncPulse
  refine (if_neg fires.unguarded).trans ?_
  rcases valid with track | holdover
  · rw [track]
    rfl
  · rw [holdover]
    rfl

theorem execSyncPulse_skips (notTrack : (u.lc (u.par K.syncLc k)).st ≠ .track)
    (notHoldover : (u.lc (u.par K.syncLc k)).st ≠ .holdover) :
    execSyncPulse dt k position backward wiringOk s =
      .next (u.modSync k fun x => { x with skipped := x.skipped + 1 }) := by
  subst hu
  unfold execSyncPulse
  refine (if_neg fires.unguarded).trans ?_
  split
  · next track => exact absurd track notTrack
  · next holdover => exact absurd holdover notHoldover
  all_goals rfl

end firing

theorem execSyncPulseEnd_lowers (ht : s.elapse dt = t) (active : (t.sync k).active = true)
    (passed : (t.sync k).until_ ≤ t.now) :
    execSyncPulseEnd dt k s = .next (t.modSync k fun x => { x with active := false }) := by
  simp [execSyncPulseEnd, ht, active, passed]

end sync

/-- Settles O40: the guards of each row hold, and the state selects its branch. -/
theorem timeAndLatchRowsComplete : Obligations.TimeAndLatchRowsComplete := by
  refine ⟨fun _ _ => rfl, fun _ _ => execTimeSlewDone_ends rfl, fun _ _ _ _ => ?captures, fun _ _ _ _ => ?loses,
    fun _ _ _ _ => ?outside, fun _ _ _ _ _ _ => ?pulses, fun _ _ _ _ _ _ => ?skips,
    fun _ _ _ => execSyncPulseEnd_lowers rfl⟩
  case captures =>
    rintro t ready enabled rises falls inside room x rfl
    exact execLatchEdge_captures rfl ⟨ready, enabled, rises, falls⟩ inside room
  case loses =>
    exact fun ready enabled rises falls inside full =>
      execLatchEdge_loses rfl ⟨ready, enabled, rises, falls⟩ inside full
  case outside =>
    exact fun ready enabled rises falls outside => execLatchEdge_outside rfl ⟨ready, enabled, rises, falls⟩ outside
  case pulses =>
    rintro t u n past hu rfl rfl ready listed direction reached fresh valid w rfl
    exact execSyncPulse_pulses hu ⟨ready, listed, direction, reached, fresh⟩ valid
  case skips =>
    rintro t u n past hu rfl rfl ready listed direction reached fresh notTrack notHoldover
    exact execSyncPulse_skips hu ⟨ready, listed, direction, reached, fresh⟩ notTrack notHoldover

end Sys2Proof.Machine
end

section
/-! SUPPORT. Every command at once: what it keeps, and that it answers (R90): the statements about the invariant, the
expert grants, the links and the outcome of every command. -/
namespace Sys2Proof.Machine

variable {i : Instr} {dt : Nat} {m : Mbox} {s t u : State}

/-! ### What every command keeps -/

/-- What a command is known to keep: the few that change a link, a right, a strap, a pin or the number of starts are safe,
and all others are quiet too. -/
def Instr.Bound (i : Instr) : State → State → Prop :=
  match i with
  | .rightsGrant _ _ => Safe
  | .rightsRevoke _ _ => Safe
  | .powerOnReset _ _ _ => Safe
  | .porstNFall _ => Safe
  | .powerFail _ => Safe
  | .deviceReset _ _ => Safe
  | .linkDown _ _ => Safe
  | .linkUp _ _ => Safe
  | .ioRailWindowChange _ _ _ => Safe
  | .tapInstructionUpdate _ _ => Safe
  | _ => Keeps

/-- Every row keeps what its command is known to keep. -/
theorem exec_bound (i : Instr) (s : State) : Leaves (Instr.Bound i) s (exec i s) :=
  match i with
  | .getInfo .. => execGetInfo_keeps
  | .partStatus .. => execPartStatus_keeps
  | .partReset .. => execPartReset_keeps
  | .rightsGrant .. => execRightsGrant_safe
  | .rightsRevoke .. => execRightsRevoke_safe
  | .rightsList .. => execRightsList_keeps
  | .paramSet .. => execParamSet_keeps
  | .paramGet .. => execParamGet_keeps
  | .paramLookup .. => execParamLookup_keeps
  | .epochCommit .. => execEpochCommit_keeps
  | .epochStatus .. => execEpochStatus_keeps
  | .epochCancel .. => execEpochCancel_keeps
  | .stageDiscard .. => execStageDiscard_keeps
  | .admitReport .. => execAdmitReport_keeps
  | .chanOpen .. => execChanOpen_keeps
  | .chanClose .. => execChanClose_keeps
  | .chanConfig .. => execChanConfig_keeps
  | .chanMode .. => execChanMode_keeps
  | .chanStatus .. => execChanStatus_keeps
  | .chanRecover .. => execChanRecover_keeps
  | .chanRetire .. => execChanRetire_keeps
  | .chanDiag .. => execChanDiag_keeps
  | .chanCollideClear .. => execChanCollideClear_keeps
  | .objDefine .. => execObjDefine_keeps
  | .objRead .. => execObjRead_keeps
  | .ruleStage .. => execRuleStage_keeps
  | .ruleRead .. => execRuleRead_keeps
  | .filtStatus .. => execFiltStatus_keeps
  | .lcRead .. => execLcRead_keeps
  | .lcStart .. => execLcStart_keeps
  | .lcStop .. => execLcStop_keeps
  | .lcSet .. => execLcSet_keeps
  | .timeDiscipline .. => execTimeDiscipline_keeps
  | .latStatus .. => execLatStatus_keeps
  | .syncStatus .. => execSyncStatus_keeps
  | .schedStage .. => execSchedStage_keeps
  | .schedClear .. => execSchedClear_keeps
  | .schedRead .. => execSchedRead_keeps
  | .schedStatus .. => execSchedStatus_keeps
  | .sigStage .. => execSigStage_keeps
  | .sigClear .. => execSigClear_keeps
  | .sigRead .. => execSigRead_keeps
  | .sigStatus .. => execSigStatus_keeps
  | .axDefine .. => execAxDefine_keeps
  | .axStart .. => execAxStart_keeps
  | .axStop .. => execAxStop_keeps
  | .axStatus .. => execAxStatus_keeps
  | .qOpen .. => execQOpen_keeps
  | .qClose .. => execQClose_keeps
  | .qFlush .. => execQFlush_keeps
  | .qStatus .. => execQStatus_keeps
  | .storeStatus .. => execStoreStatus_keeps
  | .faultSummary .. => execFaultSummary_keeps
  | .faultRead .. => execFaultRead_keeps
  | .faultClear .. => execFaultClear_keeps
  | .faultRequalify .. => execFaultRequalify_keeps
  | .faultInject .. => execFaultInject_keeps
  | .logRead .. => execLogRead_keeps
  | .faultPinRelease .. => execFaultPinRelease_keeps
  | .bootStatus .. => execBootStatus_keeps
  | .bootRecords .. => execBootRecords_keeps
  | .fwLoad .. => execFwLoad_keeps
  | .fwSelect .. => execFwSelect_keeps
  | .bootClearFailures .. => execBootClearFailures_keeps
  | .devRestart .. => execDevRestart_keeps
  | .budgetStatus .. => execBudgetStatus_keeps
  | .ageReport .. => execAgeReport_keeps
  | .ageHistory .. => execAgeHistory_keeps
  | .ageClearHist .. => execAgeClearHist_keeps
  | .mgId .. => execMgId_keeps
  | .mgState .. => execMgState_keeps
  | .mgFaultLo .. => execMgFaultLo_keeps
  | .mgFaultHi .. => execMgFaultHi_keeps
  | .mgLatchedLo .. => execMgLatchedLo_keeps
  | .mgLatchedHi .. => execMgLatchedHi_keeps
  | .mgMargin .. => execMgMargin_keeps
  | .mgLogNewest .. => execMgLogNewest_keeps
  | .mgLogPrev .. => execMgLogPrev_keeps
  | .alertResponse .. => execAlertResponse_keeps
  | .dbQueueH2d .. => execDbQueueH2d_keeps
  | .dbQueueD2h .. => execDbQueueD2h_keeps
  | .evtTailWrite .. => execEvtTailWrite_keeps
  | .hbWrite .. => execHbWrite_keeps
  | .presetKey .. => execPresetKey_keeps
  | .apSelect .. => execApSelect_keeps
  | .errCountRead .. => execErrCountRead_keeps
  | .irqEnableWrite .. => execIrqEnableWrite_keeps
  | .registerWrite .. => execRegisterWrite_keeps
  | .storeWindowAccess .. => execStoreWindowAccess_keeps
  | .powerOnReset .. => execPowerOnReset_safe
  | .porstNFall .. => execPorstNFall_safe
  | .powerFail .. => execPowerFail_safe
  | .deviceReset .. => execDeviceReset_safe
  | .readyTimeout .. => execReadyTimeout_keeps
  | .watchdog .. => execWatchdog_keeps
  | .functionLevelReset .. => execFunctionLevelReset_keeps
  | .hotReset .. => execHotReset_keeps
  | .linkDown .. => execLinkDown_safe
  | .partitionResetDone .. => execPartitionResetDone_keeps
  | .hbLate .. => execHbLate_keeps
  | .hbExpired .. => execHbExpired_keeps
  | .dispatchTick .. => execDispatchTick_keeps
  | .tokenRefill .. => execTokenRefill_keeps
  | .objWrite .. => execObjWrite_keeps
  | .objSend .. => execObjSend_keeps
  | .sigWrite .. => execSigWrite_keeps
  | .axStream .. => execAxStream_keeps
  | .axCmd .. => execAxCmd_keeps
  | .angleTel .. => execAngleTel_keeps
  | .frameReceived .. => execFrameReceived_keeps
  | .ringEntry .. => execRingEntry_keeps
  | .signalUnpack .. => execSignalUnpack_keeps
  | .signalPack .. => execSignalPack_keeps
  | .deferredPayloadWrite .. => execDeferredPayloadWrite_keeps
  | .txSuccess .. => execTxSuccess_keeps
  | .arbitrationLost .. => execArbitrationLost_keeps
  | .busError .. => execBusError_keeps
  | .protocolException .. => execProtocolException_keeps
  | .boffDelayExpired .. => execBoffDelayExpired_keeps
  | .recoveryDone .. => execRecoveryDone_keeps
  | .loneEnter .. => execLoneEnter_keeps
  | .loneProbe .. => execLoneProbe_keeps
  | .stuckDominant .. => execStuckDominant_keeps
  | .loopDelayWindow .. => execLoopDelayWindow_keeps
  | .pinReadback _ _ pad => execPinReadback_keeps (_pad := pad)
  | .chanRetired .. => execChanRetired_keeps
  | .twinHandover .. => execTwinHandover_keeps
  | .requalifyDone .. => execRequalifyDone_keeps
  | .sleepEnter .. => execSleepEnter_keeps
  | .busWake .. => execBusWake_keeps
  | .wakeTimeExpired .. => execWakeTimeExpired_keeps
  | .integrationDone .. => execIntegrationDone_keeps
  | .chanOpenTimeout .. => execChanOpenTimeout_keeps
  | .modeChangeApplied .. => execModeChangeApplied_keeps
  | .epochSwitch .. => execEpochSwitch_keeps
  | .timingApplied .. => execTimingApplied_keeps
  | .samplePointMove .. => execSamplePointMove_keeps
  | .firingTargetUpdate .. => execFiringTargetUpdate_keeps
  | .scheduledFire .. => execScheduledFire_keeps
  | .armFire .. => execArmFire_keeps
  | .refMessage .. => execRefMessage_keeps
  | .occurrenceMissed .. => execOccurrenceMissed_keeps
  | .schedReport .. => execSchedReport_keeps
  | .encCount .. => execEncCount_keeps
  | .indexPulse .. => execIndexPulse_keeps
  | .ssiWord .. => execSsiWord_keeps
  | .standstillTimeout .. => execStandstillTimeout_keeps
  | .telegramTimeout .. => execTelegramTimeout_keeps
  | .holdoverExpired .. => execHoldoverExpired_keeps
  | .estimatorRecord .. => execEstimatorRecord_keeps
  | .timeStep .. => execTimeStep_keeps
  | .latchEdge .. => execLatchEdge_keeps
  | .syncPulse .. => execSyncPulse_keeps
  | .syncPulseEnd .. => execSyncPulseEnd_keeps
  | .readTimeoutExpired .. => execReadTimeoutExpired_keeps
  | .scrub .. => execScrub_keeps
  | .faultOccurrence .. => execFaultOccurrence_keeps
  | .invalidPair .. => execInvalidPair_keeps
  | .faultLineClear .. => execFaultLineClear_keeps
  | .graceExpired .. => execGraceExpired_keeps
  | .quietTimeExpired .. => execQuietTimeExpired_keeps
  | .chipReset .. => execChipReset_keeps
  | .injectDone .. => execInjectDone_keeps
  | .fwLoadDone .. => execFwLoadDone_keeps
  | .aliveRenewal .. => execAliveRenewal_keeps
  | .aliveRenewalMissed .. => execAliveRenewalMissed_keeps
  | .monitorSample .. => execMonitorSample_keeps
  | .plan .. => execPlan_keeps
  | .coreFreqChange .. => execCoreFreqChange_keeps
  | .historySummary .. => execHistorySummary_keeps
  | .ksScan .. => execKsScan_keeps
  | .pulseMissing .. => execPulseMissing_keeps
  | .timeSlewDone .. => execTimeSlewDone_keeps
  | .exclusiveWindowEnd .. => execExclusiveWindowEnd_keeps
  | .schedBoundaryCrossed .. => execSchedBoundaryCrossed_keeps
  | .estimatedDirectionChange .. => execEstimatedDirectionChange_keeps
  | .linkUp .. => execLinkUp_safe
  | .ioRailWindowChange .. => execIoRailWindowChange_safe
  | .tapInstructionUpdate .. => execTapInstructionUpdate_safe

theorem exec_safe (i : Instr) (s : State) : Leaves Safe s (exec i s) := by
  intro t row
  have bound := exec_bound i s t row
  unfold Instr.Bound at bound
  split at bound
  case h_11 => exact bound.safe
  all_goals exact bound

/-- Settles O3: a step runs the front command on the queue's rest, which the invariant does not speak of. -/
theorem invStep : Obligations.InvStep := by
  intro s t inv row
  unfold step at row
  split at row
  · cases row
    exact inv
  · next i rest _ =>
    have front : ({ s with pending := rest } : State).Inv := ⟨inv.mem, inv.log, inv.parts, inv.recs, inv.grants⟩
    exact (exec_safe i _ t row).inv front

/-! ### Every command answers -/

/-- The outcome is a next state. -/
def Answers (o : Host.Outcome State Fault Refusal) : Prop := ∃ t, o = .next t

theorem Answers.next (t : State) : Answers (.next t) := ⟨t, rfl⟩

theorem Answers.ite {c : Prop} [Decidable c] {x y : Host.Outcome State Fault Refusal} (hx : Answers x) (hy : Answers y) :
    Answers (if c then x else y) := by
  split
  · exact hx
  · exact hy

theorem mailbox_answers (d : CmdDef) (h : Req → State → Answer) (dt : Nat) (m : Mbox) (s : State) :
    Answers (mailbox d h dt m s) :=
  .ite (.next _) (.ite (.next _) (.next _))

theorem itemRow_answers (ty dt : Nat) (q : Fin 64) (s : State) : Answers (itemRow ty dt q s) :=
  .ite (.next _) (.next _)

/-- A row is a mailbox command, a register access, an item row, a next state outright, or a tree of checks with a next
state at every leaf. -/
theorem exec_answers (i : Instr) (s : State) : Answers (exec i s) := by
  cases i with
  | getInfo | partStatus | partReset | rightsGrant | rightsRevoke | rightsList | paramSet | paramGet | paramLookup |
  epochCommit | epochStatus | epochCancel | stageDiscard | admitReport | chanOpen | chanClose | chanConfig | chanMode
  | chanStatus | chanRecover | chanRetire | chanDiag | chanCollideClear | objDefine | objRead | ruleStage | ruleRead |
  filtStatus | lcRead | lcStart | lcStop | lcSet | timeDiscipline | latStatus | syncStatus | schedStage | schedClear |
  schedRead | schedStatus | sigStage | sigClear | sigRead | sigStatus | axDefine | axStart | axStop | axStatus | qOpen
  | qClose | qFlush | qStatus | storeStatus | faultSummary | faultRead | faultClear | faultRequalify | faultInject |
  logRead | faultPinRelease | bootStatus | bootRecords | fwLoad | fwSelect | bootClearFailures | devRestart |
  budgetStatus | ageReport | ageHistory | ageClearHist =>
    exact mailbox_answers _ _ _ _ _
  | dbQueueH2d | dbQueueD2h | evtTailWrite | hbWrite | presetKey | apSelect | errCountRead | irqEnableWrite =>
    exact .ite (.next _) (.next _)
  | objWrite | objSend | sigWrite | axStream | axCmd | angleTel =>
    exact itemRow_answers _ _ _ _
  | mgId | mgState | mgFaultLo | mgFaultHi | mgLatchedLo | mgLatchedHi | mgMargin | mgLogNewest | mgLogPrev |
  registerWrite | storeWindowAccess | powerFail | partitionResetDone | ringEntry | signalUnpack | signalPack |
  deferredPayloadWrite | occurrenceMissed | estimatorRecord | timeStep | syncPulseEnd | aliveRenewal | timeSlewDone |
  schedBoundaryCrossed | linkUp | ioRailWindowChange | tapInstructionUpdate =>
    exact .next _
  | alertResponse | powerOnReset | porstNFall | deviceReset | readyTimeout | watchdog | functionLevelReset | hotReset
  | linkDown | hbLate | hbExpired | dispatchTick | tokenRefill | frameReceived | txSuccess | arbitrationLost |
  busError | protocolException | boffDelayExpired | recoveryDone | loneEnter | loneProbe | stuckDominant |
  loopDelayWindow | pinReadback | chanRetired | twinHandover | requalifyDone | sleepEnter | busWake | wakeTimeExpired
  | integrationDone | chanOpenTimeout | modeChangeApplied | epochSwitch | timingApplied | samplePointMove |
  firingTargetUpdate | scheduledFire | armFire | refMessage | schedReport | encCount | indexPulse | ssiWord |
  standstillTimeout | telegramTimeout | holdoverExpired | latchEdge | syncPulse | readTimeoutExpired | scrub |
  faultOccurrence | invalidPair | faultLineClear | graceExpired | quietTimeExpired | chipReset | injectDone |
  fwLoadDone | aliveRenewalMissed | monitorSample | plan | coreFreqChange | historySummary | ksScan | pulseMissing |
  exclusiveWindowEnd | estimatedDirectionChange =>
    dsimp only [exec,
      execAlertResponse, execPowerOnReset, execPorstNFall, execDeviceReset, execReadyTimeout, execWatchdog,
      execFunctionLevelReset, execHotReset, execLinkDown, execHbLate, execHbExpired, execDispatchTick,
      execTokenRefill, execFrameReceived, execTxSuccess, execArbitrationLost, execBusError,
      execProtocolException, execBoffDelayExpired, execRecoveryDone, execLoneEnter, execLoneProbe,
      execStuckDominant, execLoopDelayWindow, execPinReadback, execChanRetired, execTwinHandover,
      execRequalifyDone, execSleepEnter, execBusWake, execWakeTimeExpired, execIntegrationDone,
      execChanOpenTimeout, execModeChangeApplied, execEpochSwitch, execTimingApplied, execSamplePointMove,
      execFiringTargetUpdate, execScheduledFire, execArmFire, execRefMessage, execSchedReport, execEncCount,
      execIndexPulse, execSsiWord, execStandstillTimeout, execTelegramTimeout, execHoldoverExpired,
      execLatchEdge, execSyncPulse, execReadTimeoutExpired, execScrub, execFaultOccurrence, execInvalidPair,
      execFaultLineClear, execGraceExpired, execQuietTimeExpired, execChipReset, execInjectDone, execFwLoadDone,
      execAliveRenewalMissed, execMonitorSample, execPlan, execCoreFreqChange, execHistorySummary, execKsScan,
      execPulseMissing, execExclusiveWindowEnd, execEstimatedDirectionChange]
    repeat' first
      | with_reducible exact .next _
      | split

/-- Settles O5. -/
theorem everyCommandAnswers : Obligations.EveryCommandAnswers := exec_answers

/-! ### Relations that quiet changes meet -/

/-- A transitive relation that a change which `Keeps` meets. -/
structure QuietRel (R : State → State → Prop) : Prop where
  trans {a b c : State} : R a b → R b c → R a c
  quiet {a b : State} : Keeps a b → R a b

section mailbox

variable {R : State → State → Prop} (rel : QuietRel R) {d : CmdDef} {h : Req → State → Answer}
include rel

theorem QuietRel.answer {r : Req} {x : Answer} (hx : x.Leaves R s) : R s (s.answer r x) := by
  cases x with
  | refuse st detail => exact rel.quiet (State.respond_keeps (Keeps.refl s))
  | done st data t => exact rel.trans hx (rel.quiet (State.respond_keeps (Keeps.refl t)))
  | later l t => exact rel.trans hx (rel.quiet (Keeps.mk_of (Keeps.refl t) rfl))

/-- The way through the plane event rings is quiet (R20). -/
theorem QuietRel.route {r : Req} (hh : ∀ t, (h r t).Leaves R t) : (s.route r h).Leaves R s := by
  unfold State.route
  split
  · have request : R s (s.relayRequest r.part r.slot) := rel.quiet (State.relayRequest_keeps (Keeps.refl s))
    have handled := hh (s.relayRequest r.part r.slot)
    revert handled
    cases h r (s.relayRequest r.part r.slot) with
    | refuse st detail => exact fun _ => trivial
    | done st data t =>
      exact fun handled => rel.trans request (rel.trans handled (rel.quiet (State.relayDone_keeps (Keeps.refl t))))
    | later l t => exact fun handled => rel.trans request handled
  · exact hh s

theorem QuietRel.serve {p slot : Nat} (hh : ∀ r t, (h r t).Leaves R t) : R s (s.serve p slot d h) := by
  unfold State.serve
  split
  · split
    · exact rel.quiet (Keeps.refl s)
    · have taken : R s (s.takeRequest p) := rel.quiet (State.takeRequest_keeps (Keeps.refl s))
      refine rel.trans taken (rel.trans ?_ (rel.quiet (State.drain_keeps (Keeps.refl _))))
      split
      · exact rel.answer Answer.leaves_refuse
      · exact rel.answer (rel.route (hh _))
  · exact rel.quiet (Keeps.refl s)

/-- A mailbox command meets what its handler meets. -/
theorem QuietRel.mailbox (hh : ∀ r t, (h r t).Leaves R t) : Leaves R s (mailbox d h dt m s) := by
  have time : Keeps s (s.elapse dt) := State.elapse_keeps (Keeps.refl s)
  refine ite_row (fun _ => .next (rel.quiet (State.refusePort_keeps time))) fun _ => ite_row (fun _ => .next ?_) fun _ => .next ?_
  · exact rel.trans (rel.quiet time) (rel.serve hh)
  · exact rel.trans (rel.quiet (State.submit_keeps time)) (rel.serve hh)

/-- RIGHTS_GRANT and RIGHTS_REVOKE set a right and tell of it. -/
theorem QuietRel.rightsCmd {on : Bool} (set : ∀ (t : State) c i p, R t (t.setRights c i p on)) (r : Req) (s : State) :
    (State.rightsCmd on r s).Leaves R s := by
  unfold State.rightsCmd
  extract_lets p i
  split
  · exact Answer.leaves_refuse
  · next c n _ =>
    refine ite_leaves (fun _ => Answer.leaves_refuse) fun _ => ite_leaves (fun _ => Answer.leaves_refuse) fun _ =>
      ite_leaves (fun _ => Answer.leaves_refuse) fun _ => ?_
    extract_lets owner
    refine ite_leaves (fun _ => Answer.leaves_refuse) fun _ =>
      ite_leaves (fun _ => Answer.leaves_done (rel.quiet (Keeps.refl s))) fun _ => Answer.leaves_done ?_
    refine rel.trans (set s c i p) (rel.quiet ?_)
    exact ite_keeps (fun _ => State.event_keeps (Keeps.refl _)) fun _ => State.event_keeps (State.event_keeps (Keeps.refl _))

end mailbox

/-! ### Grants (R96) -/

/-- From a canonical list of grants `s`, `t` has one that grants no more. -/
def GrantsKept (s t : State) : Prop := SMap.wf 0 s.expert = true → SMap.wf 0 t.expert = true ∧ s.GrantsNoMore t

theorem Keeps.grantsKept (h : Keeps s t) : GrantsKept s t := h.quiet.grants

theorem GrantsKept.trans (h : GrantsKept s t) (k : GrantsKept t u) : GrantsKept s u := fun wf =>
  have ⟨wf', sub⟩ := h wf
  have ⟨wf'', sub'⟩ := k wf'
  ⟨wf'', fun i p x => sub i p (sub' i p x)⟩

theorem GrantsKept.quietRel : QuietRel GrantsKept := ⟨GrantsKept.trans, Keeps.grantsKept⟩

/-- A state without grants grants no more than any other. -/
theorem GrantsKept.of_none (h : t.expert = []) : GrantsKept s t := fun _ => by
  unfold State.GrantsNoMore
  rw [h]
  exact ⟨rfl, fun k p x => by simp [SMap.get, SMap.find?, bitOf] at x⟩

/-- The bits of a masked number are bits of the number. -/
theorem bitOf_of_and {v w p : Nat} (h : bitOf (v &&& w) p = true) : bitOf v p = true := by
  simp only [bitOf, ← Nat.testBit_eq_decide_div_mod_eq, Nat.testBit_and, Bool.and_eq_true] at h ⊢
  exact h.1

theorem State.setRights_removes (s : State) (c : PRes) (i p : Nat) : GrantsKept s (s.setRights c i p false) := by
  unfold State.setRights
  dsimp only
  split
  · exact fun wf => ⟨wf, fun _ _ x => x⟩
  · intro wf
    refine ⟨SMap.wf_set _ _ wf, fun k q held => ?_⟩
    by_cases key : k = resKey c i
    · subst key
      simp only [SMap.get_set_self _ _ wf, Bool.false_eq_true, if_false] at held
      exact bitOf_of_and held
    · rwa [SMap.get_set_other _ _ key] at held

theorem State.wiped_expert (s : State) : s.wiped.expert = [] := rfl

theorem State.bootStep1_expert {origin : ResetOrigin} {first : Nat} (s : State) :
    (s.bootStep1 origin first).expert = s.expert := by
  unfold State.bootStep1
  dsimp only
  split <;> rfl

/-- A start grants nothing: the device comes out of reset without grants. -/
theorem State.start_grantsKept {origin : ResetOrigin} {o : BootObs} (s t : State) : GrantsKept s (t.start origin o) :=
  (GrantsKept.of_none ((State.bootStep1_expert _).trans t.wiped_expert)).trans
    (State.bootOn_keeps (Keeps.refl _)).grantsKept

theorem State.hold_grantsKept (s t : State) : GrantsKept s t.hold := .of_none rfl

/-- Every command but RIGHTS_GRANT keeps the grants. -/
theorem exec_grantsKept (grant : ∀ dt m, i ≠ .rightsGrant dt m) : Leaves GrantsKept s (exec i s) := by
  have time : ∀ dt, GrantsKept s (s.elapse dt) := fun dt => (State.elapse_keeps (Keeps.refl s)).grantsKept
  have bound := exec_bound i s
  unfold Instr.Bound at bound
  split at bound
  case h_1 => exact absurd rfl (grant _ _)
  case h_2 =>
    exact GrantsKept.quietRel.mailbox (GrantsKept.quietRel.rightsCmd State.setRights_removes)
  case h_3 => exact ite_row (fun _ => .next (time _)) fun _ => .next (State.start_grantsKept _ _)
  case h_4 => exact ite_row (fun _ => .next (State.hold_grantsKept _ _)) fun _ => .next (time _)
  case h_5 => exact .next (State.hold_grantsKept _ _)
  case h_6 =>
    dsimp only [exec, execDeviceReset]
    split
    case h_1 | h_5 => exact .next (time _)
    all_goals exact .next (State.start_grantsKept _ _)
  case h_7 dt link =>
    refine ite_row (fun _ => .next ?_) fun _ => .next (time _)
    have down : GrantsKept s { s.elapse dt with linksDown := (s.elapse dt).linksDown ++ [link] } := time dt
    exact down.trans (State.resetLink_keeps (Keeps.refl _)).grantsKept
  case h_8 | h_9 | h_10 => exact .next (time _)
  case h_11 => exact fun t row => (bound t row).grantsKept

/-- Settles O6: what is not RIGHTS_GRANT keeps the grants, removes some, or empties the list. -/
theorem grantsOnlyByRightsGrant : Obligations.GrantsOnlyByRightsGrant :=
  fun _ _ _ grant wf row => (exec_grantsKept grant _ row wf).2

/-! ### Links (R72) -/

/-- The same links are down. -/
def LinksKept (s t : State) : Prop := t.linksDown = s.linksDown

theorem Keeps.linksKept (h : Keeps s t) : LinksKept s t := h.quiet.links

theorem LinksKept.quietRel : QuietRel LinksKept := ⟨fun h k => Eq.trans k h, Keeps.linksKept⟩

theorem State.setRights_linksKept (on : Bool) (s : State) (c : PRes) (i p : Nat) :
    LinksKept s (s.setRights c i p on) := by
  unfold State.setRights
  dsimp only
  split <;> rfl

theorem rights_linksKept {d : CmdDef} (on : Bool) : Leaves LinksKept s (mailbox d (State.rightsCmd on) dt m s) :=
  LinksKept.quietRel.mailbox (LinksKept.quietRel.rightsCmd (State.setRights_linksKept on))

/-- Settles O7: of the commands that are not quiet, rights and pins leave the links alone. -/
theorem linksChangeOnlyByLinkRows : Obligations.LinksChangeOnlyByLinkRows := by
  intro i s t down up powerOn fall fail reset row
  have time : ∀ dt, LinksKept s (s.elapse dt) := fun dt => (State.elapse_keeps (Keeps.refl s)).linksKept
  have bound := exec_bound i s
  unfold Instr.Bound at bound
  split at bound
  case h_1 => exact rights_linksKept true t row
  case h_2 => exact rights_linksKept false t row
  case h_3 => exact absurd rfl (powerOn _ _ _)
  case h_4 => exact absurd rfl (fall _)
  case h_5 => exact absurd rfl (fail _)
  case h_6 => exact absurd rfl (reset _ _)
  case h_7 => exact absurd rfl (down _ _)
  case h_8 => exact absurd rfl (up _ _)
  case h_9 | h_10 => cases row; exact time _
  case h_11 => exact (bound t row).linksKept

end Sys2Proof.Machine
end

section
/-! SUPPORT. Accepting, refusing and answering a request (R74, R81 to R86): the statements about the mailbox protocol. -/
namespace Sys2Proof

/-! ### Little-endian fields (R5) -/

theorem le_length (n v : Nat) : (le n v).length = n := by
  induction n generalizing v with
  | zero => rfl
  | succ n ih => simp [le, ih]

theorem fit_length (n : Nat) (bs : List Byte) : (fit n bs).length = n := by
  simp [fit, zs]
  omega

theorem fit_of_length_le {n : Nat} {bs : List Byte} (h : bs.length ≤ n) : fit n bs = bs ++ zs (n - bs.length) := by
  rw [fit, List.take_of_length_le h]

/-- A field reads back what was written, as far as its bytes hold it. -/
theorem unle_le {n v : Nat} (h : v < 256 ^ n) : unle (le n v) = v := by
  induction n generalizing v with
  | zero =>
    rw [pow_zero] at h
    simp only [le, unle]
    omega
  | succ n ih =>
    have rest : unle (le n (v / 256)) = v / 256 := ih (Nat.div_lt_of_lt_mul (pow_succ' 256 n ▸ h))
    simp only [le, unle, rest, BitVec.toNat_ofNat]
    omega

namespace Machine

variable {d : CmdDef} {h : Req → State → Answer} {dt : Nat} {m : Mbox} {s t : State} {p : Nat}

/-! ### Bytes of a range -/

theorem memRead_add (m : SMap Byte) (a n k : Nat) : memRead m a (n + k) = memRead m a n ++ memRead m (a + n) k := by
  induction n generalizing a with
  | zero => simp [memRead]
  | succ n ih => rw [Nat.add_right_comm, memRead, memRead, ih, Nat.add_right_comm a 1 n, List.cons_append, Nat.add_assoc]

/-- A read within a range of known bytes. -/
theorem memRead_slice {m : SMap Byte} {a : Nat} {bs : List Byte} (h : memRead m a bs.length = bs) {k n : Nat}
    (within : k + n ≤ bs.length) : memRead m (a + k) n = (bs.drop k).take n := by
  obtain ⟨e, he⟩ := Nat.exists_eq_add_of_le within
  have whole : memRead m a k ++ (memRead m (a + k) n ++ memRead m (a + k + n) e) = bs := by
    rw [← memRead_add, ← memRead_add, ← Nat.add_assoc, ← he, h]
  rw [← whole, List.drop_left' (memRead_length ..), List.take_left' (memRead_length ..)]

/-! ### A refused request (R86) -/

/-- A request that the control core starts next is refused with what the first failed check gives (R86). -/
theorem mailbox_checked (reach : (s.elapse dt).reaches m.via = true)
    (front : ((s.offered d.code dt m).part m.via.part.val).accepted = [acceptedOf d.code m])
    (turn : (s.offered d.code dt m).nextPart = some m.via.part.val) {st detail : Nat}
    (checked : d.check (reqOf d.code m) (s.inHand d.code dt m) = some (st, detail)) :
    mailbox d h dt m s =
      .next (((s.inHand d.code dt m).respond m.via.part.val m.slot.val d.code m.rq.tag st detail []).drain
        m.via.part.val 16) := by
  rw [mailbox_reached reach, State.serve, front, turn]
  dsimp only
  rw [if_neg (by simp [acceptedOf])]
  change d.check ((acceptedOf d.code m).req m.via.part.val) ((s.offered d.code dt m).takeRequest m.via.part.val) =
    some (st, detail) at checked
  rw [checked]
  rfl

section check

variable {r : Req}

theorem CmdDef.check_long (long : 496 < r.length) : d.check r t = some (stBadLength, 4) := by
  simp [CmdDef.check, long]

section fits

variable (fits : r.length ≤ 496)
include fits

theorem CmdDef.check_rusk (mode : t.dev.mode = .rusk) (unserved : d.rusk = false) :
    d.check r t = some (stUnsupported, 0) := by
  simp [CmdDef.check, Nat.not_lt.mpr fits, mode, unserved]

section served

variable (served : t.dev.mode ≠ .rusk ∨ d.rusk = true)
include served

theorem CmdDef.check_form (bad : 1 < r.form ∨ (r.form = 1 ∧ d.expert = false)) :
    d.check r t = some (stUnsupported, 6) := by
  have mode : ¬(t.dev.mode = .rusk ∧ d.rusk = false) := by rcases served with h | h <;> simp [h]
  simp [CmdDef.check, Nat.not_lt.mpr fits, mode, bad]

section formed

variable (form : r.form ≤ 1) (expert : r.form = 1 → d.expert = true)
include form expert

/-- What is left of R86 once length, mode and form are good. -/
theorem CmdDef.check_formed : d.check r t =
    if r.flags ≠ 0 then some (stRange, 7)
    else match d.badByte r with
      | some o => some (stRange, d.detail r o)
      | none =>
        if r.length ≠ d.len r then some (stBadLength, 4)
        else if r.bulkLen = 0xFFFFFFFF || t.bulkSize r.part < r.bulkOff + r.bulkLen then some (stBadLength, 12)
        else if r.bulkOff % 32 ≠ 0 then some (stRange, 8)
        else none := by
  have mode : ¬(t.dev.mode = .rusk ∧ d.rusk = false) := by rcases served with h | h <;> simp [h]
  have good : ¬(1 < r.form ∨ (r.form = 1 ∧ d.expert = false)) := by
    rintro (many | ⟨one, basic⟩)
    · omega
    · simp [expert one] at basic
  unfold CmdDef.check
  exact (if_neg (by omega)).trans ((if_neg (by simpa using mode)).trans (if_neg (by simpa using good)))

end formed
end served
end fits
end check

/-- Settles O11: the first failed check of `CmdDef.check` is the one that R86 names. -/
theorem refusedRequestsHaveNoEffect : Obligations.RefusedRequestsHaveNoEffect := by
  intro i d dt m s hi reach front turn r t refused
  obtain ⟨h, row⟩ := exec_eq_mailbox (s := s) hi
  have refuse {st detail : Nat} (checked : d.check r t = some (st, detail)) : exec i s = refused st detail :=
    row.trans (mailbox_checked reach front turn checked)
  refine ⟨fun long => refuse (CmdDef.check_long long),
    fun fits mode unserved => refuse (CmdDef.check_rusk fits mode unserved),
    fun fits served => ⟨fun bad => refuse (CmdDef.check_form fits served bad), fun form expert => ?_⟩⟩
  have rest := CmdDef.check_formed fits served form expert (d := d) (t := t)
  refine ⟨fun flags => refuse ?_, fun flags => ⟨fun o reserved => refuse ?_, fun clean => ⟨fun length => refuse ?_,
    fun length => ⟨fun beyond => refuse ?_, fun off within unaligned => refuse ?_⟩⟩⟩⟩
  · rw [rest, if_pos flags]
  · rw [rest, if_neg (not_not.mpr flags), reserved]
  · rw [rest, if_neg (not_not.mpr flags), clean]
    exact if_pos length
  · rw [rest, if_neg (not_not.mpr flags), clean]
    dsimp only
    rw [if_neg (not_not.mpr length), if_pos (by simpa using beyond)]
  · rw [rest, if_neg (not_not.mpr flags), clean]
    dsimp only
    rw [if_neg (not_not.mpr length), if_neg (by simpa using ⟨off, within⟩), if_pos unaligned]

/-! ### An accepted request (R81 to R83) -/

theorem reqBytes_length (code : Nat) (q : Request) : (reqBytes code q).length = 512 := by
  simp [reqBytes, le_length, fit_length]

/-- The slot holds the request that was written into it (Table 3.18). -/
theorem Part.slotRequest_written {x : Part} {slot code : Nat} {q : Request} (hc : code < 65536)
    (written : memRead x.slots (0x200 * slot) 512 = reqBytes code q) :
    x.slotRequest slot = (code, { q with data := fit 496 q.data }) := by
  have number {n : Nat} (v : BitVec (8 * n)) : unle (le n v.toNat) = v.toNat :=
    unle_le (by rw [show (256 : Nat) = 2 ^ 8 from rfl, ← pow_mul]; exact v.isLt)
  have c : rd (reqBytes code q) 0 2 = code := unle_le (n := 2) hc
  have tag : rd (reqBytes code q) 2 2 = q.tag.toNat := number (n := 2) q.tag
  have length : rd (reqBytes code q) 4 2 = q.length.toNat := number (n := 2) q.length
  have form : rd (reqBytes code q) 6 1 = q.form.toNat := by rfl
  have flags : rd (reqBytes code q) 7 1 = q.flags.toNat := by rfl
  have bulkOff : rd (reqBytes code q) 8 4 = q.bulkOff.toNat := number (n := 4) q.bulkOff
  have bulkLen : rd (reqBytes code q) 12 4 = q.bulkLen.toNat := number (n := 4) q.bulkLen
  have data : (reqBytes code q).drop 16 = fit 496 q.data := rfl
  simp only [Part.slotRequest, written, c, tag, length, form, flags, bulkOff, bulkLen, data, BitVec.ofNat_toNat,
    BitVec.setWidth_eq]

/-- The doorbell of a free slot of a served partition that is not in reset is taken (R81, R82). -/
theorem State.doorbell_taken {slot : Nat} (served : s.served p = true) (up : (s.part p).resetting = none)
    (free : s.slotHeld p slot = false) :
    s.doorbell p slot = s.modPart p fun x =>
      { x with
        done := x.done &&& ~~~(BitVec.ofNat 16 (2 ^ slot))
        accepted := x.accepted ++ [{ slot := slot, code := (x.slotRequest slot).1, rq := (x.slotRequest slot).2 }] } := by
  simp [State.doorbell, served, up, free]

/-- The window with a request written into a slot of its mailbox page (R81). -/
def Part.written (slot code : Nat) (q : Request) (x : Part) : Part :=
  { x with slots := memWrite x.slots (0x200 * slot) (reqBytes code q) }

/-- A request that the host submits in a free slot of a served partition that is not in reset lies in the slot, and the
device has accepted it, whole. -/
theorem State.submit_part {slot code : Nat} {q : Request} (hp : p < 8) (hc : code < 65536) (served : s.served p = true)
    (up : (s.part p).resetting = none) (free : s.slotHeld p slot = false) (wf : Memory.wf (s.part p).slots = true) :
    (s.submit p slot code q).part p =
      { s.part p with
        slots := memWrite (s.part p).slots (0x200 * slot) (reqBytes code q)
        done := (s.part p).done &&& ~~~(BitVec.ofNat 16 (2 ^ slot))
        accepted := (s.part p).accepted ++ [{ slot := slot, code := code, rq := { q with data := fit 496 q.data } }] } := by
  have part : (s.modPart p (Part.written slot code q)).part p = (s.part p).written slot code q :=
    State.modPart_part_self _ _ hp
  have still : (s.modPart p (Part.written slot code q)).slotHeld p slot = false := by
    rw [State.slotHeld, part]
    exact free
  have content : ((s.part p).written slot code q).slotRequest slot = (code, { q with data := fit 496 q.data }) := by
    refine Part.slotRequest_written hc ?_
    have back := memRead_memWrite (reqBytes code q) _ (0x200 * slot) wf
    rwa [reqBytes_length] at back
  have submitted : s.submit p slot code q = (s.modPart p (Part.written slot code q)).doorbell p slot := by
    rw [State.submit, free]
    rfl
  have rung := State.doorbell_taken (s := s.modPart p (Part.written slot code q)) served (by rw [part]; exact up) still
  rw [submitted, rung, State.modPart_part_self _ _ hp, part, content]
  rfl

/-- Settles O12: a partition that has nothing accepted does not hold the request, so the host submits it. -/
theorem freshRequestIsAccepted : Obligations.FreshRequestIsAccepted := by
  intro code dt m s hc u p served up free empty wf
  have unknown : u.holds p m.slot.val code m.rq = false := by simp [State.holds, empty]
  have offered : s.offered code dt m = u.submit p m.slot.val code m.rq := by
    rw [State.offered, unknown]
    rfl
  have window := State.submit_part (q := m.rq) m.via.part.isLt hc served up free wf
  rw [← offered, empty] at window
  have accepted : ((s.offered code dt m).part p).accepted = [acceptedOf code m] := congrArg Part.accepted window
  refine ⟨accepted, congrArg Part.done window, ?_⟩
  rw [State.slotHeld, accepted]
  simp [acceptedOf]

/-! ### A response (R82, R84) -/

/-- An interrupt changes of a window only the pending bits and the messages sent (R79). -/
theorem State.irq_part {k : Nat} (s : State) (hp : p < 8) :
    ∃ pba sent, (s.irq p k).part p = { s.part p with pba := pba, msiSent := sent } := by
  unfold State.irq
  dsimp only
  split
  · split
    · exact ⟨_, (s.part p).msiSent, State.modPart_part_self _ _ hp⟩
    · exact ⟨(s.part p).pba, _, State.modPart_part_self _ _ hp⟩
  · exact ⟨_, _, rfl⟩

/-- The bytes of a response (Table 3.19), in a slot of 512. -/
def respBytes (code : Nat) (tag : W16) (st detail seq : Nat) (data : List Byte) : List Byte :=
  le 2 code ++ le 2 tag.toNat ++ le 2 data.length ++ le 1 st ++ zs 1 ++ le 4 detail ++ le 4 seq ++ fit 496 data

theorem respBytes_length (code : Nat) (tag : W16) (st detail seq : Nat) (data : List Byte) :
    (respBytes code tag st detail seq data).length = 512 := by
  simp [respBytes, le_length, fit_length, zs]

/-- A response leaves its window with the slot written, its DONE bit set and the count risen (R82, R84). -/
theorem State.respond_part {slot code st detail : Nat} {tag : W16} {data : List Byte} (s : State) (hp : p < 8) :
    ∃ pba sent, (s.respond p slot code tag st detail data).part p =
      { s.part p with
        slots := memWrite (s.part p).slots (0x200 * slot) (respBytes code tag st detail ((s.part p).seq + 1).toNat data)
        done := (s.part p).done ||| BitVec.ofNat 16 (2 ^ slot), seq := (s.part p).seq + 1, pba := pba, msiSent := sent } := by
  obtain ⟨pba, sent, window⟩ := State.irq_part (k := 0) (s.modPart p fun x =>
    { x with
      slots := memWrite x.slots (0x200 * slot) (respBytes code tag st detail (x.seq + 1).toNat data)
      done := x.done ||| BitVec.ofNat 16 (2 ^ slot), seq := x.seq + 1 }) hp
  rw [State.modPart_part_self _ _ hp] at window
  exact ⟨pba, sent, window⟩

/-- Settles O13: each field is a slice of the bytes of the response. -/
theorem responseLayout : Obligations.ResponseLayout := by
  intro s p slot code tag st detail data hp _ hd wf t x
  obtain ⟨pba, sent, window⟩ := State.respond_part (slot := slot) (code := code) (st := st) (detail := detail) (tag := tag)
    (data := data) s hp
  let bs := respBytes code tag st detail ((s.part p).seq + 1).toNat data
  have length : bs.length = 512 := respBytes_length ..
  have slots : x.slots = memWrite (s.part p).slots (0x200 * slot) bs := congrArg Part.slots window
  have whole : memRead x.slots (0x200 * slot) bs.length = bs := slots ▸ memRead_memWrite bs _ _ wf
  have field (k n : Nat) (within : k + n ≤ 512) : memRead x.slots (0x200 * slot + k) n = (bs.drop k).take n :=
    memRead_slice whole (length ▸ within)
  refine ⟨field 0 2 (by omega), field 2 2 (by omega), field 4 2 (by omega), field 6 2 (by omega), field 8 4 (by omega),
    field 12 4 (by omega), ?_, congrArg Part.done window, fun a outside => ?_, (State.respond_answer hp).others⟩
  · rw [field 16 496 (by omega)]
    show (fit 496 data).take 496 = _
    rw [List.take_of_length_le (fit_length 496 data).le, fit_of_length_le hd]
  · rw [slots]
    exact get_memWrite_outside _ _ _ _ (length ▸ outside)

/-! ### A port that does not reach the partition (R74, R76) -/

/-- Settles O15. -/
theorem unreachedPortOnlyReports : Obligations.UnreachedPortOnlyReports := by
  intro i d dt m s hi unreached
  obtain ⟨h, row⟩ := exec_eq_mailbox (s := s) hi
  have refused : mailbox d h dt m s = .next ((s.elapse dt).refusePort m.via 0 (0x1000 + 0x200 * m.slot.val)) := by
    simp [mailbox, unreached]
  rw [row, refused]
  simp [State.refusePort, or_assoc]

end Machine
end Sys2Proof
end

section
/-! SUPPORT. Events and the registers of a window (R77 to R80, R106, R109 to R112): the statements about the event ring and
about the host's accesses. -/
namespace Sys2Proof.Machine

variable {dt p : Nat} {w : Via} {s t u : State}

/-! ### The event ring (R106) -/

theorem State.irq_store {k : Nat} (s : State) : (s.irq p k).store = s.store := by
  unfold State.irq
  dsimp only
  split
  · split <;> rfl
  · rfl

/-- The store address of the entry that a partition's event ring takes next. -/
def State.eventAddr (s : State) (p : Nat) : Nat :=
  Config.eventRings + 0x10000 * p + 64 * ((s.part p).evtHead.toNat % 1024)

/-- The 64 bytes of the next event entry (Table 3.22). -/
def State.eventEntry (s : State) (p ty index : Nat) (payload : List Byte) : List Byte :=
  le 2 ty ++ le 2 (s.part p).evtLost ++ le 4 (s.part p).evtHead.toNat ++ le 8 s.clk.time.toNat ++ le 1 s.clk.gen.toNat ++
    zs 1 ++ le 2 index ++ zs 4 ++ fit 40 payload

theorem State.eventEntry_length (s : State) (p ty index : Nat) (payload : List Byte) :
    (s.eventEntry p ty index payload).length = 64 := by
  simp [State.eventEntry, le_length, fit_length, zs]

section event

variable {ty index : Nat} {payload : List Byte} (served : s.served p = true) (mode : s.dev.mode ≠ .rusk)
include served mode

theorem State.event_room (room : (s.part p).unread < 1024) :
    s.event p ty index payload =
      ((s.storeWrite (s.eventAddr p) (s.eventEntry p ty index payload)).modPart p fun x =>
        { x with evtHead := x.evtHead + 1, evtLost := 0 }).irq p 1 := by
  unfold State.event
  rw [if_neg (by simp [served, mode])]
  exact if_pos room

theorem State.event_full (full : 1024 ≤ (s.part p).unread) :
    s.event p ty index payload = s.modPart p fun x => { x with evtLost := sat 0xFFFF (x.evtLost + 1) } := by
  unfold State.event
  rw [if_neg (by simp [served, mode])]
  exact if_neg (Nat.not_lt.mpr full)

end event

/-- An event that finds room moves the head on and tells of the events lost before it. -/
theorem State.event_room_part {ty index : Nat} {payload : List Byte} (hp : p < 8) (served : s.served p = true)
    (mode : s.dev.mode ≠ .rusk) (room : (s.part p).unread < 1024) :
    ∃ pba sent, (s.event p ty index payload).part p =
      { s.part p with evtHead := (s.part p).evtHead + 1, evtLost := 0, pba := pba, msiSent := sent } := by
  obtain ⟨pba, sent, window⟩ := State.irq_part (k := 1)
    ((s.storeWrite (s.eventAddr p) (s.eventEntry p ty index payload)).modPart p fun x =>
      { x with evtHead := x.evtHead + 1, evtLost := 0 }) hp
  rw [State.modPart_part_self _ _ hp] at window
  exact ⟨pba, sent, (congrArg (State.part · p) (State.event_room served mode room)).trans window⟩

/-- Settles O56: the two cases of the ring. -/
theorem eventRingKeepsUnreadEvents : Obligations.EventRingKeepsUnreadEvents := by
  intro s p ty index payload hp served mode wf x t a
  refine ⟨fun room => ?_, fun full => ?_⟩
  · obtain ⟨pba, sent, part⟩ := State.event_room_part (ty := ty) (index := index) (payload := payload) hp served mode room
    have length : (s.eventEntry p ty index payload).length = 64 := State.eventEntry_length ..
    have mem : t.store.mem = memWrite s.store.mem a (s.eventEntry p ty index payload) := by
      have entered : t = _ := State.event_room served mode room
      rw [entered, State.irq_store]
      rfl
    have entry : t.storeRead a (s.eventEntry p ty index payload).length = s.eventEntry p ty index payload := by
      rw [State.storeRead, mem]
      exact memRead_memWrite _ _ _ wf
    rw [length] at entry
    refine ⟨(congrArg Part.evtHead part :), (congrArg Part.evtLost part :), (congrArg Part.evtTail part :), entry,
      fun b outside => ?_⟩
    rw [mem]
    exact get_memWrite_outside _ _ _ _ (length ▸ outside)
  · have counted : t = s.modPart p fun x => { x with evtLost := sat 0xFFFF (x.evtLost + 1) } :=
      State.event_full served mode full
    have part := (congrArg (State.part · p) counted).trans (State.modPart_part_self _ _ hp)
    exact ⟨(congrArg State.store counted :), (congrArg Part.evtHead part :), (congrArg Part.evtTail part :),
      (congrArg Part.evtLost part :)⟩

/-! ### Accesses that stay in their window (R77, R79, R80, R106) -/

/-- From `s` to `t` only TIME, with what it logs, the bytes answered and the window of partition `p` changed, and in the
window neither the slots, nor the DONE bits, nor the heartbeat, nor the event head. -/
structure WindowOnly (p : Nat) (s t : State) : Prop where
  state : t = { s with
    clk := t.clk, out := t.out, parts := t.parts, rings := t.rings
    keep := { s.keep with log := t.keep.log, logSeq := t.keep.logSeq, logLost := t.keep.logLost } }
  others : ∀ q, q ≠ p → t.part q = s.part q
  slots : (t.part p).slots = (s.part p).slots
  done : (t.part p).done = (s.part p).done
  hb : (t.part p).hb = (s.part p).hb
  evtHead : (t.part p).evtHead = (s.part p).evtHead

theorem WindowOnly.refl (s : State) : WindowOnly p s s := ⟨rfl, fun _ _ => rfl, rfl, rfl, rfl, rfl⟩

theorem WindowOnly.trans (a : WindowOnly p s t) (b : WindowOnly p t u) : WindowOnly p s u where
  state := by
    have e := b.state
    rw [a.state] at e
    exact e
  others q h := (b.others q h).trans (a.others q h)
  slots := b.slots.trans a.slots
  done := b.done.trans a.done
  hb := b.hb.trans a.hb
  evtHead := b.evtHead.trans a.evtHead

theorem WindowOnly.answers (a : WindowOnly p s t) (out : Out) : WindowOnly p s { t with out := out } where
  state := congrArg (fun x : State => { x with out := out }) a.state
  others := a.others
  slots := a.slots
  done := a.done
  hb := a.hb
  evtHead := a.evtHead

theorem OnlyTime.windowOnly (h : OnlyTime s t) : WindowOnly p s t := by
  unfold OnlyTime at h
  have part (q : Nat) : t.part q = s.part q := by
    rw [h]
    rfl
  refine ⟨?_, fun q _ => part q, ?_, ?_, ?_, ?_⟩
  · rw [h]
  all_goals rw [part]

theorem State.modPart_windowOnly (hp : p < 8) (f : Part → Part)
    (h : ∀ x, f x = { f x with slots := x.slots, done := x.done, hb := x.hb, evtHead := x.evtHead }) :
    WindowOnly p s (s.modPart p f) := by
  refine ⟨rfl, fun q other => State.modPart_part_other _ f other, ?_, ?_, ?_, ?_⟩
  all_goals rw [State.modPart_part_self _ _ hp, h]

theorem State.irq_windowOnly {k : Nat} (hp : p < 8) : WindowOnly p s (s.irq p k) := by
  unfold State.irq
  dsimp only
  split
  · split <;> exact State.modPart_windowOnly hp _ fun _ => rfl
  · exact .refl s

theorem State.irqCause_windowOnly {k : Nat} (hp : p < 8) : WindowOnly p s (s.irqCause p k) := by
  unfold State.irqCause
  split
  · exact .refl s
  · exact (State.modPart_windowOnly hp _ fun _ => rfl).trans
      (State.irq_windowOnly hp)

theorem State.countIgnored_windowOnly (hp : p < 8) : WindowOnly p s (s.countIgnored p) :=
  (State.modPart_windowOnly hp _ fun _ => rfl).trans
    (State.irqCause_windowOnly hp)

theorem State.writeEvtTail_windowOnly {v : Nat} (hp : p < 8) : WindowOnly p s (s.writeEvtTail p v) := by
  unfold State.writeEvtTail
  dsimp only
  split
  · exact State.countIgnored_windowOnly hp
  · exact State.modPart_windowOnly hp _ fun _ => rfl

theorem State.writeIrqEnable_windowOnly {v : Nat} (hp : p < 8) : WindowOnly p s (s.writeIrqEnable p v) := by
  have raised (l : List Nat) (t : State) (h : WindowOnly p s t) : WindowOnly p s (l.foldl (fun u k => u.irq p k) t) := by
    induction l generalizing t with
    | nil => exact h
    | cons k l ih => exact ih _ (h.trans (State.irq_windowOnly hp))
  exact raised _ _ (State.modPart_windowOnly hp _ fun _ => rfl)

theorem State.writeAp_windowOnly {n v : Nat} (hp : p < 8) : WindowOnly p s (s.writeAp p n v) := by
  have selected (f : Part → Tab W32 4) : WindowOnly p s (s.modPart p fun x => { x with aps := f x }) :=
    State.modPart_windowOnly hp _ fun _ => rfl
  unfold State.writeAp
  extract_lets kind word ok t
  split
  · exact selected _
  · exact (selected _).trans (State.countIgnored_windowOnly hp)

theorem State.clearErr_windowOnly (hp : p < 8) : WindowOnly p s (s.clearErr p) := by
  unfold State.clearErr
  split
  · exact State.modPart_windowOnly hp _ fun _ => rfl
  · exact .refl s

/-! ### Rows that access one register -/

theorem hostReg_reached {off : Nat} {f : State → State} (reach : s.reaches w = true) :
    hostReg w off s f = .next (f s) := if_pos reach

theorem State.regWrite_aperture {v : Nat} (n : Fin 4) : s.regWrite p (0x48 + 4 * n.val) v = s.writeAp p n v := by
  match n with
  | 0 | 1 | 2 | 3 => rfl

section reached

variable (reach : (s.elapse dt).reaches w = true)
include reach

theorem execEvtTailWrite_reached (v : W32) :
    execEvtTailWrite dt w v s = .next ((s.elapse dt).writeEvtTail w.part v.toNat) := hostReg_reached reach

theorem execHbWrite_reached (v : W32) :
    execHbWrite dt w v s = .next ((s.elapse dt).writeHb w.part v.toNat) := hostReg_reached reach

theorem execPresetKey_reached (v : W32) :
    execPresetKey dt w v s = .next ((s.elapse dt).writePreset w.part v.toNat) := hostReg_reached reach

theorem execIrqEnableWrite_reached (v : W32) :
    execIrqEnableWrite dt w v s = .next ((s.elapse dt).writeIrqEnable w.part v.toNat) := hostReg_reached reach

theorem execApSelect_reached (n : Fin 4) (v : W32) :
    execApSelect dt w n v s = .next ((s.elapse dt).writeAp w.part n v.toNat) := by
  rw [← State.regWrite_aperture]
  exact hostReg_reached reach

theorem execErrCountRead_reached :
    execErrCountRead dt w s = .next { (s.elapse dt).clearErr w.part with
      out := { bytes := le 4 ((s.elapse dt).regRead w.part 0x0C), poisoned := false } } := hostReg_reached reach

end reached

/-- Settles O54: each of the four rows acts on the window in which its register lies. -/
theorem registerWritesStayInTheirWindow : Obligations.RegisterWritesStayInTheirWindow := by
  intro dt w s u i reach kind row
  have hp : w.part.val < 8 := w.part.isLt
  have time : WindowOnly w.part s (s.elapse dt) := (State.elapse_time s dt).windowOnly
  have only : WindowOnly w.part s u := by
    rcases kind with ⟨v, rfl⟩ | ⟨n, v, rfl⟩ | ⟨v, rfl⟩ | rfl
    · cases (execEvtTailWrite_reached reach v).symm.trans row
      exact time.trans (State.writeEvtTail_windowOnly hp)
    · cases (execApSelect_reached reach n v).symm.trans row
      exact time.trans (State.writeAp_windowOnly hp)
    · cases (execIrqEnableWrite_reached reach v).symm.trans row
      exact time.trans (State.writeIrqEnable_windowOnly hp)
    · cases (execErrCountRead_reached reach).symm.trans row
      have cleared := time.trans (State.clearErr_windowOnly hp)
      exact cleared.answers _
  exact ⟨only.state, only.others, only.slots, only.done, only.hb, only.evtHead⟩

/-! ### Accesses to the store window, links and heartbeats -/

section store

variable {off : Nat} (reach : s.reaches w = true) (pcie : portPcie w.port = true) (inside : off < 0x2000000)
include reach pcie inside

/-- A write to the store window that reaches its partition through PCIe and stays within the window is performed. -/
theorem State.hostAccess_storeWrite {bs : List Byte} (within : off + bs.length ≤ 0x2000000) :
    s.hostAccess { via := w, window := .store, offset := off, phase := .write bs, early := false } =
      s.winWrite w.part .store off bs false := by
  have past : ¬(0x2000000 < off + bs.length) := Nat.not_lt.mpr within
  have start : ¬(0x2000000 ≤ off) := Nat.not_le.mpr inside
  simp [State.hostAccess, accessCount, accessMalformed, windowSize, reach, portQspi_of_portPcie pcie, past, start]

/-- And so is a read, which leaves its bytes in the answer. -/
theorem State.hostAccess_storeRead {n : Nat} (within : off + n ≤ 0x2000000) :
    s.hostAccess { via := w, window := .store, offset := off, phase := .read n, early := false } =
      { (s.winRead w.part .store off n false).2.2 with
        out := { bytes := fit n (s.winRead w.part .store off n false).1,
                 poisoned := (s.winRead w.part .store off n false).2.1 } } := by
  have past : ¬(0x2000000 < off + n) := Nat.not_lt.mpr within
  have start : ¬(0x2000000 ≤ off) := Nat.not_le.mpr inside
  simp [State.hostAccess, accessCount, accessMalformed, windowSize, reach, portQspi_of_portPcie pcie, past, start]

end store

/-- A cause of IRQ_STATUS changes of a window only what tells of interrupts (R79). -/
theorem State.irqCause_hb {k : Nat} (s : State) (q : Nat) (hp : p < 8) : ((s.irqCause p k).part q).hb = (s.part q).hb := by
  have only : WindowOnly p s (s.irqCause p k) := State.irqCause_windowOnly hp
  by_cases own : q = p
  · rw [own, only.hb]
  · rw [only.others q own]

theorem State.irqCause_served {k : Nat} (s : State) (q : Nat) : (s.irqCause p k).served q = s.served q := by
  unfold State.irqCause State.irq
  split
  · rfl
  · dsimp only
    split
    · split <;> rfl
    · rfl

/-- Whether the target of an expired heartbeat takes over, told before and after `p` itself counts as expired (R110). -/
theorem State.expired_target (s : State) (k : Nat) (hp : p < 8) :
    (((s.modPart p fun y => { y with hb := .expired }).irqCause p 4).served k &&
      decide ((((s.modPart p fun y => { y with hb := .expired }).irqCause p 4).part k).hb ≠ .expired)) =
    (s.served k && decide (k ≠ p) && decide ((s.part k).hb ≠ .expired)) := by
  rw [State.irqCause_served, State.irqCause_hb _ _ hp]
  have served : (s.modPart p fun y => { y with hb := .expired }).served k = s.served k := rfl
  rw [served]
  by_cases own : k = p
  · rw [own, State.modPart_part_self _ _ hp]
    simp
  · rw [State.modPart_part_other _ _ own]
    simp [own]

theorem execFunctionLevelReset_starts {p : Fin 8} (ht : s.elapse dt = t) (served : t.served p = true)
    (pcie : portPcie (t.portOf p) = true) (up : t.portOf p ∉ t.linksDown) :
    execFunctionLevelReset dt p s = .next (t.startReset p 2) := by
  unfold execFunctionLevelReset State.functionOf
  simp [ht, served, pcie, up]

theorem execHotReset_resets {l : Port} (ht : s.elapse dt = t) (pcie : portPcie l = true) (up : l ∉ t.linksDown) :
    execHotReset dt l s = .next (t.resetLink l) := by
  unfold execHotReset
  simp [ht, pcie, up]

theorem execLinkDown_resets {l : Port} (ht : s.elapse dt = t) (pcie : portPcie l = true) (up : l ∉ t.linksDown)
    (mode : t.dev.mode ≠ .held) :
    execLinkDown dt l s = .next ({ t with linksDown := t.linksDown ++ [l] }.resetLink l) := by
  unfold execLinkDown
  simp [ht, pcie, up, mode]

theorem execHbLate_late {p : Fin 8} (ht : s.elapse dt = t) (ok : (t.part p).hb = .ok)
    (running : (t.part p).resetting = none) (half : (t.part p).hbAt + 500000 * t.par K.partHbTimeout p ≤ t.now) :
    execHbLate dt p s = .next (((t.modPart p fun y => { y with hb := .late }).irqCause p 3).event p 0x0002 p []) := by
  unfold execHbLate
  simp [ht, ok, running, State.passed, half]

/-- What an expired heartbeat of `p` leaves before its fallback is posted (R110, R111). -/
def State.beatLost (s : State) (p : Nat) : State :=
  ((((List.range 64).foldl (fun y n => if s.par K.qOwner n = p ∧ s.par K.qDir n ≠ 1 then y.flush n 1 false else y)
    ((s.modPart p fun y => { y with hb := .expired }).irqCause p 4)).condOn (0x48 + p) 0 0).raiseU (0x48 + p) 0 1 p true 0)

/-- The heartbeat of `p` expires: HANDOVER where the target can take over, else STOP or HOLD (R110, R111). -/
theorem execHbExpired_falls {p : Fin 8} (ht : s.elapse dt = t) (beat : (t.part p).hb = .ok ∨ (t.part p).hb = .late)
    (running : (t.part p).resetting = none) (due : (t.part p).hbAt + 1000000 * t.par K.partHbTimeout p ≤ t.now) :
    execHbExpired dt p s = .next ((t.beatLost p).postUpdate
      (if decide (t.par K.partHbFallback p = 2) && t.served (t.par K.partHbTarget p) &&
          decide (t.par K.partHbTarget p ≠ p.val) && decide ((t.part (t.par K.partHbTarget p)).hb ≠ .expired) then
        .handOver p (t.par K.partHbTarget p)
      else .fallback p (if t.par K.partHbFallback p = 1 then .hold else .stop) true)) := by
  have live : ¬((t.part p).hb ≠ .ok ∧ (t.part p).hb ≠ .late) := fun h => beat.elim h.1 h.2
  unfold execHbExpired State.beatLost
  extract_lets s' x q v exceeds y z
  subst ht
  rw [if_neg (by simp [s', x, live, running, State.passed, due])]
  have takes : exceeds = (decide (s'.par K.partHbFallback p = 2) && s'.served q && decide (q ≠ p.val) &&
      decide ((s'.part q).hb ≠ .expired)) := by
    have target := State.expired_target s' q p.isLt
    simp only [exceeds, Bool.and_assoc] at target ⊢
    rw [← target]
  have flushed : y = (List.range 64).foldl (fun u k =>
      if s'.par K.qOwner k = p ∧ s'.par K.qDir k ≠ 1 then u.flush k 1 false else u) v := by
    simp only [y, Bool.and_eq_true, decide_eq_true_eq]
  simp only [z, flushed, takes]
  rfl

/-- Settles O49: each row passes the checks of its meaning. -/
theorem hostPortRowsComplete : Obligations.HostPortRowsComplete := by
  refine ⟨fun dt w v s reach => execEvtTailWrite_reached reach v, fun dt w v s reach => execHbWrite_reached reach v,
    fun dt w v s reach => execPresetKey_reached reach v,
    fun dt w n v s reach => execApSelect_reached reach n v,
    fun dt w v s reach => execIrqEnableWrite_reached reach v, fun dt w s reach => execErrCountRead_reached reach,
    fun dt w off bs s reach pcie register aligned length => execRegisterWrite_register reach pcie register aligned length,
    ?storeWrite, ?storeRead, fun dt p s served pcie up => execFunctionLevelReset_starts rfl served pcie up,
    fun dt l s pcie up => execHotReset_resets rfl pcie up,
    fun dt l s pcie up mode => execLinkDown_resets rfl pcie up mode, fun dt l s => rfl,
    fun dt p s ok running half => execHbLate_late rfl ok running half, ?expired, fun s p f => rfl, fun s p k => rfl⟩
  case storeWrite =>
    intro dt w off bs s t reach pcie within inside
    exact congrArg _ (State.hostAccess_storeWrite reach pcie inside within)
  case storeRead =>
    rintro dt w off n s t reach pcie within inside r rfl
    exact congrArg _ (State.hostAccess_storeRead reach pcie inside within)
  case expired =>
    rintro dt p s t beat running due k exceeds u rfl rfl rfl f rfl
    exact execHbExpired_falls rfl beat running due

end Sys2Proof.Machine
end

section
/-! SUPPORT. Reports (R82, R84): the statements that a report changes nothing but its answer and, where it has one, the
bulk range of its request. -/
namespace Sys2Proof.Machine

variable {d : CmdDef} {h : Req → State → Answer} {dt p a n : Nat} {m : Mbox} {r : Req} {s t u : State}

/-! ### Answers that report -/

/-- A handler's answer that refuses, or completes at once in a state that meets `R`. -/
def Answer.Ends (R : State → Prop) (x : Answer) : Prop :=
  match x with
  | .refuse _ _ => True
  | .done _ _ t => R t
  | .later _ _ => False

theorem Answer.ends_refuse {R : State → Prop} {st detail : Nat} : (Answer.refuse st detail).Ends R := trivial

/-- A check before the rest of a handler refuses or lets the rest answer. -/
theorem Answer.ends_check {R : State → Prop} {c : Prop} [Decidable c] {st detail : Nat} {x : Answer}
    (hx : ¬c → x.Ends R) : (if c then .refuse st detail else x : Answer).Ends R := by
  split
  · exact Answer.ends_refuse
  · next failed => exact hx failed

/-- A command whose handler leaves the state as it finds it. -/
theorem mailbox_onlyAnswers (hh : ∀ r s, (h r s).Ends (· = s)) (hs : Serves d dt m s)
    (e : mailbox d h dt m s = .next u) : AnswerOnly m.via.part s u := by
  have hp : m.via.part.val < 8 := m.via.part.isLt
  have answer := hh (reqOf d.code m) (s.taken d.code dt m)
  refine mailbox_leaves (R := AnswerOnly m.via.part s) hs e hs.inHand (fun st data t done => ?_) (fun l t later => ?_)
    (fun t ht => ht.trans State.relayDone_only.answer) (fun t st detail data ht => ht.trans (State.respond_answer hp))
  · rw [done] at answer
    obtain rfl : t = s.taken d.code dt m := answer
    exact ⟨hs.taken, hs.taken_accepted⟩
  · rw [later] at answer
    exact answer

/-! ### The thirteen reports without a bulk range -/

theorem hGetInfo_onlyAnswers (r : Req) (s : State) : (hGetInfo r s).Ends (· = s) := rfl

theorem hPartStatus_onlyAnswers (r : Req) (s : State) : (hPartStatus r s).Ends (· = s) :=
  Answer.ends_check fun _ => Answer.ends_check fun _ => rfl

theorem hRightsList_onlyAnswers (r : Req) (s : State) : (hRightsList r s).Ends (· = s) := by
  unfold hRightsList
  dsimp only
  split
  · exact Answer.ends_refuse
  · exact Answer.ends_check fun _ => rfl

theorem hParamLookup_onlyAnswers (r : Req) (s : State) : (hParamLookup r s).Ends (· = s) := by
  unfold hParamLookup
  dsimp only
  split
  · exact Answer.ends_refuse
  · exact rfl

theorem hEpochStatus_onlyAnswers (r : Req) (s : State) : (hEpochStatus r s).Ends (· = s) := rfl

theorem hChanStatus_onlyAnswers (r : Req) (s : State) : (hChanStatus r s).Ends (· = s) :=
  Answer.ends_check fun _ => rfl

theorem hLcRead_onlyAnswers (r : Req) (s : State) : (hLcRead r s).Ends (· = s) := rfl

theorem hLatStatus_onlyAnswers (r : Req) (s : State) : (hLatStatus r s).Ends (· = s) :=
  Answer.ends_check fun _ => Answer.ends_check fun _ => rfl

theorem hSyncStatus_onlyAnswers (r : Req) (s : State) : (hSyncStatus r s).Ends (· = s) :=
  Answer.ends_check fun _ => Answer.ends_check fun _ => rfl

theorem hQStatus_onlyAnswers (r : Req) (s : State) : (hQStatus r s).Ends (· = s) :=
  Answer.ends_check fun _ => Answer.ends_check fun _ => rfl

theorem hStoreStatus_onlyAnswers (r : Req) (s : State) : (hStoreStatus r s).Ends (· = s) := rfl

theorem hFaultSummary_onlyAnswers (r : Req) (s : State) : (hFaultSummary r s).Ends (· = s) := rfl

theorem hBootStatus_onlyAnswers (r : Req) (s : State) : (hBootStatus r s).Ends (· = s) := rfl

/-- Settles O50: the handler of each of the thirteen commands leaves the state as it finds it. -/
theorem reportsChangeOnlyTheirAnswer : Obligations.ReportsChangeOnlyTheirAnswer := fun _ _ _ _ =>
  ⟨mailbox_onlyAnswers hGetInfo_onlyAnswers, mailbox_onlyAnswers hPartStatus_onlyAnswers, mailbox_onlyAnswers hRightsList_onlyAnswers,
    mailbox_onlyAnswers hParamLookup_onlyAnswers, mailbox_onlyAnswers hEpochStatus_onlyAnswers, mailbox_onlyAnswers hChanStatus_onlyAnswers,
    mailbox_onlyAnswers hLcRead_onlyAnswers, mailbox_onlyAnswers hLatStatus_onlyAnswers, mailbox_onlyAnswers hSyncStatus_onlyAnswers,
    mailbox_onlyAnswers hQStatus_onlyAnswers, mailbox_onlyAnswers hStoreStatus_onlyAnswers, mailbox_onlyAnswers hFaultSummary_onlyAnswers,
    mailbox_onlyAnswers hBootStatus_onlyAnswers⟩

/-! ### The relation `BulkOnly` -/

/-- What is answered does not depend on the store. -/
theorem AnswerOnly.overStore (k : AnswerOnly p s t) (b : Store) :
    AnswerOnly p { s with store := b } { t with store := b } where
  state := congrArg (fun x : State => { x with store := b }) k.state
  others := k.others
  window := k.window

theorem BulkOnly.trans (j : BulkOnly p a n s t) (k : BulkOnly p a n t u) : BulkOnly p a n s u where
  answer := j.answer.trans (k.answer.overStore s.store)
  store := by rw [k.store, j.store]
  bytes x outside := (k.bytes x outside).trans (j.bytes x outside)

theorem AnswerOnly.bulkOnly (k : AnswerOnly p s t) : BulkOnly p a n s t := by
  have store : t.store = s.store := by rw [k.state]
  exact ⟨k.overStore s.store, by rw [store], fun x _ => by rw [store]⟩

theorem State.storeWrite_bulkOnly {bs : List Byte} (fits : bs.length ≤ n) : BulkOnly p a n s (s.storeWrite a bs) where
  answer := (show OnlyTime s s from rfl).answer
  store := rfl
  bytes _ outside := get_memWrite_outside _ _ _ _ (outside.imp_right fun beyond => (Nat.add_le_add_left fits a).trans beyond)

/-- An answer moves no bulk range (R76). -/
theorem AnswerOnly.bulkBase (k : AnswerOnly p s t) (q : Nat) : t.bulkBase q = s.bulkBase q := by
  rw [k.state]
  rfl

/-! ### Answers that write the bulk range -/

/-- From `s` to `t` the handler of `r` wrote bytes that fit its bulk range (R84). -/
def Req.Writes (r : Req) (s t : State) : Prop :=
  ∃ bs : List Byte, bs.length ≤ r.bulkLen ∧ t = s.storeWrite (s.bulkBase r.part + r.bulkOff) bs

/-- A command whose handler writes its bulk range only. -/
theorem mailbox_writesBulk (hh : ∀ r s, (h r s).Ends (r.Writes s)) (hs : Serves d dt m s)
    (e : mailbox d h dt m s = .next u) :
    BulkOnly m.via.part (s.bulkBase m.via.part + m.rq.bulkOff.toNat) m.rq.bulkLen.toNat s u := by
  have hp : m.via.part.val < 8 := m.via.part.isLt
  have answer := hh (reqOf d.code m) (s.taken d.code dt m)
  refine mailbox_leaves (R := BulkOnly _ _ _ s) hs e hs.inHand.bulkOnly (fun st data t done => ?_) (fun l t later => ?_)
    (fun t ht => ht.trans State.relayDone_only.answer.bulkOnly)
    (fun t st detail data ht => ht.trans (State.respond_answer hp).bulkOnly)
  · rw [done] at answer
    obtain ⟨bs, fits, rfl⟩ := answer
    rw [hs.taken.bulkBase]
    exact ⟨hs.taken.bulkOnly.trans (State.storeWrite_bulkOnly fits), hs.taken_accepted⟩
  · rw [later] at answer
    exact answer

/-- `bulkReply` checks that its bytes fit. -/
theorem bulkReply_writes (data : List Byte) : (bulkReply r data s).Ends (r.Writes s) :=
  Answer.ends_check fun fits => ⟨data, by simp at fits; omega, rfl⟩

/-! ### The lengths of the records -/

/-- Records of one length, one behind the other. -/
theorem flatten_map_length {α : Type} {f : α → List Byte} (length : ∀ x, (f x).length = n) (xs : List α) :
    (xs.map f).flatten.length = n * xs.length := by
  induction xs with
  | nil => rfl
  | cons x xs ih => rw [List.map_cons, List.flatten_cons, List.length_append, ih, length, List.length_cons]; ring

theorem zs_length (n : Nat) : (zs n).length = n := List.length_replicate

theorem LogRec.bytes_length (x : LogRec) : x.bytes.length = 32 := by
  simp only [LogRec.bytes, List.length_append, le_length]

theorem BootRec.bytes_length (x : BootRec) : x.bytes.length = 32 := by
  simp only [BootRec.bytes, List.length_append, le_length, zs_length]

theorem Hist.bytes_length (x : Hist) : x.bytes.length = 32 := by
  simp only [Hist.bytes, List.length_append, le_length, zs_length]

theorem s16_length (v : Int) : (s16 v).length = 2 := le_length ..

theorem State.ageHist_length (s : State) (xs : List Int) :
    (s.ageHist xs).1.length = 2 ∧ (s.ageHist xs).2.length = 4 := by
  unfold State.ageHist
  split
  · exact ⟨rfl, rfl⟩
  · simp [s16_length]

theorem State.ageHeader_length (s : State) : s.ageHeader.length = 64 := by
  unfold State.ageHeader
  extract_lets a k weak
  simp only [List.length_append, le_length, s16_length, zs_length]

theorem State.ageDomain_length (s : State) (k : Nat) : (s.ageDomain k).length = 16 := by
  simp only [State.ageDomain, List.length_append, le_length, s16_length, zs_length]

theorem State.ageChannel_length (s : State) (c : Nat) : (s.ageChannel c).length = 48 := by
  simp only [State.ageChannel, List.length_append, le_length, s16_length, zs_length, State.ageHist_length]

theorem State.ageReport_length (s : State) : s.ageReport.length = 1712 := by
  simp only [State.ageReport, List.length_append, State.ageHeader_length, flatten_map_length s.ageDomain_length,
    flatten_map_length s.ageChannel_length, List.length_range]

theorem State.admitReport_length (s : State) (stage : Stage) : (s.admitReport stage).length = 1072 := by
  unfold State.admitReport
  dsimp only
  rw [List.length_append, flatten_map_length (n := 32) fun c => by
    simp only [List.length_append, le_length, zs_length]]
  simp only [List.length_append, le_length, zs_length, flatten_map_length (fun _ => le_length 4 _), allChans, List.length_range]

/-! ### The eight reports with a bulk range -/

theorem hAdmitReport_writes (r : Req) (s : State) : (hAdmitReport r s).Ends (r.Writes s) :=
  Answer.ends_check fun _ => Answer.ends_check fun _ => Answer.ends_check fun fits =>
    ⟨_, (State.admitReport_length ..).le.trans (Nat.le_of_not_lt fits), rfl⟩

theorem hRuleRead_writes (r : Req) (s : State) : (hRuleRead r s).Ends (r.Writes s) := by
  refine Answer.ends_check fun _ => Answer.ends_check fun _ => Answer.ends_check fun _ => Answer.ends_check fun _ => ?_
  split
  · exact bulkReply_writes _
  · split
    · exact bulkReply_writes _
    · exact Answer.ends_refuse

theorem hSchedRead_writes (r : Req) (s : State) : (hSchedRead r s).Ends (r.Writes s) :=
  Answer.ends_check fun _ => bulkReply_writes _

theorem hSigRead_writes (r : Req) (s : State) : (hSigRead r s).Ends (r.Writes s) :=
  Answer.ends_check fun _ => Answer.ends_check fun _ => bulkReply_writes _

theorem hLogRead_writes (r : Req) (s : State) : (hLogRead r s).Ends (r.Writes s) :=
  Answer.ends_check fun fits => ⟨_, by
    rw [flatten_map_length LogRec.bytes_length]
    have count := List.length_take_le (r.u 4 2) (s.keep.log.filter fun x =>
      0 ≤ (x.seq - BitVec.ofNat 32 (r.u 0 4)).toInt && s.mayReadLog r.part x)
    omega, rfl⟩

theorem hBootRecords_writes (r : Req) (s : State) : (hBootRecords r s).Ends (r.Writes s) :=
  Answer.ends_check fun _ => Answer.ends_check fun fits => ⟨_, by
    rw [flatten_map_length BootRec.bytes_length, List.length_drop]
    omega, rfl⟩

theorem hAgeReport_writes (r : Req) (s : State) : (hAgeReport r s).Ends (r.Writes s) :=
  Answer.ends_check fun fits => ⟨_, s.ageReport_length.le.trans (Nat.le_of_not_lt fits), rfl⟩

theorem hAgeHistory_writes (r : Req) (s : State) : (hAgeHistory r s).Ends (r.Writes s) :=
  Answer.ends_check fun _ => Answer.ends_check fun fits => ⟨_, by
    rw [flatten_map_length Hist.bytes_length]
    have count := List.length_take_le (r.u 2 2) ((if r.u 0 1 = 0 then s.keep.daily else s.keep.long).filter fun x =>
      0 ≤ (x.seq - BitVec.ofNat 32 (r.u 4 4)).toInt)
    omega, rfl⟩

/-- Settles O51: the bytes that the handler of each of the eight commands writes fit the bulk range. -/
theorem bulkReportsWriteOnlyTheirRange : Obligations.BulkReportsWriteOnlyTheirRange := fun _ _ _ _ =>
  ⟨mailbox_writesBulk hAdmitReport_writes, mailbox_writesBulk hRuleRead_writes, mailbox_writesBulk hSchedRead_writes,
    mailbox_writesBulk hSigRead_writes, mailbox_writesBulk hLogRead_writes, mailbox_writesBulk hBootRecords_writes,
    mailbox_writesBulk hAgeReport_writes, mailbox_writesBulk hAgeHistory_writes⟩

end Sys2Proof.Machine
end

section
/-! SUPPORT. The commands of a partition on itself: reports, rights, parameters and commits (R93 to R96, R102 to R105,
R115). -/
namespace Sys2Proof.Machine

variable {dt p : Nat} {m : Mbox} {r : Req} {s t : State}

/-! ### Reports (R96, R104, R115, R466) -/

theorem hPartStatus_reports (hp : p = r.u 0 1) (range : p ≤ 7) (own : r.part = 0 ∨ r.part = p) :
    hPartStatus r s = .done stOk
      (let ids := (s.commits.filter (·.part = p)).map fun (k : Commit) => k.id.toNat
       le 1 p ++ le 1 (s.part p).hb.code ++ le 2 (s.hbAge p) ++ le 4 (s.stateReg p) ++ le 4 (s.part p).errCount ++
         le 2 (sat 0xFFFF ids.length) ++ le 1 (min ids.length 120) ++ zs 1 ++
         ((ids.take (min ids.length 120)).map (le 4)).flatten) s := by
  subst hp
  have mine : ¬(r.part ≠ 0 ∧ r.part ≠ r.u 0 1) := by rintro ⟨other, stranger⟩; exact own.elim other stranger
  exact (if_neg (Nat.not_lt.mpr range)).trans (if_neg (by simpa using mine))

theorem hRightsList_reports {c : PRes} {n : Nat} (cls : resOfClass (r.u 0 1) = some (c, n)) (range : r.u 2 2 < n) :
    hRightsList r s = .done stOk
      (le 1 (r.u 0 1) ++ le 1 (s.ownerOf c (r.u 2 2)) ++ le 2 (r.u 2 2) ++
        le 1 ((List.range 8).map fun p => flag p (s.expertOn p c (r.u 2 2))).sum ++ zs 3) s := by
  simp only [hRightsList, cls]
  exact if_neg (Nat.not_le.mpr range)

theorem hParamLookup_reports {d : PDesc}
    (named : pNamed (String.ofList ((r.data.takeWhile (· ≠ 0)).map fun b => Char.ofNat b.toNat)) = some d) :
    hParamLookup r s = .done stOk (le 4 (keyId d.num 0) ++ le 1 (if d.expert then 1 else 0) ++ le 1 d.commit ++
      le 1 d.ty ++ zs 1 ++ le 2 (pSize d.ty) ++ zs 6) s := by
  simp only [hParamLookup, named]

/-- Settles O16. -/
theorem reportsComplete : Obligations.ReportsComplete :=
  ⟨fun _ _ _ hs => mailbox_done hs rfl,
   fun _ _ _ hs _ hp range own => mailbox_done hs (hPartStatus_reports hp range own),
   fun _ _ _ hs _ _ cls range => mailbox_done hs (hRightsList_reports cls range),
   fun _ _ _ hs => mailbox_done hs rfl,
   fun _ _ _ hs _ named => mailbox_done hs (hParamLookup_reports named)⟩

/-! ### Rights (R96, R108) -/

/-- A change of the right of `p` on resource `i` of class `c`, told to `p` and to the owner. -/
def State.changedRight (s : State) (r : Req) (c : PRes) (i p : Nat) (on : Bool) : State :=
  let pay := le 1 (r.u 0 1) ++ le 1 p ++ le 1 (if on then 1 else 0)
  let u := (s.setRights c i p on).event p 0x0008 i pay
  if s.ownerOf c i = p then u else u.event (s.ownerOf c i) 0x0008 i pay

section rights

variable {c : PRes} {k i : Nat} {on : Bool}
variable (cls : resOfClass (r.u 0 1) = some (c, k)) (hp : p = r.u 1 1) (hi : i = r.u 2 2) (partition : p ≤ 7)
  (range : i < k) (may : s.mayOperate r.part c i = true)

include cls hp hi partition range may

theorem State.rightsCmd_changes (other : ¬(p = s.ownerOf c i ∧ r.part ≠ 0)) (plain : p ≠ 0)
    (change : s.expertOn p c i = !on) :
    State.rightsCmd on r s = .done stOk [] (s.changedRight r c i p on) := by
  subst hp hi
  simp only [State.rightsCmd, cls]
  rw [if_neg (by omega), if_neg (by omega), if_neg (by simp [may]), if_neg (by simpa using other),
    if_neg (by simp [plain, change])]
  rfl

theorem State.rightsCmd_denied (own : p = s.ownerOf c i) (plain : r.part ≠ 0) :
    State.rightsCmd on r s = .refuse stDenied 17 := by
  subst hp hi
  simp only [State.rightsCmd, cls]
  rw [if_neg (by omega), if_neg (by omega), if_neg (by simp [may]), if_pos (by simp [← own, plain])]

end rights

/-- The bit of partition `p` in a resource's byte of grants, once it is set or cleared. -/
theorem bitOf_granted (bits : Nat) (on : Bool) (hp : p ≤ 7) :
    bitOf (if on then bits ||| 2 ^ p else bits &&& (255 - 2 ^ p)) p = on := by
  have test (v : Nat) : bitOf v p = v.testBit p := (Nat.testBit_eq_decide_div_mod_eq ..).symm
  rw [test]
  cases on
  · have cleared : (255 - 2 ^ p).testBit p = false := by interval_cases p <;> decide
    simp [Nat.testBit_and, cleared]
  · simp [Nat.testBit_or, Nat.testBit_two_pow_self]

theorem State.setRights_ownerOf (s : State) (c : PRes) (i p : Nat) (on : Bool) :
    (s.setRights c i p on).ownerOf c i = s.ownerOf c i := by
  unfold State.setRights
  dsimp only
  split <;> rfl

/-- A partition other than P0 holds the right afterwards, or holds it no more (R96). -/
theorem State.setRights_expertOn {c : PRes} {i : Nat} {on : Bool} (plain : p ≠ 0) (hp : p ≤ 7)
    (grants : SMap.wf 0 s.expert = true) (revocations : SMap.wf 0 s.revoked = true) :
    (s.setRights c i p on).expertOn p c i = on := by
  unfold State.expertOn
  rw [State.setRights_ownerOf]
  by_cases owner : s.ownerOf c i = p
  · cases on
    · simp [State.setRights, owner, plain, SMap.get, SMap.find_put_self]
    · simp [State.setRights, owner, SMap.get, SMap.find_erase_self _ revocations]
  · have granted : bitOf (SMap.get 0 (s.setRights c i p on).expert (resKey c i)) p = on := by
      simp only [State.setRights, owner, if_false, SMap.get_set_self _ _ grants, bitOf_granted _ _ hp]
    simp [owner, plain, granted]

/-- Settles O18. -/
theorem rightsCommandsComplete : Obligations.RightsCommandsComplete :=
  ⟨fun _ _ _ hs _ _ _ _ cls hp hi partition range may other plain without =>
      mailbox_done hs (State.rightsCmd_changes cls hp hi partition range may other plain without),
   fun _ _ _ hs _ _ _ _ cls hp hi partition range may other plain with_ =>
      mailbox_done hs (State.rightsCmd_changes cls hp hi partition range may other plain with_),
   fun _ _ _ hs _ _ _ _ cls hp hi partition range may own plain =>
      mailbox_refused hs (State.rightsCmd_denied cls hp hi partition range may own plain),
   fun _ _ _ hs _ _ _ _ cls hp hi partition range may own plain =>
      mailbox_refused hs (State.rightsCmd_denied cls hp hi partition range may own plain),
   fun _ _ _ _ _ plain hp grants revocations => State.setRights_expertOn plain hp grants revocations⟩

/-! ### Parameters (R92 to R94) -/

section set

variable {bs : List Byte} (read : bs = (if r.bulkLen ≠ 0 then s.bulkIn r else r.data.drop 8))
  (whole : r.bulkLen ≠ 0 → r.bulkLen = entriesEnd bs (r.u 0 2) 0 ∧
    s.poisoned (s.bulkBase r.part + r.bulkOff) r.bulkLen = false)

include read whole

theorem hParamSet_refuses {i st : Nat} (bad : firstEntry (s.entryBad r.part) (entriesAt bs (r.u 0 2) 0) = some (i, st)) :
    hParamSet r s = .refuse st i := by
  unfold hParamSet
  simp only [decide_eq_true_eq, ← read, bad]
  rw [if_neg (by simpa using fun bulk => (whole bulk).1), if_neg (by simpa using fun bulk => (whole bulk).2)]

theorem hParamSet_applies {u : State} {st : Nat} 
    (good : firstEntry (s.entryBad r.part) (entriesAt bs (r.u 0 2) 0) = none)
    (fit : s.setBad (entriesAt bs (r.u 0 2) 0) (stageEntries (entriesAt bs (r.u 0 2) 0) (s.stage r.part)) = none)
    (applied : u = (entriesAt bs (r.u 0 2) 0).foldl (State.applyEntry r.part) s)
    (status : st = (if (entriesAt bs (r.u 0 2) 0).any fun e => (pDesc e.num).any fun d => d.commit = 1 then stStaged
      else stOk)) :
    hParamSet r s = if u.upd.posted = s.upd.posted then .done st [] u else .later (r.long st u.upd.posted true) u := by
  have epoch (e : PEntry) : ((pDesc e.num).any fun d => d.commit = 1) =
      match pDesc e.num with | some d => decide (d.commit = 1) | none => false := by
    cases pDesc e.num <;> rfl
  simp only [epoch] at status
  rw [applied, status]
  unfold hParamSet
  simp only [decide_eq_true_eq, ← read, good, fit]
  exact (if_neg (by simpa using fun bulk => (whole bulk).1)).trans (if_neg (by simpa using fun bulk => (whole bulk).2))

end set

/-- Settles O20. -/
theorem paramSetCompletes : Obligations.ParamSetCompletes := by
  refine ⟨fun dt m s hs bs read whole good fit u st applied status => ?_,
    fun dt m s hs bs i st read whole bad => mailbox_refused hs (hParamSet_refuses read whole bad)⟩
  have row := hParamSet_applies read whole good fit applied status
  exact ⟨fun none => mailbox_done hs (row.trans (if_pos none)), fun posted => mailbox_later hs (row.trans (if_neg posted))⟩

section get

variable {es : List PEntry} {out : List Byte} (range : r.u 2 1 ≤ 1)
  (known : firstEntry (fun e => e.keyBad true) es = none)
  (hout : out = (es.map (s.entryOut (decide (r.u 2 1 = 1)))).flatten)

include range known hout

theorem hParamGet_inline (direct : r.bulkLen = 0) (hes : es = entriesBare (r.data.drop 8) (r.u 0 2))
    (fits : 8 + out.length ≤ 496) : hParamGet r s = .done stOk (le 2 (r.u 0 2) ++ zs 6 ++ out) s := by
  unfold hParamGet
  simp only [direct, ne_eq, not_true_eq_false, decide_false, Bool.false_and, Bool.false_eq_true, if_false, ← hes, known,
    ← hout]
  rw [if_neg (Nat.not_lt.mpr range), if_neg (Nat.not_lt.mpr fits)]

theorem hParamGet_bulk (long : r.bulkLen ≠ 0) (asked : 8 * r.u 0 2 ≤ r.bulkLen)
    (clean : s.poisoned (s.bulkBase r.part + r.bulkOff) (8 * r.u 0 2) = false)
    (hes : es = entriesBare (s.bulkIn r) (r.u 0 2)) (fits : out.length ≤ r.bulkLen) :
    hParamGet r s = .done stOk (le 4 out.length) (s.storeWrite (s.bulkBase r.part + r.bulkOff) out) := by
  unfold hParamGet
  simp only [long, ne_eq, not_false_eq_true, decide_true, Bool.true_and, if_true, decide_eq_true_eq, ← hes, known, ← hout]
  rw [if_neg (Nat.not_lt.mpr range), if_neg (Nat.not_lt.mpr asked), if_neg (by simp [clean]),
    if_neg (Nat.not_lt.mpr fits)]

end get

/-- Settles O21. -/
theorem paramGetCompletes : Obligations.ParamGetCompletes :=
  ⟨fun _ _ _ hs range direct _ _ hes known hout fits =>
      mailbox_done hs (hParamGet_inline range known hout direct hes fits),
   fun _ _ _ hs range long asked clean _ _ hes known hout fits =>
      mailbox_done hs (hParamGet_bulk range known hout long asked clean hes fits)⟩

/-! ### Commits (R102 to R105) -/

section commit

theorem hEpochCommit_nothing (empty : (s.stage r.part).any = false) :
    hEpochCommit r s = .done stOk (commitReply 0 0 0xFF 0) s := if_pos (by simp [empty])

variable (staged : (s.stage r.part).any = true) (admitted : s.admission (s.stage r.part) none = 0)

include staged admitted

theorem hEpochCommit_dryRun (dry : bitOf (r.u 0 1) 0 = true) :
    hEpochCommit r s = .done stOk (commitReply 0 0 0xFF 0) s :=
  (if_neg (by simp [staged])).trans ((if_pos dry).trans (if_neg (by simp [admitted])))

/-- The state in which the commit `k` of partition `k.part` is pending, under the record `x` (R103, R104). -/
def State.committed (s : State) (k : Commit) (x : CommitRec) : State :=
  (({ s with
      commits := s.commits ++ [k]
      dev := { s.dev with nextCommit := if s.dev.nextCommit = 0xFFFFFFFF then 1 else s.dev.nextCommit + 1 } } : State)
    |>.modStage k.part fun _ => Stage.empty).modPart k.part fun p =>
      { p with commits := (p.commits ++ [x]).drop (p.commits.length + 1 - 16) }

theorem hEpochCommit_commits {lc : Nat} {b : W64} {id : W32}
    (free : s.commits.all (fun k => !s.overlap k.chans (s.stage r.part) k.stage) = true)
    (real : bitOf (r.u 0 1) 0 = false)
    (hlc : lc = (match s.boundaryOf (s.stage r.part) with | some (some n) => n | _ => 0xFF))
    (hb : b = (if lc = 0xFF then 0 else BitVec.ofNat 64 (s.par K.lcEpochAt lc)))
    (hid : id = BitVec.ofNat 32 s.dev.nextCommit) :
    hEpochCommit r s = .done stStaged (commitReply id (if lc = 0xFF then 2 else 1) lc b)
      (s.committed
        { id := id, part := r.part, stage := s.stage r.part, lc := lc, boundary := b, hit := none,
          chans := s.affects (s.stage r.part), seen := if lc = 0xFF then 0 else s.lcVal lc }
        { id := id, state := 0, lc := lc, gen := 0, time := 0, coord := b }) := by
  subst hlc hb hid
  unfold hEpochCommit
  extract_lets g cs d
  rw [if_neg (by simpa using staged), if_neg (by simp [real]), if_neg (by simpa using free), if_neg (by simp [d, g, admitted])]
  rfl

end commit

theorem hEpochCancel_cancels {id : W32} {k : Commit} (hid : id = BitVec.ofNat 32 (r.u 0 4))
    (found : s.commits.find? (fun k => k.id = id) = some k) (own : k.part = r.part) :
    hEpochCancel r s = .done stOk []
      ((({ s with commits := s.commits.filter fun (x : Commit) => x.id ≠ id } : State).modStage r.part fun g =>
        g.giveBack k.stage).modPart r.part fun p =>
          { p with commits := p.commits.map fun (x : CommitRec) =>
              if x.id = id && x.state = 0 then { x with state := 2 } else x }) := by
  subst hid
  simp only [hEpochCancel, found]
  exact if_neg (by simpa using own)

theorem execEpochSwitch_switches {id : W32} (ready : s.dev.mode = .ready) (due : (s.elapse dt).tickDue = true) :
    execEpochSwitch dt id s = .next ((s.elapse dt).seekAll.switchIf id) := by
  have dev : (s.elapse dt).seekAll.dev = s.dev := by
    show (s.elapse dt).dev = _
    rw [State.elapse_time s dt]
  have tick : (s.elapse dt).seekAll.tickDue = true := due
  exact if_pos (by simp [dev, ready, tick])

/-- Settles O22. -/
theorem epochCommandsComplete : Obligations.EpochCommandsComplete :=
  ⟨fun _ _ _ hs empty => mailbox_done hs (hEpochCommit_nothing empty),
   fun _ _ _ hs staged admitted dry => mailbox_done hs (hEpochCommit_dryRun staged admitted dry),
   fun _ _ _ hs staged free admitted real _ _ _ hlc hb hid =>
      mailbox_done hs (hEpochCommit_commits staged admitted free real hlc hb hid),
   fun _ _ _ hs _ _ hid found own => mailbox_done hs (hEpochCancel_cancels hid found own),
   fun _ _ _ hs => mailbox_done hs rfl,
   fun _ _ _ ready due => execEpochSwitch_switches ready due⟩

end Sys2Proof.Machine
end

section
/-! SUPPORT. Partition resets (R89, R112, R113): how one starts, and what PARTITION_RESET_DONE does in time and late. -/
namespace Sys2Proof.Machine

variable {p q dt : Nat} {m : Mbox} {r : Req} {s t u : State}

/-! ### The start (R112) -/

theorem hPartReset_starts (named : r.u 0 1 ≠ 0) (range : r.u 0 1 ≤ 7) (master : r.part = 0)
    (mapped : s.portOf (r.u 0 1) ≠ .none) (free : (s.part (r.u 0 1)).resetting = none) :
    hPartReset r s = .later (r.long (r.u 0 1) 0 false) (s.startReset (r.u 0 1) 1) := by
  unfold hPartReset
  dsimp only
  rw [if_neg (by simp [named]; omega), if_neg (by simp [master]), if_neg mapped, if_neg (by simp [free])]

theorem State.startReset_marks {origin : Nat} (hp : p < 8) (free : (s.part p).resetting = none) :
    ((s.startReset p origin).part p).resetting = some origin ∧ ((s.startReset p origin).part p).accepted = [] ∧
      ∀ l ∈ (s.startReset p origin).longs, l.part = p → l.discard = true := by
  unfold State.startReset
  rw [if_neg (by simp [free])]
  have window := State.modPart_part_self (s := s) (fun x => { x with resetting := some origin, accepted := [] }) hp
  refine ⟨(congrArg Part.resetting window :), (congrArg Part.accepted window :), fun l listed own => ?_⟩
  obtain ⟨l', -, rfl⟩ := List.mem_map.mp listed
  by_cases mine : l'.part = p
  · simp [mine]
  · simp [mine] at own

/-! ### What the steps that follow a reset leave alone -/

/-- From `s` to `t` the parameters, TIME, the coordinates, what is staged, and in the window of `p` what a reset sets did
not change, and no request of `p` came in. -/
structure Settled (p : Nat) (s t : State) : Prop where
  params : t.params = s.params
  clk : t.clk = s.clk
  lcs : t.lcs = s.lcs
  stages : t.stages = s.stages
  resetting : (t.part p).resetting = (s.part p).resetting
  refused : (t.part p).refused = (s.part p).refused
  irqEnable : (t.part p).irqEnable = (s.part p).irqEnable
  accepted : (s.part p).accepted = [] → (t.part p).accepted = []

theorem Settled.refl (s : State) : Settled p s s := ⟨rfl, rfl, rfl, rfl, rfl, rfl, rfl, id⟩

theorem Settled.trans (a : Settled p s t) (b : Settled p t u) : Settled p s u where
  params := b.params.trans a.params
  clk := b.clk.trans a.clk
  lcs := b.lcs.trans a.lcs
  stages := b.stages.trans a.stages
  resetting := b.resetting.trans a.resetting
  refused := b.refused.trans a.refused
  irqEnable := b.irqEnable.trans a.irqEnable
  accepted := b.accepted ∘ a.accepted

theorem Settled.foldl {α : Type} {f : State → α → State} (step : ∀ u x, Settled p u (f u x)) (xs : List α) (s : State) :
    Settled p s (xs.foldl f s) := by
  induction xs generalizing s with
  | nil => exact .refl s
  | cons x xs ih => exact (step s x).trans (ih _)

/-- A change of a window that leaves alone what a reset sets. -/
theorem State.modPart_settled (f : Part → Part)
    (h : ∀ x, f x = { f x with resetting := x.resetting, refused := x.refused, irqEnable := x.irqEnable } := by
      intro; rfl)
    (drop : q = p → (s.part p).accepted = [] → (f (s.part p)).accepted = [] := by exact fun _ => id) :
    Settled p s (s.modPart q f) := by
  have window : (s.modPart q f).part p = if p = q ∧ q < 8 then f (s.part p) else s.part p := State.modPart_part ..
  by_cases own : p = q ∧ q < 8
  · rw [if_pos own] at window
    exact ⟨rfl, rfl, rfl, rfl, by rw [window, h], by rw [window, h], by rw [window, h], window ▸ drop own.1.symm⟩
  · rw [if_neg own] at window
    exact ⟨rfl, rfl, rfl, rfl, by rw [window], by rw [window], by rw [window], by rw [window]; exact id⟩

theorem State.storeWrite_settled (a : Nat) (bs : List Byte) : Settled p s (s.storeWrite a bs) :=
  ⟨rfl, rfl, rfl, rfl, rfl, rfl, rfl, id⟩

theorem State.irq_settled (k : Nat) : Settled p s (s.irq q k) := by
  unfold State.irq
  dsimp only
  split
  · split
    · exact State.modPart_settled _
    · exact State.modPart_settled _
  · exact .refl s

theorem State.irqCause_settled (k : Nat) : Settled p s (s.irqCause q k) := by
  unfold State.irqCause
  split
  · exact .refl s
  · exact (State.modPart_settled _).trans (State.irq_settled k)

theorem State.event_settled (ty index : Nat) (payload : List Byte) : Settled p s (s.event q ty index payload) := by
  unfold State.event
  split
  · exact .refl s
  · dsimp only
    split
    · exact (State.storeWrite_settled _ _).trans (Settled.trans (State.modPart_settled _) (State.irq_settled 1))
    · exact State.modPart_settled _

theorem State.respond_settled (slot code : Nat) (tag : W16) (st detail : Nat) (data : List Byte) :
    Settled p s (s.respond q slot code tag st detail data) :=
  (State.modPart_settled _).trans (State.irq_settled 0)

/-- Unknown codes that are answered leave the window's accepted requests. -/
theorem State.drain_settled (n : Nat) : Settled p s (s.drain q n) := by
  induction n generalizing s with
  | zero => exact .refl s
  | succ n ih =>
    unfold State.drain
    split
    · next a rest front =>
      split
      · exact .refl s
      · have drop : q = p → (s.part p).accepted = [] → rest = [] := by
          rintro rfl empty
          cases front.symm.trans empty
        exact (State.modPart_settled _ (drop := drop)).trans ((State.respond_settled ..).trans ih)
    · exact .refl s

theorem State.finish_settled (l : Long) (st detail : Nat) (data : List Byte) : Settled p s (s.finish l st detail data) := by
  have erased : Settled p s { s with longs := s.longs.erase l } :=
    ⟨rfl, rfl, rfl, rfl, rfl, rfl, rfl, id⟩
  unfold State.finish
  dsimp only
  split
  · exact erased
  · exact erased.trans ((State.respond_settled ..).trans (State.drain_settled 16))

theorem State.answerReset_settled (st : Nat) : Settled p s (s.answerReset q st) :=
  Settled.foldl (fun _ l => State.finish_settled l st 0 []) _ s

theorem State.endFallback_settled : Settled p s (s.endFallback q) := by
  unfold State.endFallback
  dsimp only
  split
  · exact .refl s
  · exact ⟨rfl, rfl, rfl, rfl, rfl, rfl, rfl, id⟩

theorem State.hbArm_settled : Settled p s (s.hbArm q) := by
  have left (t : State) : Settled p t (t.hbLeave q) := ⟨rfl, rfl, rfl, rfl, rfl, rfl, rfl, id⟩
  unfold State.hbArm
  dsimp only
  split
  · exact (State.modPart_settled _).trans (left _)
  · exact ((State.modPart_settled _).trans (left _)).trans State.endFallback_settled

theorem State.refreshPage_settled (k off : Nat) : Settled p s (s.refreshPage k off) :=
  ⟨rfl, rfl, rfl, rfl, rfl, rfl, rfl, id⟩

theorem State.flush_settled (k origin : Nat) (reset : Bool) : Settled p s (s.flush k origin reset) := by
  unfold State.flush
  extract_lets x d2h gone moved owner told written pages ended
  split
  · exact .refl s
  · have flushed : Settled p s told :=
      Settled.trans (t := moved) ⟨rfl, rfl, rfl, rfl, rfl, rfl, rfl, id⟩ (State.modPart_settled _)
    have cleared : Settled p told written := by
      dsimp only [written]
      split
      · exact State.storeWrite_settled _ _
      · exact .refl told
    have shown : Settled p written pages := (State.refreshPage_settled _ _).trans (State.refreshPage_settled _ _)
    have first : Settled p pages ended := by
      dsimp only [ended]
      split
      · exact State.refreshPage_settled _ _
      · exact .refl pages
    exact flushed.trans (cleared.trans (shown.trans (first.trans (State.event_settled ..))))

/-! ### The end (R112, R89) -/

/-- The window of `p` once its reset, of the given origin, has set its registers (R112). -/
def Part.afterReset (x : Part) (origin : Nat) : Part :=
  { Part.reset with
    fallback := x.fallback, commits := x.commits, resetting := none
    msix := if origin = 2 ∨ origin = 3 then [] else x.msix
    pba := if origin = 2 ∨ origin = 3 then 0 else x.pba
    msiSent := x.msiSent }

/-- What `p` has staged is gone and its queues are flushed (R112). -/
def State.resetFlushed (s : State) (p : Nat) : State :=
  (List.range 64).foldl (fun (v : State) k => if s.par K.qOwner k = p then v.flush k 2 true else v)
    (s.modStage p fun _ => Stage.empty)

theorem State.finishReset_in_time {origin : Nat} (running : (s.part p).resetting = some origin)
    (inTime : s.resetLate p = false) :
    s.finishReset p =
      ((((((s.resetFlushed p).modPart p (·.afterReset origin)).hbArm p).endFallback p).irqCause p 5).event p 0x0006 p
        (le 1 origin)).answerReset p stOk := by
  unfold State.finishReset
  rw [running]
  simp only [inTime, Bool.false_eq_true, if_false, Bool.or_eq_true, decide_eq_true_eq]
  rfl

theorem State.finishReset_late {origin : Nat} (running : (s.part p).resetting = some origin)
    (late : s.resetLate p = true) :
    s.finishReset p =
      (if (s.part p).hb = .expired then s.modPart p fun x => { x with resetting := none }
       else (s.modPart p fun x => { x with resetting := none }).endFallback p).answerReset p stTimeout := by
  unfold State.finishReset
  rw [running]
  simp only [late, if_true]

theorem State.finishReset_none (idle : (s.part p).resetting = none) : s.finishReset p = s := by
  unfold State.finishReset
  rw [idle]

/-- After a reset that ended in time, the window holds what a reset sets, and nothing is staged. -/
theorem State.finishReset_in_time_settled {origin : Nat} (running : (s.part p).resetting = some origin)
    (inTime : s.resetLate p = false) :
    Settled p ((s.resetFlushed p).modPart p (·.afterReset origin)) (s.finishReset p) := by
  rw [State.finishReset_in_time running inTime]
  exact State.hbArm_settled.trans (State.endFallback_settled.trans ((State.irqCause_settled 5).trans
    ((State.event_settled ..).trans (State.answerReset_settled stOk))))

theorem State.finishReset_late_settled {origin : Nat} (running : (s.part p).resetting = some origin)
    (late : s.resetLate p = true) :
    Settled p (s.modPart p fun x => { x with resetting := none }) (s.finishReset p) := by
  rw [State.finishReset_late running late]
  refine Settled.trans ?_ (State.answerReset_settled stTimeout)
  split
  · exact .refl _
  · exact State.endFallback_settled

theorem State.resetFlushed_settled (s : State) (p : Nat) :
    Settled p (s.modStage p fun _ => Stage.empty) (s.resetFlushed p) :=
  Settled.foldl (fun u k => by
    split
    · exact State.flush_settled k 2 true
    · exact .refl u) _ _

/-- PARTITION_RESET_DONE changes neither the parameters, nor TIME, nor the coordinates (R112). -/
theorem State.finishReset_keeps_time (s : State) (p : Nat) :
    (s.finishReset p).params = s.params ∧ (s.finishReset p).clk = s.clk ∧ (s.finishReset p).lcs = s.lcs := by
  cases running : (s.part p).resetting with
  | none =>
    rw [State.finishReset_none running]
    exact ⟨rfl, rfl, rfl⟩
  | some origin =>
    cases late : s.resetLate p with
    | true =>
      have after := State.finishReset_late_settled running late
      exact ⟨after.params, after.clk, after.lcs⟩
    | false =>
      have flushed := State.resetFlushed_settled s p
      have after := State.finishReset_in_time_settled running late
      exact ⟨after.params.trans flushed.params, after.clk.trans flushed.clk, after.lcs.trans flushed.lcs⟩

/-- PARTITION_RESET_DONE ends the reset, in time or late. -/
theorem State.finishReset_ends (hp : p < 8) (running : (s.part p).resetting ≠ none) :
    ((s.finishReset p).part p).resetting = none := by
  obtain ⟨origin, running⟩ := Option.ne_none_iff_exists'.mp running
  cases late : s.resetLate p with
  | true => rw [(State.finishReset_late_settled running late).resetting, State.modPart_part_self _ _ hp]
  | false =>
    rw [(State.finishReset_in_time_settled running late).resetting, State.modPart_part_self _ _ hp, Part.afterReset]

/-- In time, the window is as a reset leaves it, and nothing is staged. -/
theorem State.finishReset_empties (hp : p < 8) (running : (s.part p).resetting ≠ none) (inTime : s.resetLate p = false) :
    ((s.finishReset p).part p).accepted = [] ∧ (s.finishReset p).stage p = Stage.empty ∧
      ((s.finishReset p).part p).refused = 0 ∧ ((s.finishReset p).part p).irqEnable = 0 := by
  obtain ⟨origin, running⟩ := Option.ne_none_iff_exists'.mp running
  have after := State.finishReset_in_time_settled running inTime
  have window := State.modPart_part_self (s := s.resetFlushed p) (·.afterReset origin) hp
  have stage : (s.finishReset p).stage p = (s.modStage p fun _ => Stage.empty).stage p :=
    congrArg (fun g => Tab.get Stage.empty g p) (after.stages.trans (State.resetFlushed_settled s p).stages)
  refine ⟨after.accepted (by rw [window]; rfl), stage.trans (State.modStage_stage_self _ _ hp), ?_, ?_⟩
  · rw [after.refused, window]
    rfl
  · rw [after.irqEnable, window]
    rfl

/-- Settles O17. -/
theorem partResetStarts : Obligations.PartResetStarts := by
  refine ⟨fun dt m s hs named range master mapped free => mailbox_later hs (hPartReset_starts named range master mapped free),
    fun s p origin hp free => State.startReset_marks hp free,
    fun dt p s origin running inTime => congrArg _ (State.finishReset_in_time running inTime),
    fun dt p s origin running late => congrArg _ (State.finishReset_late running late), ?_⟩
  intro dt p s
  obtain ⟨params, clk, lcs⟩ := (s.elapse dt).finishReset_keeps_time p
  have time := State.elapse_time s dt
  have params0 : (s.elapse dt).params = s.params := by rw [time]
  have lcs0 : (s.elapse dt).lcs = s.lcs := by rw [time]
  exact ⟨_, rfl, params.trans params0, Prod.ext (congrArg Clock.time clk) (lcs.trans lcs0), State.finishReset_none,
    State.finishReset_ends p.isLt, State.finishReset_empties p.isLt⟩

end Sys2Proof.Machine
end

section
/-! SUPPORT. The queue commands (R129, R144, R152, R153): what the handler of a good request answers. -/
namespace Sys2Proof.Machine

variable {r : Req} {s : State} {q : Nat}

/-- A request whose issuer may operate the queue that it names is not refused for that queue. -/
theorem onQueue_operated {f : Nat → Answer} (hq : q = r.u 0 1) (range : q ≤ 63)
    (own : s.mayOperate r.part .queue q = true) : onQueue r s f = f q := by
  subst hq
  simp [onQueue, own, Nat.not_lt.mpr range]

/-- Q_OPEN of a CLOSED queue for which the owner's quota and the queue area have room (R127, R129). Its item count starts
anew, as log entry 53 chooses, and its IDLE header is all zero (log entry 54). -/
theorem hQOpen_opens {b : Nat} (hq : q = r.u 0 1) (range : q ≤ 63) (own : s.mayOperate r.part .queue q = true)
    (closed : (s.queue q).isOpen = false)
    (quota : s.queueUse (s.par K.qOwner q) + s.par K.qSize q ≤ s.par K.partQQuota (s.par K.qOwner q))
    (block : s.allocBlock (s.par K.qSize q) = some b) :
    hQOpen r s = .done stOk [] ((s.modQueue q fun y =>
      { y with isOpen := true, base := b, bytes := s.par K.qSize q, hostWord := 0, wr := 0, rd := 0, items := 0, lost := 0,
               fired := false, timer := none, high := 0, dropTold := false, ends := [] }).storeWrite b (zs 32)
      |>.refreshPage q 0 |>.refreshPage q 0x40 |>.refreshPage q 0x80) := by
  unfold hQOpen
  rw [onQueue_operated hq range own, closed]
  simp only [Nat.not_lt.mpr quota, block, if_false, Bool.false_eq_true]

theorem hQClose_closes (hq : q = r.u 0 1) (range : q ≤ 63) (own : s.mayOperate r.part .queue q = true)
    (opened : (s.queue q).isOpen = true) (unnamed : s.queueNamed q = false) :
    hQClose r s = .done stOk []
      ((s.modQueue q fun y => { y with isOpen := false, ends := [], timer := none }).refreshPage q 0x84) := by
  unfold hQClose
  rw [onQueue_operated hq range own, opened, unnamed]
  rfl

theorem hQFlush_flushes (hq : q = r.u 0 1) (range : q ≤ 63) (own : s.mayOperate r.part .queue q = true)
    (opened : (s.queue q).isOpen = true) : hQFlush r s = .done stOk [] (s.flush q 0 false) := by
  unfold hQFlush
  rw [onQueue_operated hq range own, opened]
  rfl

theorem hQStatus_reports (hq : q = r.u 0 1) (range : q ≤ 63) (own : s.mayOperate r.part .queue q = true) :
    hQStatus r s = .done stOk (s.queueStatus q) s := onQueue_operated hq range own

/-- Settles O32: each request passes the checks of its handler. -/
theorem queueCommandsComplete : Obligations.QueueCommandsComplete :=
  ⟨fun _ _ _ hs _ hq range own closed quota _ block => mailbox_done hs (hQOpen_opens hq range own closed quota block),
   fun _ _ _ hs _ hq range own opened unnamed => mailbox_done hs (hQClose_closes hq range own opened unnamed),
   fun _ _ _ hs _ hq range own opened => mailbox_done hs (hQFlush_flushes hq range own opened),
   fun _ _ _ hs _ hq range own => mailbox_done hs (hQStatus_reports hq range own),
   fun _ _ _ hs => mailbox_done hs rfl⟩

end Sys2Proof.Machine
end

section
/-! SUPPORT. The rows of the queues, the dispatch tick and the scrubber (R121, R135 to R141, R343): what each leaves where
its guards hold. -/
namespace Sys2Proof

/-- Two changes of one entry of a table are one. -/
theorem Tab.mod_mod {α : Type} {n : Nat} (t : Tab α n) (i : Nat) (f g : α → α) :
    Tab.mod (Tab.mod t i f) i g = Tab.mod t i fun x => g (f x) := by
  by_cases h : i < n
  · simp [Tab.mod, h]
  · simp [Tab.mod, h]

namespace Machine

variable {dt : Nat} {s t : State}

theorem State.modQueue_modQueue (s : State) (q : Nat) (f g : Queue → Queue) :
    (s.modQueue q f).modQueue q g = s.modQueue q fun y => g (f y) :=
  congrArg (fun x => { s with qs := x }) (Tab.mod_mod s.qs q f g)

/-! ### Doorbells (R135, R137) -/

section doorbell

variable {w : Via} {q : Fin 64}

/-- A doorbell bit of the owner of an OPEN queue, rung in READY and during no reset of the partition, is not ignored. -/
theorem State.ring_rings {p k : Nat} (d2h : Bool) (ready : t.dev.mode = .ready) (running : (t.part p).resetting = none)
    (opened : (t.queue k).isOpen = true) (own : t.par K.qOwner k = p) :
    t.ring p k d2h = if d2h then t.ringD2h p k else t.ringH2d p k :=
  if_neg (by simp [ready, running, opened, own])

variable (ht : s.elapse dt = t) (reach : t.reaches w = true) (ready : t.dev.mode = .ready)
  (running : (t.part w.part).resetting = none) (opened : (t.queue q).isOpen = true)
  (own : t.par K.qOwner q = w.part.val)
include ht reach ready running opened own

theorem execDbQueueH2d_rings (h2d : t.par K.qDir q = 0) : execDbQueueH2d dt w q s = .next (t.ringH2d w.part q) := by
  unfold execDbQueueH2d
  rw [ht, hostReg_reached reach, State.ring_rings _ ready running opened own, h2d]
  rfl

theorem execDbQueueD2h_rings (d2h : t.par K.qDir q ≠ 0) : execDbQueueD2h dt w q s = .next (t.ringD2h w.part q) := by
  unfold execDbQueueD2h
  rw [ht, hostReg_reached reach, State.ring_rings _ ready running opened own, if_pos (decide_eq_true d2h)]

end doorbell

/-! ### Items (R136, R139, R140) -/

section item

variable {q ty : Nat} {it : InItem}

/-- The type of the item at the head of a queue stands in the first two bytes of its header. -/
theorem State.headType_eq (s : State) (q : Nat) : s.headType q = rd (s.storeRead (s.headAddr q) 32) 0 2 := by
  have header : s.storeRead (s.headAddr q) 32 = s.storeRead (s.headAddr q) 2 ++ s.storeRead (s.headAddr q + 2) 30 :=
    memRead_add _ _ 2 30
  have two : (s.storeRead (s.headAddr q) 2).length = 2 := memRead_length ..
  rw [State.headType, header, rd, rd, List.drop_zero, List.drop_zero, List.take_left' two,
    List.take_of_length_le (Nat.le_of_eq two)]

/-- The header of a good item gives the length of its payload. -/
theorem GoodItem.payload_length (good : GoodItem t q ty it) :
    rd (t.storeRead (t.headAddr q) 32) 2 2 = it.payload.length := by
  rw [good.item]
  exact (memRead_length ..).symm

/-- A good item that is no PAD passes every check of `State.takeItem`: rd passes it, it is counted, and the core that
serves the queue has it in hand. -/
theorem State.takeItem_good (good : GoodItem t q ty it) (content : ty ≠ 1) :
    t.takeItem q = (t.modQueue q fun y =>
      { y with rd := y.rd + BitVec.ofNat 32 (itemBytes it.payload.length), items := y.items + 1 }).handle
        (t.qServer q) it := by
  unfold State.takeItem
  simp only [good.payload_length, good.type.2]
  rw [if_neg (by simp [good.items]), if_neg (by simp [good.clean]), if_neg (Nat.not_lt.mpr good.size),
    if_neg (Nat.not_lt.mpr good.valid), if_neg (Nat.not_lt.mpr good.ring), if_neg (by simp [good.whole])]
  have item := good.item
  rw [good.payload_length] at item
  rw [← item, good.good]
  simp only [content, if_false, State.modQueue_modQueue]

/-- The row of a type of item takes a good item of that type. -/
theorem itemRow_takes {k : Fin 64} (good : GoodItem (s.elapse dt) k ty it) (content : ty ≠ 1) :
    itemRow ty dt k s = .next ((s.elapse dt).tookItem k it) := by
  have head : (s.elapse dt).headType k = ty := (State.headType_eq _ _).trans good.type.2
  unfold itemRow State.tookItem
  rw [← State.takeItem_good good content]
  exact if_pos (by simp [good.ready, good.items, head])

end item

/-! ### The read timer, the tick and the scrubber (R121, R141, R343) -/

theorem execReadTimeoutExpired_fires {q : Fin 64} {t0 : Nat} (ht : s.elapse dt = t) (timer : (t.queue q).timer = some t0)
    (due : t0 + 1000 * t.par K.qReadTimeout q ≤ t.now) : execReadTimeoutExpired dt q s = .next (t.fire q) := by
  simp [execReadTimeoutExpired, ht, timer, State.passed, due]

theorem execDispatchTick_works (ht : s.elapse dt = t) (ready : t.dev.mode = .ready) (due : t.dev.tick < t.tickAt) :
    execDispatchTick dt s = .next t.tickWork := by
  simp [execDispatchTick, ht, ready, State.tickDue, due]

/-- SCRUB of a store in use deals with the errors that its operands give (log entry 64), and ends a pass that has lasted its
period. -/
theorem execScrub_live {errors : List LaneError} (passEnd : Bool) (ht : s.elapse dt = t) (live : t.live = true) :
    execScrub dt errors passEnd s =
      .next (if passEnd && t.passed t.store.scrubAt (1000000000 * t.par K.storeScrubPeriod 0) then
          { errors.foldl State.laneError t with store := { (errors.foldl State.laneError t).store with
              lanePrev := (errors.foldl State.laneError t).store.laneNow, laneNow := [], scrubAt := t.now } }
        else errors.foldl State.laneError t) := by
  subst ht
  exact if_neg (by simp [live])

theorem execScrub_repairs {errors : List LaneError} (ht : s.elapse dt = t) (live : t.live = true) :
    execScrub dt errors false s = .next (errors.foldl State.laneError t) :=
  (execScrub_live false ht live).trans rfl

theorem execScrub_ends_pass {errors : List LaneError} {u : State} (ht : s.elapse dt = t) (live : t.live = true)
    (due : t.store.scrubAt + 1000000000 * t.par K.storeScrubPeriod 0 ≤ t.now) (hu : u = errors.foldl State.laneError t) :
    execScrub dt errors true s =
      .next { u with store := { u.store with lanePrev := u.store.laneNow, laneNow := [], scrubAt := t.now } } := by
  subst hu
  rw [execScrub_live true ht live]
  exact congrArg _ (if_pos (decide_eq_true due))

/-- Settles O44: each row passes the checks of its meaning. The rows of the gateway units have none: they serve a unit as far
as log entry 61 chooses. -/
theorem queueRowsComplete : Obligations.QueueRowsComplete :=
  ⟨fun _ _ _ _ => execDbQueueH2d_rings rfl, fun _ _ _ _ => execDbQueueD2h_rings rfl,
   fun _ _ _ _ good => itemRow_takes good (by decide), fun _ _ _ _ good => itemRow_takes good (by decide),
   fun _ _ _ _ good => itemRow_takes good (by decide), fun _ _ _ _ good => itemRow_takes good (by decide),
   fun _ _ _ _ good => itemRow_takes good (by decide), fun _ _ _ _ good => itemRow_takes good (by decide),
   fun _ _ _ _ => execReadTimeoutExpired_fires rfl, fun _ _ => execDispatchTick_works rfl,
   fun _ _ _ => rfl, fun _ _ _ _ => rfl, fun _ _ _ => execScrub_repairs rfl,
   fun _ _ _ live due _ hu => execScrub_ends_pass rfl live due hu⟩

end Machine
end Sys2Proof
end

section
/-! SUPPORT. The commands of a channel (R162, R172, R174, R177, R180 to R182, R187, R194, R200, R211, R430): what the handler
of a good request answers. -/
namespace Sys2Proof.Machine

variable {r : Req} {s : State} {c : Nat}

/-! ### Requests that name a channel -/

/-- A request whose issuer may operate the channel that it names, which is not RETIRED, is not refused for that channel. -/
theorem onChan_operated {f : Nat → Answer} (hc : c = r.u 0 1) (range : c ≤ 31)
    (own : s.mayOperate r.part .chan c = true) (live : s.retired c = false) : onChan r s f = f c := by
  subst hc
  simp [onChan, own, live, Nat.not_lt.mpr range]

section operated

variable (hc : c = r.u 0 1) (range : c ≤ 31) (own : s.mayOperate r.part .chan c = true) (live : s.retired c = false)
  (free : s.chanInUse c = false)

include hc range own live free

/-- CHAN_OPEN waits for the standby release of its channel (R180, R412). -/
theorem hChanOpen_waits (mode : r.u 1 1 ≤ 4) (closed : (s.chan c).st = .closed) (timing : (s.cfg c).timingOk = true)
    (admitted : s.admitOpen c = 0) :
    hChanOpen r s = .later (r.long c (r.u 1 1) false) (s.wantRelease c (modeOf (r.u 1 1)) 1) := by
  unfold hChanOpen
  rw [onChan_operated hc range own live, if_neg (Nat.not_lt.mpr mode), if_neg (by simp [free]),
    if_neg (not_not.mpr closed), if_neg (by simp [timing])]
  exact if_neg (not_not.mpr admitted)

theorem hChanClose_closes (notClosed : (s.chan c).st ≠ .closed) (unused : s.chanUsed c false = false) :
    hChanClose r s = .done stOk [] (s.closeChan c) := by
  unfold hChanClose
  rw [onChan_operated hc range own live, if_neg (by simp [free]), if_neg (by simp [notClosed, unused])]

/-- CHAN_MODE of an OPEN channel is noted for the next bus idle (R174). -/
theorem hChanMode_notes (mode : r.u 1 1 ≤ 5) (opened : (s.chan c).st = .opened)
    (mayRest : r.u 1 1 = 5 → s.chanUsed c true = false) :
    hChanMode r s = .done stOk [] (s.modChan c fun ch =>
      { ch with wantMode := if r.u 1 1 = 5 then none else some (modeOf (r.u 1 1), 0),
                wantSleep := decide (r.u 1 1 = 5) }) := by
  unfold hChanMode
  rw [onChan_operated hc range own live]
  simp only [opened, free, Nat.not_lt.mpr mode, if_false, Bool.false_eq_true]
  exact if_neg (by simpa using mayRest)

/-- CHAN_MODE of a sleeping channel queues its standby release, or gives up one that waits. Which modes wake it is log
entry 74. -/
theorem hChanMode_wakes (mode : r.u 1 1 ≤ 5) (sleeps : (s.chan c).st = .sleep) :
    hChanMode r s = .done stOk []
      (if r.u 1 1 = 5 then (s.dropRelease c).pinsIdle c else s.wantRelease c (modeOf (r.u 1 1)) 0) := by
  unfold hChanMode
  rw [onChan_operated hc range own live]
  simp only [sleeps, free, Nat.not_lt.mpr mode, if_false, Bool.false_eq_true]

theorem hChanRecover_starts (held : (s.chan c).err.st = .busOffHeld) (opened : (s.chan c).st = .opened) :
    hChanRecover r s = .done stOk [] (s.errState c .busOff) := by
  unfold hChanRecover
  rw [onChan_operated hc range own live, if_neg (by simp [free]), if_neg (by simp [held, opened])]

/-- CHAN_RETIRE completes once the cause HOST has retired the channel (R200). -/
theorem hChanRetire_waits (notClosed : (s.chan c).st ≠ .closed) :
    hChanRetire r s = .later (r.long c 0 true) (s.addCause c 0x20) := by
  unfold hChanRetire
  rw [onChan_operated hc range own live, if_neg (by simp [free]), if_neg notClosed]

theorem hCollideClear_all (all : r.u 1 1 = 0xFF) :
    hCollideClear r s = .done stOk [] ((s.txObjs c).foldl (fun u o => u.collideClear c o) s) := by
  unfold hCollideClear
  rw [onChan_operated hc range own live]
  exact (if_neg (by simp [free])).trans (if_pos all)

theorem hCollideClear_one (object : r.u 1 1 ≤ 127) (sends : s.objTx c (r.u 1 1) = true) :
    hCollideClear r s = .done stOk [] (s.collideClear c (r.u 1 1)) := by
  unfold hCollideClear
  rw [onChan_operated hc range own live]
  exact (if_neg (by simp [free])).trans ((if_neg (by omega)).trans
    (if_neg (by simp [sends, Nat.not_lt.mpr object])))

theorem hAgeClearHist_clears (notClosed : (s.chan c).st ≠ .closed) :
    hAgeClearHist r s =
      .done stOk [] (s.modChan c fun ch => { ch with age := { ch.age with histA := [], histD := [] } }) := by
  unfold hAgeClearHist
  rw [onChan_operated hc range own live, if_neg (by simp [free]), if_neg notClosed]

/-- CHAN_CONFIG stages the keys of its form (R162, R181). -/
theorem hChanConfig_stages_keys {g : Stage} (values : (chanConfigKeys r).all (fun k => valueOk k.1 k.2.1) = true)
    (expert : r.form = 1 → s.expertOn r.part .chan c = true) (alone : s.stageBusy r.part (0x10000 + c) = false)
    (hg : g = (chanConfigKeys r).foldl (fun (g : Stage) k => g.write k.1 c k.2.1) (s.stage r.part))
    (timing : ChanCfg.timingOk (fun num => s.viewOf g num c) = true) :
    hChanConfig r s = .done stStaged [] (s.restage r.part fun _ => g) := by
  subst hg
  have allowed : (chanConfigKeys r).find? (fun k => !valueOk k.1 k.2.1) = none := by
    simpa [List.find?_eq_none] using values
  unfold hChanConfig
  rw [onChan_operated hc range own live]
  simp only [allowed, free, if_false, Bool.false_eq_true]
  rw [if_neg (by simpa using expert), if_neg (by simp [alone]), if_neg (by simp [timing])]

end operated

/-! ### Reports -/

theorem hChanStatus_reports (range : r.u 0 1 ≤ 31) : hChanStatus r s = .done stOk (s.chanStatus (r.u 0 1)) s :=
  if_neg (Nat.not_lt.mpr range)

/-- CHAN_DIAG answers the count of its records, as log entry 143 chooses. -/
theorem hChanDiag_reports (fits : 64 * (s.myChans r.part).length ≤ r.bulkLen) :
    hChanDiag r s = .done stOk (le 1 (s.myChans r.part).length ++ zs 7)
      (let u := s.storeWrite (s.bulkBase r.part + r.bulkOff) ((s.myChans r.part).map s.diagRecord).flatten
       if bitOf (r.u 0 1) 0 then (s.myChans r.part).foldl (fun u c => u.modDiag c fun _ => Diag.reset) u else u) :=
  if_neg (Nat.not_lt.mpr fits)

/-- Settles O24: each request passes the checks of its handler. -/
theorem channelCommandsComplete : Obligations.ChannelCommandsComplete :=
  ⟨fun _ _ _ hs _ hc range own live mode free closed timing admitted =>
      mailbox_later hs (hChanOpen_waits hc range own live free mode closed timing admitted),
   fun _ _ _ hs _ hc range own live free notClosed unused =>
      mailbox_done hs (hChanClose_closes hc range own live free notClosed unused),
   fun _ _ _ hs _ hc range own live free mode opened mayRest =>
      mailbox_done hs (hChanMode_notes hc range own live free mode opened mayRest),
   fun _ _ _ hs _ hc range own live free mode sleeps =>
      mailbox_done hs (hChanMode_wakes hc range own live free mode sleeps),
   fun _ _ _ hs _ hc range own live free held opened =>
      mailbox_done hs (hChanRecover_starts hc range own live free held opened),
   fun _ _ _ hs _ hc range own live free notClosed =>
      mailbox_later hs (hChanRetire_waits hc range own live free notClosed)⟩

/-- Settles O25: each request passes the checks of its handler. -/
theorem channelReportsComplete : Obligations.ChannelReportsComplete :=
  ⟨fun _ _ _ hs range => mailbox_done hs (hChanStatus_reports range),
   fun _ _ _ hs fits => mailbox_done hs (hChanDiag_reports fits),
   fun _ _ _ hs _ hc range own live free all => mailbox_done hs (hCollideClear_all hc range own live free all),
   fun _ _ _ hs _ hc range own live free object sends =>
      mailbox_done hs (hCollideClear_one hc range own live free object sends),
   fun _ _ _ hs _ hc range own live free notClosed =>
      mailbox_done hs (hAgeClearHist_clears hc range own live free notClosed)⟩

/-- Settles O26: the request passes the checks of its handler. -/
theorem chanConfigStages : Obligations.ChanConfigStages :=
  fun _ _ _ hs _ hc range own live free values expert alone _ hg timing =>
    mailbox_done hs (hChanConfig_stages_keys hc range own live free values expert alone hg timing)

end Sys2Proof.Machine
end

section
/-! SUPPORT. Frames on the bus of a channel (R158 to R176, R184 to R193, R215, R225, R237): what the rows of received and sent
frames, lost arbitrations and bus errors leave where their guards hold. -/
namespace Sys2Proof.Machine

variable {dt : Nat} {c : Fin 32} {s t : State}

/-- A channel that is OPEN in READY, not in LOOP_INT (R173) and integrated takes part in its bus. -/
theorem State.onBus_eq_true (ready : t.dev.mode = .ready) (opened : (t.chan c).st = .opened)
    (mode : (t.chan c).mode ≠ .loopInt) (integrated : (t.chan c).phase = .none) : t.onBus c = true := by
  simp [State.onBus, ready, opened, mode, integrated]

/-! ### Frames received (R161, R215, R270) -/

section received

variable {f : RxFrame} {fr : Frame} {exceeds : Bool}

/-- Channel `c` has taken frame `f`, stamped as `fr`: it is counted, in the ring and heard, and has blocked what it covered. -/
def State.received (t : State) (c : Nat) (f : RxFrame) (fr : Frame) (exceeds : Bool) : State :=
  ((((((t.modStat c fun x =>
      { x with framesRx := x.framesRx + 1, overLen := if exceeds then x.overLen + 1 else x.overLen }).modChan c fun ch =>
    { ch with fast := t.fastPhase c fr f.sof }).addEdgesA c f.edges).ringWrite c fr).heard c).bumpCounts c
      (fun n => n) recDown).blockedBy (t.schedHome c) f.sof (some f.id)

variable (ht : s.elapse dt = t) (bus : t.onBus c = true) (hfr : fr = t.stampFrame (RxFrame.frame f) f.sof)
  (hexceeds : exceeds = (!declares (t.engCfg c K.chanFormats) (kindNat f.kind) ||
    t.engCfg c K.chanMaxLen < fr.payload.length))
include ht bus hfr hexceeds

/-- Without a schedule there is no reference message to mistake a frame for. -/
theorem execFrameReceived_unscheduled (unscheduled : (t.chan (t.schedHome c)).sched = none) :
    execFrameReceived dt c f s = .next (t.received c f fr exceeds) := by
  subst hexceeds hfr
  unfold execFrameReceived
  rw [ht]
  simp only [unscheduled]
  exact if_neg (by simp [bus])

/-- On a channel with a schedule, a CC frame with the identifier of a TIME schedule's reference messages is another time
master's. -/
theorem execFrameReceived_scheduled {d : Sched} (scheduled : (t.chan (t.schedHome c)).sched = some d) :
    execFrameReceived dt c f s = .next (
      if d.angle = false ∧ f.kind = .cc ∧ f.id.toNat = t.par K.chanRefId (t.schedHome c) then
        ((t.received c f fr exceeds).raiseU 0x68 0 1 c false 0).event (t.chanOwner (t.schedHome c)) 0x0403
          (t.schedHome c) (le 4 f.id.toNat ++ le 8 fr.time.toNat)
      else t.received c f fr exceeds) := by
  subst hexceeds hfr
  unfold execFrameReceived
  rw [ht]
  simp only [scheduled]
  exact (if_neg (by simp [bus])).trans (congrArg _ (if_congr (by simp [and_assoc]) rfl rfl))

end received

/-! ### Frames sent (R161, R168, R175, R209, R423) -/

section sent

variable {x : TxEnd} {v : State} {k : FrameKind} {es : List Int}

/-- The frame that engine `c` sent: stamped, with the losses of its ring, and with a lost arbitration of the request that it
completes. -/
def State.sentFrame (t : State) (c : Nat) (x : TxEnd) : Frame :=
  { t.stampFrame { t.attemptFrame c x.what x.sof with
      arbLost := match x.what with
        | .object o => ((t.chan (t.attemptHome c o x.what x.sof)).obj o).arbLost && !t.attemptOver c x.what x.sof
        | .arm | .ref | .test => false } x.sof with
    loss := (t.chan c).ring.lossDue }

/-- The frame `f` that engine `c` sent ends its attempt, is counted, enters the ring and counts TEC down. -/
def State.sentCounted (t : State) (c : Nat) (x : TxEnd) (f : Frame) : State :=
  ((((t.endAttempt c x.what).modStat c fun y => { y with framesTx := y.framesTx + 1 }).modChan c fun ch =>
    { ch with fast := t.fastPhase c f x.sof }).ringWrite c f).bumpCounts c (fun n => n - 1) (fun n => n)

/-- In `v`, after a frame of kind `k` that engine `c` sent in `t`, the phases of its edges are in histogram D where
compensation is on without FAST. -/
def State.addEdgesD (t v : State) (c : Nat) (k : FrameKind) (es : List Int) : State :=
  if k ≠ .cc && t.engCfg c K.chanTdc = 1 && t.engCfg c K.chanFast = 0 then
    v.modChan c fun ch => { ch with age := { ch.age with histD := ch.age.histD ++ es } }
  else v

theorem State.addEdgesD_eq (c : Nat) : t.addEdgesD v c k es =
    if k ≠ .cc ∧ t.engCfg c K.chanTdc = 1 ∧ t.engCfg c K.chanFast = 0 then
      v.modChan c fun ch => { ch with age := { ch.age with histD := ch.age.histD ++ es } } else v :=
  if_congr (by simp [and_assoc]) rfl rfl

/-- In `v`, the frame `f` that engine `c` sent in `t` completes its request, reference message or probe. -/
def State.sentRecorded (t v : State) (c : Nat) (x : TxEnd) (f : Frame) : State :=
  match x.what with
  | .object o =>
    v.objSent c (t.attemptHome c o x.what x.sof) o f (t.attemptOver c x.what x.sof) (t.chan c).nowSched
  | .arm => v.modRt (t.schedHome c) fun r => { r with refSent := r.refSent + 1, armSeq := r.armSeq + 1 }
  | .ref => v.modRt (t.schedHome c) fun r => { r with refSent := r.refSent + 1, refGen := t.clk.gen }
  | .test => v

/-- What TX_SUCCESS leaves of a frame that is under way. -/
def State.sent (t : State) (c : Nat) (x : TxEnd) : State :=
  let f := t.sentFrame c x
  let v := (t.sentCounted c x f).takeLoop c f.kind x.loop
  let z := t.sentRecorded (t.addEdgesD v c f.kind x.edges) c x f
  (if x.acked then z.heard c else z).refill c

variable (ht : s.elapse dt = t)
include ht

theorem execTxSuccess_test (test : t.testing c x.what x.sof = true) :
    execTxSuccess dt c x s = .next (t.testSent c x) := by
  unfold execTxSuccess
  rw [ht]
  exact if_pos test

theorem execTxSuccess_sent (noTest : t.testing c x.what x.sof = false) (flies : t.underWay c x.what x.sof = true)
    (acked : (t.chan c).mode = .normal → x.acked = true) : execTxSuccess dt c x s = .next (t.sent c x) := by
  unfold execTxSuccess
  rw [ht]
  exact (if_neg (by simp [noTest])).trans (if_neg (by simpa [flies] using acked))

end sent

/-! ### Lost arbitrations (R175, R176, R262) -/

section arbitration

variable {o : Fin 128} {what : TxWhat} {sof : W64} {winner : W32} {u : State}

/-- In `u`, the occurrence `a` that flies on channel `h` has lost its first attempt in engine `c` to `winner`. -/
def State.blockFlying (t u : State) (c h : Nat) (winner : W32) (a : Armed) : State :=
  if (t.chan c).nowSched && !a.retry && !a.blocked then
    u.modRt h fun r => { r with
      blocked := r.blocked + 1, repBlocked := r.repBlocked + 1, lastBlocker := winner,
      flying := some { a with blocked := true } }
  else u

theorem State.blockFlying_eq (c h : Nat) (a : Armed) : t.blockFlying u c h winner a =
    if (t.chan c).nowSched = true ∧ a.retry = false ∧ a.blocked = false then
      u.modRt h fun r => { r with
        blocked := r.blocked + 1, repBlocked := r.repBlocked + 1, lastBlocker := winner,
        flying := some { a with blocked := true } }
    else u :=
  if_congr (by simp [and_assoc]) rfl rfl

variable (ht : s.elapse dt = t)
include ht

/-- An object's attempt restarts its collision count (R193), and may block the occurrence that flies. -/
theorem execArbitrationLost_object {h : Nat} (flies : t.underWay c (.object o) sof = true)
    (hh : h = t.attemptHome c o (.object o) sof)
    (hu : u = if t.attemptOver c (.object o) sof then t else t.modObj h o fun y => { y with collCount := 0 }) :
    execArbitrationLost dt c (.object o) sof winner s = .next (
      ((((t.chan h).rt.flying.map (t.blockFlying u c h winner)).getD u).modChan c fun ch =>
        { ch with fast := none }).attemptFail c (.object o) 1 sof) := by
  subst hu hh
  unfold execArbitrationLost
  rw [ht]
  refine (if_neg (by simp [flies])).trans ?_
  cases flying : (t.chan (t.attemptHome c o (.object o) sof)).rt.flying with
  | none => simp only [flying, Option.map_none, Option.getD_none]
  | some a => simp only [flying, Option.map_some, Option.getD_some, State.blockFlying]

theorem execArbitrationLost_other (other : ∀ o, what ≠ .object o) (flies : t.underWay c what sof = true) :
    execArbitrationLost dt c what sof winner s =
      .next ((t.modChan c fun ch => { ch with fast := none }).attemptFail c what 1 sof) := by
  unfold execArbitrationLost
  rw [ht]
  refine (if_neg (by simp [flies])).trans ?_
  cases what with
  | object o => exact absurd rfl (other o)
  | arm | ref | test => rfl

end arbitration

/-! ### Bus errors and protocol exceptions (R158, R171, R184, R189, R193) -/

section error

variable {x : BusErr} {w : TxWhat}

/-- The cause of Table 5.15 with which error `x` ends an attempt of engine `c`. -/
def BusErr.cause (t : State) (c : Nat) (x : BusErr) : Nat :=
  if (t.chan c).mode.counts && 255 < (t.chan c).err.tec + BusErr.tecStep x (t.chan c).err.st then 4
  else if x.kind = .ack then 3 else 2

theorem BusErr.cause_eq (c : Nat) : BusErr.cause t c x =
    if (t.chan c).mode.counts = true ∧ 255 < (t.chan c).err.tec + BusErr.tecStep x (t.chan c).err.st then 4
    else if x.kind = .ack then 3 else 2 :=
  if_congr (by simp) rfl rfl

/-- Error `x` of engine `c`, which sent frame `fr`, is counted by its kind and ends a FAST phase. -/
def State.errorCounted (t : State) (c : Nat) (x : BusErr) (fr : Frame) : State :=
  let u := (((t.modDiag c fun d => d.error x.kind).takeLoop c fr.kind x.loop).modChan c fun ch =>
    { ch with fast := t.fastPhase c fr x.sof }).cutFast c
  if x.kind = .ack then u.modErr c fun y => { y with ackErr := true } else u

/-- In `v`, the attempt of engine `c` that error `x` ended in `t` fails and counts towards a collision (R193). -/
def State.errorFailed (t v : State) (c : Nat) (w : TxWhat) (x : BusErr) (fr : Frame) : State :=
  let z := v.attemptFail c w (BusErr.cause t c x) x.sof
  match w with
  | .object o => if t.attemptOver c w x.sof then z else z.collideCount c (t.attemptHome c o w x.sof) o fr x.kind x.field
  | .arm | .ref | .test => z

variable (ht : s.elapse dt = t)
include ht

theorem execBusError_receiver (receives : x.attempt = none) (bus : t.onBus c = true) :
    execBusError dt c x s = .next ((((t.modDiag c fun d => d.error x.kind).cutFast c).bumpCounts c (fun n => n)
      (· + BusErr.recStep x)).blockedBy (t.schedHome c) x.sof x.id) := by
  unfold execBusError
  rw [ht]
  simp only [receives]
  exact if_neg (by simp [bus])

theorem execBusError_transmitter {fr : Frame} (sends : x.attempt = some w) (flies : t.underWay c w x.sof = true)
    (hfr : fr = t.attemptFrame c w x.sof) :
    execBusError dt c x s = .next ((t.errorFailed (t.errorCounted c x fr) c w x fr).bumpCounts c
      (· + BusErr.tecStep x (t.chan c).err.st) (fun n => n)) := by
  subst hfr
  unfold execBusError
  rw [ht]
  simp only [sends]
  refine (if_neg (by simp [flies])).trans ?_
  cases w <;> rfl

/-- With `pex` ON the engine integrates again, with OFF it has seen a form error (R158). -/
theorem execProtocolException_onBus (bus : t.onBus c = true) :
    execProtocolException dt c s = .next (
      if t.engCfg c K.chanPex = 0 then
        ((t.displace c false).cutFast c).modChan c fun ch =>
          { ch with stat := { ch.stat with pex := ch.stat.pex + 1 }, phase := .integrating }
      else ((t.modDiag c fun d => d.error .form).cutFast c).bumpCounts c (fun n => n) (· + 1)) := by
  unfold execProtocolException
  rw [ht]
  refine (if_neg (by simp [bus])).trans ?_
  by_cases pex : t.engCfg c K.chanPex = 0
  · rw [if_pos pex, if_neg (not_not.mpr pex)]
  · rw [if_neg pex, if_pos pex]

end error

/-- Settles O41: the guards of each row hold, and what it leaves is the same for each kind of frame. -/
theorem frameRowsComplete : Obligations.FrameRowsComplete := by
  refine ⟨fun dt c f s => ?received, fun dt c x s => ?sent, fun _ _ _ _ => execTxSuccess_test rfl,
    fun dt c o sof winner s => ?object, fun _ _ _ _ _ _ => execArbitrationLost_other rfl, fun _ _ _ _ => ?receiver,
    fun dt c x s => ?transmitter, fun _ _ _ => ?exception, fun _ _ _ => rfl, fun _ _ _ _ => rfl⟩
  case received =>
    rintro t ready opened mode integrated fr exceeds hfr hexceeds u rfl
    have bus := State.onBus_eq_true ready opened mode integrated
    cases sched : (t.chan (t.schedHome c)).sched with
    | none => exact execFrameReceived_unscheduled rfl bus hfr hexceeds sched
    | some d => exact execFrameReceived_scheduled rfl bus hfr hexceeds sched
  case sent =>
    rintro t noTest flies acked ended lost f rfl rfl rfl u v w rfl rfl rfl z rfl
    rw [← State.addEdgesD_eq]
    exact execTxSuccess_sent rfl noTest flies acked
  case object =>
    rintro t flies h u hh hu
    refine (execArbitrationLost_object rfl flies hh hu).trans ?_
    cases flying : (t.chan h).rt.flying with
    | none => rfl
    | some a =>
      rw [Option.map_some, Option.getD_some, State.blockFlying_eq]
  case receiver =>
    exact fun receives ready opened mode integrated =>
      execBusError_receiver rfl receives (State.onBus_eq_true ready opened mode integrated)
  case transmitter =>
    rintro t w sends flies fr u v hfr rfl rfl why hwhy z rfl
    rw [← BusErr.cause_eq] at hwhy
    subst hwhy
    exact execBusError_transmitter rfl sends flies hfr
  case exception =>
    exact fun ready opened mode integrated =>
      execProtocolException_onBus rfl (State.onBus_eq_true ready opened mode integrated)

end Sys2Proof.Machine
end

section
/-! SUPPORT. The events of a channel's life (R164, R165, R172, R174, R180, R187 to R208): what each row leaves where its
guards hold. -/
namespace Sys2Proof.Machine

variable {dt : Nat} {c : Fin 32} {s t : State}

/-- A permanent cause waits only for the frame in progress (R200). -/
theorem State.retireReady_iff {k : Nat} : t.retireReady k = true ↔
    (t.chan k).err.causes.isEmpty = false ∧ (t.chan k).st ≠ .retired ∧ (t.chan k).txNow = none := by
  simp [State.retireReady, and_assoc]

section rows

variable (ht : s.elapse dt = t)
include ht

/-! ### Bus-off recovery (R187) -/

theorem execBoffDelayExpired_recovers (held : (t.chan c).err.st = .busOffHeld) (opened : (t.chan c).st = .opened)
    (auto : t.par K.chanBoffRecovery c = 0)
    (due : (t.chan c).err.offTimes.headD 0 + 1000000 * t.par K.chanBoffDelay c ≤ t.now) :
    execBoffDelayExpired dt c s = .next (t.errState c .busOff) := by
  unfold execBoffDelayExpired
  rw [ht]
  exact if_pos (by simp only [held, opened, auto, State.passed, due, decide_true, Bool.and_self])

theorem execRecoveryDone_activates (off : (t.chan c).err.st = .busOff) (opened : (t.chan c).st = .opened) :
    execRecoveryDone dt c s = .next ((((t.modErr c fun e => { e with tec := 0, recv := 0 }).modDiag c fun d =>
      { d with recoveries := d.recoveries + 1 }).errState c .active).refill c) := by
  unfold execRecoveryDone
  rw [ht]
  exact if_neg (by simp [off, opened])

/-! ### LONE (R190, R191) -/

theorem execLoneEnter_enters {u : State} (bus : t.onBus c = true) (mode : (t.chan c).mode = .normal)
    (notLone : (t.chan c).err.lone = false) (unheard : (t.chan c).err.ackErr = true)
    (due : (t.chan c).err.heardAt + 1000000 * t.par K.chanLoneTime c ≤ t.now)
    (hu : u = (t.displace c false).modChan c fun x => { x with
      err := { x.err with lone := true, probeAt := t.now }
      diag := { x.diag with loneEntries := x.diag.loneEntries + 1 } }) :
    execLoneEnter dt c s =
      .next ((((u.settle t c).condOn c 3 0).raiseU c 3 1 c true (t.chanOwner c)).loneEvent c 1) := by
  subst hu
  unfold execLoneEnter
  rw [ht]
  exact if_neg (by simp [bus, mode, notLone, unheard, State.passed, due])

/-- Where no request is held, the probe is a frame of its own. -/
theorem execLoneProbe_test (lone : (t.chan c).err.lone = true) (idle : t.probeRequest c = none)
    (sends : t.canSend c = true) (free : (t.chan c).txNow = none)
    (due : (t.chan c).err.probeAt + 1000000 * t.par K.chanLoneProbe c ≤ t.now)
    (fits : t.mayStart (t.schedHome c) t.clk.time
      ((t.cfg c).frameTime (kindNat (lowestKind (t.par K.chanFormats c))) true 1 false) = true) :
    execLoneProbe dt c s = .next ((t.takeOff c .test false (t.probeFrame c) t.clk.time).modErr c fun x =>
      { x with probes := x.probes + 1, probeAt := t.now }) := by
  unfold execLoneProbe
  rw [ht]
  simp only [idle]
  exact if_neg (by simp [lone, sends, free, State.passed, due, fits])

/-- A request that is held goes as the probe, once its buffer has been checked. -/
theorem execLoneProbe_object {h : Nat} {o : Fin 128} {u : State} (held : t.probeRequest c = some (h, o.val))
    (hu : u = t.checkBuffer h o) (still : u.probeRequest c = some (h, o.val)) (home : h = u.homeOf c o)
    (lone : (t.chan c).err.lone = true) (lone' : (u.chan c).err.lone = true) (sends : u.canSend c = true)
    (free : (u.chan c).txNow = none)
    (due : (u.chan c).err.probeAt + 1000000 * u.par K.chanLoneProbe c ≤ u.now)
    (fits : u.mayStart (u.schedHome c) u.clk.time (u.objDuration h o) = true) :
    execLoneProbe dt c s = .next (((u.takeOff c (.object o) false (u.formFrame c h o ((u.chan h).obj o).payload)
      u.clk.time).modErr c fun x => { x with probes := x.probes + 1, probeAt := u.now }).prefetch h o) := by
  unfold execLoneProbe
  rw [ht]
  simp only [held, lone, if_true, ← hu, still, dif_pos o.isLt, Fin.eta, ← home]
  exact if_neg (by simp [lone', sends, free, State.passed, due, fits])

/-! ### Causes of retirement (R196 to R198) -/

section stuck

variable {low : Nat} (ready : t.dev.mode = .ready) (opened : (t.chan c).st = .opened)
  (long : 1000000 * t.par K.chanStuckTime c ≤ low)
  (due : (t.chan c).openAt + 1000000 * t.par K.chanStuckTime c ≤ t.now)
include ready opened long due

theorem execStuckDominant_alone (alone : t.par K.chanTwin (c - c % 2) ≠ 1 ∨ (t.chan (partner c)).st = .retired) :
    execStuckDominant dt { chan := c, low := low } s = .next (t.addCause c 0x11) := by
  unfold execStuckDominant
  rw [ht]
  refine (if_neg (by simp [ready, opened, long, State.passed, due])).trans (if_neg ?_)
  rcases alone with single | retired
  · simp [single]
  · simp [retired]

/-- In a LISTEN pair both channels are to retire (R207). -/
theorem execStuckDominant_pair (listen : t.par K.chanTwin (c - c % 2) = 1) (serves : (t.chan (partner c)).st ≠ .retired) :
    execStuckDominant dt { chan := c, low := low } s =
      .next ((((t.addCause c 0x11).addCause (partner c) 0x11).modErr c fun e => { e with bothRetire := true }).modErr
        (partner c) fun e => { e with bothRetire := true }) := by
  unfold execStuckDominant
  rw [ht]
  exact (if_neg (by simp [ready, opened, long, State.passed, due])).trans (if_pos (by simp [listen, serves]))

end stuck

theorem execLoopDelayWindow_judges {e : ChErr} {w : Nat} {u : State} (ready : t.dev.mode = .ready)
    (opened : (t.chan c).st = .opened) (he : e = (t.chan c).err) (hw : w = 1000000 * t.par K.chanTdcWindow c)
    (due : e.winAt + w ≤ t.now)
    (hu : u = t.modErr c fun x => { x with winAt := x.winAt + w, winCount := 0, winBad := 0 }) :
    execLoopDelayWindow dt c s = .next (
      if t.par K.chanTdcWindowFrames c ≤ e.winCount ∧ e.winBad = e.winCount then u.addCause c 0x12 else u) := by
  subst hu hw he
  unfold execLoopDelayWindow
  rw [ht]
  exact (if_neg (by simp [ready, opened, State.passed, due])).trans (congrArg _ (if_congr (by simp) rfl rfl))

theorem execPinReadback_adds (pad : Pad) (ready : t.dev.mode = .ready) :
    execPinReadback dt c pad s = .next (t.addCause c 0x14) := by
  unfold execPinReadback
  rw [ht]
  exact if_neg (not_not.mpr ready)

/-! ### Retirement and handover (R200, R204, R207) -/

/-- Both channels of a pair that are to retire do so in one step, as log entry 79 chooses. -/
theorem execChanRetired_retires {u : State} (ready : t.retireReady c = true) (hu : u = t.retireNow c) :
    execChanRetired dt c s = .next (
      if (u.chan (partner c)).err.bothRetire = true ∧ u.retireReady (partner c) = true then u.retireNow (partner c)
      else u) := by
  subst hu
  unfold execChanRetired
  rw [ht]
  exact (if_neg (by simp [ready])).trans (congrArg _ (if_congr (by simp) rfl rfl))

theorem execTwinHandover_hands (waits : (t.chan c).err.handTick = true) :
    execTwinHandover dt c s = .next (t.handover c false) := by
  unfold execTwinHandover
  rw [ht]
  exact if_pos waits

/-! ### Standby, wake-up and integration (R158, R172, R180) -/

theorem execSleepEnter_sleeps {u : State} (wanted : (t.chan c).wantSleep = true) (opened : (t.chan c).st = .opened)
    (idle : (t.chan c).txNow = none)
    (hu : u = ((t.pinsIdle c).loneDrop c).modChan c fun x =>
      { x with st := .sleep, phase := .none, wantSleep := false, txBuf := none, bufSched := false, bufKept := none,
               displaced := [], timingDue := none, timingOld := [] }) :
    execSleepEnter dt c s = .next ((((u.settle t c).chanEvent c 0x0101
      (le 1 (t.chan c).mode.code ++ le 1 5 ++ le 1 0)).schedUpdate c).schedUpdate (c - 1)) := by
  subst hu
  unfold execSleepEnter
  rw [ht]
  exact if_neg (by simp [wanted, opened, idle])

theorem execBusWake_reports {fell : W64} {u : State} (ready : t.dev.mode = .ready) (sleeps : (t.chan c).st = .sleep)
    (long : 1000 * (t.par K.chanWakeFilter c : Int) ≤ (t.clk.time - fell).toInt)
    (hu : u = t.chanEvent c 0x0104 (le 8 fell.toNat ++ le 1 (t.par K.chanWakeAction c))) :
    execBusWake dt c fell s =
      .next (if t.par K.chanWakeAction c = 1 then u.wantRelease c (t.chan c).mode 2 else u) := by
  subst hu
  unfold execBusWake
  rw [ht]
  exact if_neg (by simpa [ready, sleeps] using long)

theorem execWakeTimeExpired_integrates (releasing : (t.chan c).phase = .releasing)
    (due : (t.chan c).phaseAt + 1000 * t.par K.chanWakeTime c ≤ t.now) :
    execWakeTimeExpired dt c s = .next (t.modChan c fun x => { x with phase := .integrating }) := by
  unfold execWakeTimeExpired
  rw [ht]
  exact if_pos (by simp [releasing, State.passed, due])

theorem execChanOpenTimeout_ends {l : Long} (runs : (t.longs.find? fun l => l.code = 0x100 && l.res = c.val) = some l)
    (opening : (t.chan c).phase = .releasing ∨ (t.chan c).phase = .integrating)
    (due : (t.chan c).phaseAt + 100000000 ≤ t.now) :
    execChanOpenTimeout dt c s =
      .next (((t.pinsIdle c).modChan c fun x => { x with phase := .none }).finish l stTimeout 0 []) := by
  unfold execChanOpenTimeout
  rw [ht]
  simp only [runs]
  exact if_pos (by simpa [State.passed, due] using opening)

section integrated

variable (integrating : (t.chan c).phase = .integrating)
include integrating

theorem execIntegrationDone_opens (opening : (t.chan c).st = .closed ∨ (t.chan c).st = .sleep) :
    execIntegrationDone dt c s = .next (t.opened c) := by
  unfold execIntegrationDone
  rw [ht]
  rcases opening with closed | sleeps
  · simp [integrating, closed]
  · simp [integrating, sleeps]

theorem execIntegrationDone_returns (opened : (t.chan c).st = .opened) :
    execIntegrationDone dt c s = .next ((t.modChan c fun x => { x with phase := .none }).refill c) := by
  unfold execIntegrationDone
  rw [ht]
  simp [integrating, opened]

/-- A self-test goes on to its frames (Table 6.4). -/
theorem execIntegrationDone_tests (retired : (t.chan c).st = .retired) :
    execIntegrationDone dt c s = .next (t.modChan c fun x =>
      { x with phase := .testing, test := some { sent := 0, loMin := 0xFFFF, loMax := 0, bad := false } }) := by
  unfold execIntegrationDone
  rw [ht]
  simp [integrating, retired]

end integrated

/-! ### Changes between frames (R164, R165, R174) -/

section idle

variable (idle : (t.chan c).txNow = none)
include idle

theorem execModeChangeApplied_applies (opened : (t.chan c).st = .opened) :
    execModeChangeApplied dt c s = .next (t.applyMode c) := by
  unfold execModeChangeApplied
  rw [ht]
  exact if_pos (by simp [opened, idle])

theorem execTimingApplied_applies {b : W64} (due : (t.chan c).timingDue = some b) :
    execTimingApplied dt c s = .next (t.applyTiming c) := by
  unfold execTimingApplied
  rw [ht]
  exact if_pos (by simp [due, idle])

theorem execSamplePointMove_moves {a : ChAge} {u : State} (due : (t.chan c).spMoveDue = true)
    (opened : (t.chan c).st = .opened) (ha : a = (t.chan c).age)
    (hu : u = t.modChan c fun x => { x with
      spMoveDue := false
      age := { x.age with
        spA := (a.moveA.map (·.1)).getD a.spA, ssp := (a.moveD.map (·.1)).getD a.ssp
        sjwCut := (t.cfg c).sjwCut ((a.moveA.map (·.1)).getD a.spA)
        histA := if a.moveA.isSome then [] else a.histA, histD := if a.moveD.isSome then [] else a.histD
        moveA := none, moveD := none } }) :
    execSamplePointMove dt c s =
      .next (((u.decideMove c 2 a.spA a.moveA).decideMove c 3 a.ssp a.moveD).timingEvent c 1 0) := by
  subst hu ha
  unfold execSamplePointMove
  rw [ht]
  exact if_neg (by simp [due, opened, idle])

end idle

end rows

/-- Settles O42: the guards of each row hold, and the state selects its branch. -/
theorem channelStateRowsComplete : Obligations.ChannelStateRowsComplete := by
  refine ⟨fun _ _ _ => execBoffDelayExpired_recovers rfl, fun _ _ _ => execRecoveryDone_activates rfl,
    fun _ _ _ => ?lone, fun _ _ _ => execLoneProbe_test rfl,
    fun _ _ _ _ _ _ held hu still home => execLoneProbe_object rfl held hu still home,
    fun _ _ _ _ => execStuckDominant_alone rfl, fun _ _ _ _ => execStuckDominant_pair rfl,
    fun _ _ _ ready opened _ _ he hw due _ hu => execLoopDelayWindow_judges rfl ready opened he hw due hu,
    fun _ _ pad _ ready => execPinReadback_adds rfl pad ready, fun _ _ _ => ?retired, fun _ _ _ => execTwinHandover_hands rfl,
    fun _ _ _ wanted opened idle _ hu => execSleepEnter_sleeps rfl wanted opened idle hu,
    fun _ _ _ _ ready sleeps long _ hu => execBusWake_reports rfl ready sleeps long hu,
    fun _ _ _ => execWakeTimeExpired_integrates rfl, fun dt c s => ?integrated,
    fun _ _ _ _ => execChanOpenTimeout_ends rfl,
    fun _ _ _ opened idle => execModeChangeApplied_applies rfl idle opened, fun _ _ _ => ?timing,
    fun _ _ _ due opened idle _ _ ha hu => execSamplePointMove_moves rfl idle due opened ha hu⟩
  case lone =>
    exact fun ready opened mode integrated notLone unheard due _ hu =>
      execLoneEnter_enters rfl (State.onBus_eq_true ready opened (by simp [mode]) integrated) mode notLone unheard due hu
  case retired =>
    intro t cause live idle u hu
    exact (execChanRetired_retires rfl (State.retireReady_iff.mpr ⟨cause, live, idle⟩) hu).trans
      (congrArg _ (if_congr (and_congr_right' State.retireReady_iff) rfl rfl))
  case integrated =>
    intro t integrating
    cases st : (t.chan c).st with
    | closed => exact execIntegrationDone_opens rfl integrating (.inl st)
    | sleep => exact execIntegrationDone_opens rfl integrating (.inr st)
    | opened => exact execIntegrationDone_returns rfl integrating st
    | retired => exact execIntegrationDone_tests rfl integrating st
  case timing =>
    rintro t b due idle fits u rfl rfl
    exact execTimingApplied_applies rfl idle due

end Sys2Proof.Machine
end

section
/-! SUPPORT. The commands of message objects and rule lists (R220 to R223, R231, R240, R242, R244): what the handler of a
good request answers. -/
namespace Sys2Proof.Machine

variable {r : Req} {s : State} {c : Nat}

/-! ### Objects and rings (R231, R240, R242, R244) -/

theorem hObjDefine_stages_entries (good : s.objRefused r = none) :
    hObjDefine r s = .done stStaged [] (s.restage r.part fun _ => s.objStage r) := by
  simp only [hObjDefine, good]

/-- The state that an OBJ_READ of object `o` leaves: NEW and OVERWRITE cleared where its flag asks for it (R240). -/
def State.objTaken (s : State) (r : Req) (c o : Nat) : State :=
  if bitOf (r.u 2 1) 0 then s.modObj c o fun y => { y with new := false, overwrite := false } else s

section read

variable {o : Nat} (hc : c = r.u 0 1) (range : c ≤ 31) (own : s.mayOperate r.part .chan c = true)
  (live : s.retired c = false) (ho : o = r.u 1 1) (object : o ≤ 127) (defined : s.objDir c o ≠ 0)

include hc range own live ho object defined

/-- OBJ_READ of a defined object is refused for its bulk range only (R242). -/
theorem hObjRead_defined :
    hObjRead r s =
      (let pay := ((s.chan c).obj o).payload
       if pay.length ≤ 432 then .done stOk (s.objRecord c o ++ pay) (s.objTaken r c o)
       else if r.bulkLen < pay.length then .refuse stBadLength 12
       else .done stOk (le 4 pay.length ++ s.objRecord c o)
         ((s.objTaken r c o).storeWrite (s.bulkBase r.part + r.bulkOff) pay)) := by
  subst hc ho
  unfold hObjRead
  rw [if_neg (Nat.not_lt.mpr range), if_neg (Nat.not_lt.mpr object), if_neg (by simp [own]), if_neg defined,
    if_neg (by simp [live])]
  rfl

theorem hObjRead_inline (short : ((s.chan c).obj o).payload.length ≤ 432) :
    hObjRead r s = .done stOk (s.objRecord c o ++ ((s.chan c).obj o).payload) (s.objTaken r c o) :=
  (hObjRead_defined hc range own live ho object defined).trans (if_pos short)

theorem hObjRead_bulk (long : 432 < ((s.chan c).obj o).payload.length)
    (fits : ((s.chan c).obj o).payload.length ≤ r.bulkLen) :
    hObjRead r s = .done stOk (le 4 ((s.chan c).obj o).payload.length ++ s.objRecord c o)
      ((s.objTaken r c o).storeWrite (s.bulkBase r.part + r.bulkOff) ((s.chan c).obj o).payload) :=
  (hObjRead_defined hc range own live ho object defined).trans
    ((if_neg (Nat.not_le.mpr long)).trans (if_neg (Nat.not_lt.mpr fits)))

end read

/-- FILT_STATUS answers the high water since the last one, then starts it anew (R217, R244). -/
theorem hFiltStatus_reports (hc : c = r.u 0 1) (range : c ≤ 31) (own : s.mayOperate r.part .chan c = true)
    (live : s.retired c = false) :
    hFiltStatus r s =
      .done stOk (s.filtStatus c) (s.modRing c fun y => { y with dropTold := false, high := y.used }) :=
  onChan_operated (f := fun c => .done stOk (s.filtStatus c)
    (s.modRing c fun y => { y with dropTold := false, high := y.used })) hc range own live

/-- Settles O27: each request passes the checks of its handler. -/
theorem objectCommandsComplete : Obligations.ObjectCommandsComplete :=
  ⟨fun _ _ _ hs good => mailbox_done hs (hObjDefine_stages_entries good),
   fun _ _ _ hs _ hc range own live _ ho object defined short =>
      mailbox_done hs (hObjRead_inline hc range own live ho object defined short),
   fun _ _ _ hs _ hc range own live _ ho object defined long fits =>
      mailbox_done hs (hObjRead_bulk hc range own live ho object defined long fits),
   fun _ _ _ hs _ hc range own live => mailbox_done hs (hFiltStatus_reports hc range own live)⟩

/-! ### Rule lists (R220 to R223, R242) -/

theorem hRuleStage_stages_list {l : RuleList} (good : s.rulesOf r = .ok l) :
    hRuleStage r s = .done stStaged [] (s.restage r.part fun g => { g with rules := putAssoc g.rules (r.u 0 1) l }) := by
  simp only [hRuleStage, good]

/-- A reply that fits the bulk range of its request (R84). -/
theorem bulkReply_fits {bs : List Byte} (fits : bs.length ≤ r.bulkLen) (long : r.bulkLen ≠ 0) :
    bulkReply r bs s = .done stOk (le 4 bs.length) (s.storeWrite (s.bulkBase r.part + r.bulkOff) bs) :=
  if_neg (by simp [long, Nat.not_lt.mpr fits])

/-- The list of channel `c` that RULE_READ names by `which`: 0 the active one, else the staged one, if any (R242). -/
def State.ruleListOf (s : State) (c which : Nat) : Option RuleList :=
  if which = 0 then some (s.chan c).rules else s.stagedRules c

theorem hRuleRead_writes_list {l : RuleList} {bs : List Byte} (hc : c = r.u 0 1) (range : c ≤ 31)
    (own : s.mayOperate r.part .chan c = true) (live : s.retired c = false) (which : r.u 1 1 ≤ 1)
    (list : s.ruleListOf c (r.u 1 1) = some l) (hbs : bs = l.bytes c) (fits : bs.length ≤ r.bulkLen)
    (long : r.bulkLen ≠ 0) :
    hRuleRead r s = .done stOk (le 4 bs.length) (s.storeWrite (s.bulkBase r.part + r.bulkOff) bs) := by
  subst hc hbs
  unfold hRuleRead
  rw [if_neg (Nat.not_lt.mpr range), if_neg (Nat.not_lt.mpr which), if_neg (by simp [own]), if_neg (by simp [live])]
  unfold State.ruleListOf at list
  by_cases active : r.u 1 1 = 0
  · obtain rfl : (s.chan (r.u 0 1)).rules = l := by simpa [active] using list
    exact (if_pos active).trans (bulkReply_fits fits long)
  · have staged : s.stagedRules (r.u 0 1) = some l := by simpa [active] using list
    simp only [active, staged, if_false]
    exact bulkReply_fits fits long

/-- Settles O28: each request passes the checks of its handler. -/
theorem ruleCommandsComplete : Obligations.RuleCommandsComplete :=
  ⟨fun _ _ _ hs _ good => mailbox_done hs (hRuleStage_stages_list good),
   fun _ _ _ hs _ hc range own live active _ hbs fits long =>
      mailbox_done hs (hRuleRead_writes_list hc range own live (by omega) (if_pos active) hbs fits long),
   fun _ _ _ hs _ hc range own live which _ _ staged hbs fits long =>
      mailbox_done hs (hRuleRead_writes_list hc range own live which.le ((if_neg (by omega)).trans staged) hbs fits long)⟩

end Sys2Proof.Machine
end

section
/-! SUPPORT. The commands of schedules (R251, R275, R279, R280): what the handler of a good request answers. -/
namespace Sys2Proof.Machine

variable {r : Req} {s : State}

/-! ### Staged schedules (R251, R279, R280) -/

theorem hSchedStage_stages_wafer (form : r.form = 1) (good : s.waferRefused r = none) :
    hSchedStage r s = .done stStaged [] (s.restage r.part fun g => g.withSections (s.waferOf r)) := by
  simp only [hSchedStage, form, if_true, good]

theorem hSchedStage_stages_basic (form : r.form = 0) (good : s.basicRefused r = none) :
    hSchedStage r s = .done stStaged [] (s.restage r.part fun g => g.withSections [s.basicSection r]) := by
  simp only [hSchedStage, form, zero_ne_one, if_false, good]

/-- The removal of a schedule is staged as the key of its channel with no schedule (R279). -/
theorem hSchedClear_stages_removal {c : Nat} (hc : c = r.u 0 1) (range : c ≤ 31)
    (own : s.mayOperate r.part .chan c = true) (live : s.retired c = false)
    (alone : s.stageBusy r.part (0x10000 + c) = false) :
    hSchedClear r s =
      .done stStaged [] (s.restage r.part fun g => { g with scheds := putAssoc g.scheds c none }) := by
  subst hc
  unfold hSchedClear
  rw [if_neg (Nat.not_lt.mpr range), if_neg (by simp [own]), if_neg (by simp [live]), if_neg (by simp [alone])]

/-! ### Reports (R275, R279) -/

theorem hSchedRead_writes_wafer {bs : List Byte} (which : r.u 0 1 ≤ 1)
    (hbs : bs = waferBytes ((s.myChans r.part).filterMap fun c =>
      (if r.u 0 1 = 0 then (s.chan c).sched else (s.stagedSched c).getD none).map fun d => (c, d)))
    (fits : bs.length ≤ r.bulkLen) (long : r.bulkLen ≠ 0) :
    hSchedRead r s = .done stOk (le 4 bs.length) (s.storeWrite (s.bulkBase r.part + r.bulkOff) bs) := by
  subst hbs
  exact (if_neg (Nat.not_lt.mpr which)).trans (bulkReply_fits fits long)

/-- Only CLEAR asks for the right to operate the channel (R275). -/
theorem hSchedStatus_reports {c : Nat} (hc : c = r.u 0 1) (range : c ≤ 31) (live : s.retired c = false)
    (own : bitOf (r.u 1 1) 0 = true → s.mayOperate r.part .chan c = true) :
    hSchedStatus r s = .done stOk (s.schedStatus c) (if bitOf (r.u 1 1) 0 then s.modRt c fun y =>
      { y with fired := 0, missed := 0, late := 0, blocked := 0, empty := 0, refSent := 0, refMissed := 0,
               revFired := 0, errMax := 0, refFailed := 0 } else s) := by
  subst hc
  unfold hSchedStatus
  rw [if_neg (Nat.not_lt.mpr range)]
  exact (if_neg (by simpa using own)).trans (if_neg (by simp [live]))

/-- Settles O29: each request passes the checks of its handler. -/
theorem scheduleCommandsComplete : Obligations.ScheduleCommandsComplete :=
  ⟨fun _ _ _ hs form good => mailbox_done hs (hSchedStage_stages_wafer form good),
   fun _ _ _ hs form good => mailbox_done hs (hSchedStage_stages_basic form good),
   fun _ _ _ hs _ hc range own live alone => mailbox_done hs (hSchedClear_stages_removal hc range own live alone),
   fun _ _ _ hs which _ hbs fits long => mailbox_done hs (hSchedRead_writes_wafer which hbs fits long),
   fun _ _ _ hs _ hc range live own => mailbox_done hs (hSchedStatus_reports hc range live own)⟩

end Sys2Proof.Machine
end

section
/-! SUPPORT. The events of a schedule (R257 to R276): what each row leaves where its guards hold. -/
namespace Sys2Proof.Machine

variable {dt : Nat} {c : Fin 32} {s t : State} {d : Sched} {x : Armed}

/-! ### Targets (R258) -/

/-- The reference message `a` of an occurrence after FIRING_TARGET_UPDATE, its target computed again until it is fixed. -/
def State.retargetArm (t : State) (d : Sched) (back : Bool) (a : ArmMsg) : ArmMsg :=
  if a.fixed ∨ a.spent then a
  else { a with target := t.targetOf d a.coord back, fixed := t.targetFixed (t.targetOf d a.coord back) }

/-- The armed occurrence `x` after FIRING_TARGET_UPDATE, with the target of its reference message. -/
def State.retarget (t : State) (d : Sched) (x : Armed) : Armed :=
  { x with
    target := t.targetOf d x.coord x.back
    fixed := t.targetFixed (t.targetOf d x.coord x.back)
    arm := x.arm.map (t.retargetArm d x.back) }

theorem execFiringTargetUpdate_retargets (ht : s.elapse dt = t) (scheduled : (t.chan c).sched = some d)
    (armed : (t.chan c).rt.armed = some x) (moves : x.fixed = false) :
    execFiringTargetUpdate dt c s = .next (t.modRt c fun r => { r with armed := some (t.retarget d x) }) := by
  have arm : (x.arm.map fun a =>
      if a.fixed || a.spent then a
      else { a with target := t.targetOf d a.coord x.back, fixed := t.targetFixed (t.targetOf d a.coord x.back) }) =
      x.arm.map (t.retargetArm d x.back) :=
    congrArg (x.arm.map ·) (funext fun _ => if_congr (by simp) rfl rfl)
  unfold execFiringTargetUpdate
  rw [ht]
  simp only [scheduled, armed, arm]
  exact if_neg (by simp [moves])

/-! ### Starts of occurrences (R259) -/

section fire

variable {sof : W64} {blocker : Option W32}

/-- In `v`, the frame of the slot of `x`, formed in `t`, has been taken into progress by the engine that sends for `c`. -/
def State.startSlot (t v : State) (c : Nat) (x : Armed) (sof : W64) : State :=
  if h : x.slot.object < 128 then
    v.takeOff (t.engineOf c) (.object ⟨x.slot.object, h⟩) true (t.slotFrame (t.engineOf c) c x.slot.object sof) sof
  else v

variable (ht : (s.elapse dt).schedHush c = t) (scheduled : (t.chan c).sched = some d)
  (inTime : 0 < ahead x.back (startLimit x) (t.schedPosAt d sof) ∨ x.target = some sof)
  (noPass : (t.chan c).passDue = none) (sends : t.canSend (t.engineOf c) = true)
  (running : (t.chan c).rt.st ≠ .suspended) (free : (t.chan (t.engineOf c)).txNow = none)
include ht scheduled inTime noPass sends running free

/-- An attempt that failed is followed by the next, at any time before the start limit (R263). -/
theorem execScheduledFire_retries (flies : (t.chan c).rt.flying = some x) (waits : x.started = false) :
    execScheduledFire dt c sof blocker s =
      .next (t.startSlot (t.modRt c fun r => { r with flying := some { x with started := true } }) c x sof) := by
  unfold execScheduledFire
  rw [ht]
  simp only [scheduled, flies]
  exact (if_neg (by simp [noPass, sends, running, free])).trans (if_pos (by simpa [waits] using inTime))

theorem execScheduledFire_fires {target : W64} (grounded : (t.chan c).rt.flying = none)
    (armed : (t.chan c).rt.armed = some x) (aims : x.target = some target) (due : 0 ≤ (busTime sof - target).toInt) :
    execScheduledFire dt c sof blocker s = .next (t.startSlot (t.fireFirst c d x sof blocker) c x sof) := by
  rw [aims] at inTime
  unfold execScheduledFire
  rw [ht]
  simp only [scheduled, grounded, armed, aims]
  exact (if_neg (by simp [noPass, sends, running, free])).trans (if_pos (by simpa [due, -BitVec.toInt_sub] using inTime))

end fire

/-! ### Reference messages (R265, R269) -/

section arm

variable {a : ArmMsg} {target : W64} {sof : Option W64} {readbackOk : Bool}

/-- A reference message that is due starts while no more than one t_bitA and the 20 ns of R15 have passed. -/
theorem State.armStarts_due {v : W64} (aims : a.target = some target) (due : 0 ≤ (busTime v - target).toInt) :
    t.armStarts c x a (some v) = some (decide (16 * (v - target).toInt ≤ ((t.engCfg c).bitA + 320 : Int))) := by
  simp only [State.armStarts, aims, if_neg (not_lt.mpr due), ← decide_not, not_lt]

/-- One whose time has passed does not start, with a start of frame or without. -/
theorem State.armStarts_late (aims : a.target = some target)
    (due : 0 ≤ (busTime (sof.getD t.clk.time) - target).toInt)
    (late : ((t.engCfg c).bitA + 320 : Int) < 16 * (sof.getD t.clk.time - target).toInt) :
    t.armStarts c x a sof = some false := by
  cases sof with
  | some v => exact (State.armStarts_due aims due).trans (congrArg some (decide_eq_false (not_le.mpr late)))
  | none => simpa [State.armStarts, aims, -BitVec.toInt_sub] using late

/-- The reference message of `x` is spent in `t`: `missed` counts it where it did not start, and a failed readback of its
payload raises 0x067. -/
def State.spendArm (t : State) (c : Nat) (x : Armed) (a : ArmMsg) (started readbackOk : Bool) : State :=
  let u := t.modRt c fun r =>
    { r with armed := some { x with arm := some { a with spent := true } },
             refMissed := if started then r.refMissed else r.refMissed + 1 }
  if readbackOk then u else u.raiseU 0x67 0 2 c false 0

variable (ht : s.elapse dt = t) (armed : (t.chan c).rt.armed = some x) (message : x.arm = some a)
  (unspent : a.spent = false) (aims : a.target = some target)
include ht armed message unspent aims

theorem execArmFire_starts {v : W64} (due : 0 ≤ (busTime v - target).toInt)
    (inTime : 16 * (v - target).toInt ≤ ((t.engCfg c).bitA + 320 : Int)) (sends : t.canSend (t.engineOf c) = true)
    (running : (t.chan c).rt.st ≠ .suspended) (free : (t.chan (t.engineOf c)).txNow = none)
    (noPass : (t.chan c).passDue = none) :
    execArmFire dt c (some v) readbackOk s =
      .next ((t.spendArm c x a true readbackOk).takeOff (t.engineOf c) .arm true (t.armFrame c a.payload) v) := by
  have starts : t.armStarts c x a (some v) = some true :=
    (State.armStarts_due aims due).trans (congrArg some (decide_eq_true inTime))
  unfold execArmFire
  rw [ht]
  simp [armed, message, unspent, starts, sends, running, free, noPass, State.spendArm]

theorem execArmFire_misses (due : 0 ≤ (busTime (sof.getD t.clk.time) - target).toInt)
    (late : ((t.engCfg c).bitA + 320 : Int) < 16 * (sof.getD t.clk.time - target).toInt) :
    execArmFire dt c sof readbackOk s = .next (t.spendArm c x a false readbackOk) := by
  have starts : t.armStarts c x a sof = some false := State.armStarts_late aims due late
  unfold execArmFire
  rw [ht]
  simp [armed, message, unspent, starts, State.spendArm]

end arm

section cycle

/-- The basic cycle of channel `c` that begins at `due` in `t`: `started` tells whether its reference message starts. -/
def State.beginCycle (t : State) (c : Nat) (d : Sched) (due : W64) (started : Bool) : State :=
  t.modRt c fun y => { y with
    cycleAt := due, cycleCount := if y.last.isNone then 0 else (y.cycleCount + 1) % d.matrix,
    last := some (match y.last with
      | some l => if 0 < (l - due).toInt then l else due
      | none => due),
    refMissed := if started then y.refMissed else y.refMissed + 1 }

theorem execRefMessage_begins {due : W64} {started readbackOk ok : Bool} (ht : s.elapse dt = t)
    (scheduled : (t.chan c).sched = some d)
    (hdue : due = (if (t.chan c).rt.last.isNone then (t.chan c).rt.cycleAt
      else (t.chan c).rt.cycleAt + BitVec.ofNat 64 d.cycle))
    (time : d.angle = false) (runs : (t.chan c).rt.st ≠ .idle) (passed : 0 ≤ (t.clk.time - due).toInt)
    (hok : ok = (started && readbackOk && t.canSend (t.engineOf c) && (t.chan (t.engineOf c)).txNow.isNone &&
      (t.chan c).passDue.isNone)) :
    execRefMessage dt c started readbackOk s = .next (
      if ok then (t.beginCycle c d due ok).takeOff (t.engineOf c) .ref true ((t.beginCycle c d due ok).refFrame c) t.clk.time
      else (t.beginCycle c d due ok).raiseU 0x64 0 1 c false 0) := by
  subst hok hdue
  unfold execRefMessage
  rw [ht]
  simp only [scheduled]
  exact if_neg (by simpa [time, runs, -BitVec.toInt_sub] using passed)

/-- The payload of a reference message of a level (R269, R271; log entry 12). -/
def refPayload (level count ntu : Nat) (disc : Bool) : List Byte :=
  fit (Config.refLen level % 9) (Config.refMessage level count ntu disc)

theorem plainFrame_refPayload (id level count ntu : Nat) (disc : Bool) :
    (plainFrame id .cc (refPayload level count ntu disc)).payload = refPayload level count ntu disc := by
  have short : (refPayload level count ntu disc).length ≤ 8 := by
    rw [refPayload, fit_length]
    omega
  exact List.take_of_length_le short

theorem State.refFrame_eq (scheduled : (t.chan c).sched = some d) :
    t.refFrame c = plainFrame (t.par K.chanRefId c) .cc (refPayload d.level (t.chan c).rt.cycleCount
      (t.clk.time.toNat / max 1 (t.par K.chanTtcNtu c)) (decide ((t.chan c).rt.refGen ≠ t.clk.gen))) := by
  simp [State.refFrame, scheduled, refPayload]

theorem State.beginCycle_refFrame {due : W64} {started : Bool} (scheduled : (t.chan c).sched = some d) :
    (t.beginCycle c d due started).refFrame c = plainFrame (t.par K.chanRefId c) .cc (refPayload d.level
      (if (t.chan c).rt.last.isNone then 0 else ((t.chan c).rt.cycleCount + 1) % d.matrix)
      (t.clk.time.toNat / max 1 (t.par K.chanTtcNtu c)) (decide ((t.chan c).rt.refGen ≠ t.clk.gen))) := by
  have rt : (t.beginCycle c d due started).chan c = _ := t.modChan_chan_self _ c.isLt
  rw [State.refFrame_eq (d := d) (by rw [rt]; exact scheduled), rt]
  rfl

theorem State.takeOff_nowFrame {e : Nat} {w : TxWhat} {sched : Bool} {f : Frame} {sof : W64} (he : e < 32) :
    ((s.takeOff e w sched f sof).chan e).nowFrame = some f := by
  rw [State.takeOff, State.modChan_chan_self s _ he]

end cycle

/-! ### Reports and windows (R261, R276) -/

theorem execSchedReport_reports {r : SchedRt} (ht : s.elapse dt = t) (hr : r = (t.chan c).rt)
    (risen : r.repMissed ≠ 0 ∨ r.repBlocked ≠ 0)
    (due : r.reportAt = 0 ∨ r.reportAt + 1000000 * t.par K.schedReportInterval 0 ≤ t.now) :
    execSchedReport dt c s = .next ((t.modRt c fun y =>
      { y with repMissed := 0, repBlocked := 0, reportAt := t.now }).event (t.chanOwner c) 0x0401 c
        (le 4 r.repMissed.toNat ++ le 4 r.repBlocked.toNat ++ le 4 r.lastBlocker.toNat ++ zs 4 ++
          le 8 r.lastMiss.toNat)) := by
  subst hr
  unfold execSchedReport
  rw [ht]
  exact if_neg (by
    simpa [State.passed] using And.intro (not_and_or.mpr risen) (or_iff_not_imp_left.mp due))

theorem execExclusiveWindowEnd_refills (ht : s.elapse dt = t) (scheduled : (t.chan c).sched = some d)
    (outside : t.inWindow c (t.schedPos d) = false) :
    execExclusiveWindowEnd dt c s = .next (t.refill (t.engineOf c)) := by
  unfold execExclusiveWindowEnd
  rw [ht]
  simp only [scheduled]
  exact if_neg (by simp [outside])

/-! ### What the statement about these rows asks of reference messages -/

/-- The content of a reference message does not depend on the cycle count. -/
def RefMessagesIgnoreCount : Prop :=
  ∀ level < 4, ∀ (count ntu : Nat) (disc : Bool), ntu < 2 ^ 64 →
    refPayload level count ntu disc = refPayload level 0 ntu disc

/-- Then the message of the cycle that begins is the one that the cycle before it would have. -/
theorem RefMessagesIgnoreCount.refFrame (same : RefMessagesIgnoreCount) {due : W64} {started : Bool}
    (scheduled : (t.chan c).sched = some d) : (t.beginCycle c d due started).refFrame c = t.refFrame c := by
  have level : d.level < 4 := Nat.mod_lt _ (by decide)
  have ntu : t.clk.time.toNat / max 1 (t.par K.chanTtcNtu c) < 2 ^ 64 :=
    (Nat.div_le_self _ _).trans_lt t.clk.time.isLt
  rw [State.beginCycle_refFrame scheduled, State.refFrame_eq scheduled, same _ level _ _ _ ntu,
    same _ level (t.chan c).rt.cycleCount _ _ ntu]

/-- A TIME schedule of a level. -/
def timeSched (level : Nat) : Sched :=
  { kind := 0, lc := 0, flags := 2 * level, matrix := 1, winSpeedMin := 0, cycle := 1000000, base := 0, lateTol := 0,
    refLead := 0, waferId := 0, slots := [] }

/-- Channel 31, its cycle count at `count`, begins the first basic cycle of a TIME schedule at TIME `ntu`. -/
def firstCycle (level count ntu : Nat) (disc : Bool) : State :=
  let u := State.reset.setPar K.chanTtcNtu 31 1
  { u with clk := { u.clk with time := BitVec.ofNat 64 ntu } }.modChan 31 fun x =>
    { x with
      st := .opened
      sched := some (timeSched level)
      rt := { x.rt with st := .running, cycleCount := count, cycleAt := BitVec.ofNat 64 ntu
                        refGen := if disc then 1 else 0 } }

section firstCycle

variable {level count ntu : Nat} {disc : Bool}

theorem timeSched_level (h : level < 4) : (timeSched level).level = level := by
  simp only [timeSched, Sched.level]
  omega

theorem State.elapse_zero (still : s.clk.slewing = false) (unearned : s.clk.slewAcc = 0) : s.elapse 0 = s := by
  obtain ⟨⟨⟩⟩ := s
  simp_all [State.elapse]

theorem firstCycle_elapse : (firstCycle level count ntu disc).elapse 0 = firstCycle level count ntu disc :=
  State.elapse_zero rfl rfl

theorem firstCycle_sched : ((firstCycle level count ntu disc).chan (31 : Fin 32)).sched = some (timeSched level) := rfl

theorem firstCycle_ntu (h : ntu < 2 ^ 64) :
    (firstCycle level count ntu disc).clk.time.toNat /
      max 1 ((firstCycle level count ntu disc).par K.chanTtcNtu (31 : Fin 32)) = ntu := by
  have unit : (firstCycle level count ntu disc).par K.chanTtcNtu (31 : Fin 32) = 1 :=
    show (State.reset.setPar K.chanTtcNtu 31 1).par K.chanTtcNtu 31 = 1 by decide
  have time : (firstCycle level count ntu disc).clk.time.toNat = ntu := Nat.mod_eq_of_lt h
  rw [unit, time, max_self, Nat.div_one]

theorem firstCycle_disc :
    decide (((firstCycle level count ntu disc).chan (31 : Fin 32)).rt.refGen ≠ (firstCycle level count ntu disc).clk.gen) =
      disc := by
  cases disc <;> rfl

theorem firstCycle_refFrame (hl : level < 4) (hn : ntu < 2 ^ 64) :
    ((firstCycle level count ntu disc).refFrame (31 : Fin 32)).payload = refPayload level count ntu disc := by
  rw [State.refFrame_eq firstCycle_sched, plainFrame_refPayload, timeSched_level hl, firstCycle_ntu hn, firstCycle_disc]
  rfl

theorem firstCycle_beginCycle_refFrame (hl : level < 4) (hn : ntu < 2 ^ 64) {due : W64} {started : Bool} :
    (((firstCycle level count ntu disc).beginCycle (31 : Fin 32) (timeSched level) due started).refFrame
      (31 : Fin 32)).payload = refPayload level 0 ntu disc := by
  rw [State.beginCycle_refFrame firstCycle_sched, plainFrame_refPayload, timeSched_level hl, firstCycle_ntu hn,
    firstCycle_disc]
  rfl

theorem firstCycle_runs : ((firstCycle level count ntu disc).chan (31 : Fin 32)).rt.st ≠ .idle :=
  SchedState.noConfusion

theorem firstCycle_due : 0 ≤ ((firstCycle level count ntu disc).clk.time - BitVec.ofNat 64 ntu).toInt := by
  have time : (firstCycle level count ntu disc).clk.time = BitVec.ofNat 64 ntu := rfl
  rw [time, BitVec.sub_self]
  rfl

/-- The row sends the message of the cycle that begins. -/
theorem firstCycle_sends :
    execRefMessage 0 31 true true (firstCycle level count ntu disc) = .next (
      let u := (firstCycle level count ntu disc).beginCycle (31 : Fin 32) (timeSched level) (BitVec.ofNat 64 ntu) true
      u.takeOff 31 .ref true (u.refFrame (31 : Fin 32)) (firstCycle level count ntu disc).clk.time) :=
  execRefMessage_begins (ok := true) firstCycle_elapse firstCycle_sched rfl rfl firstCycle_runs firstCycle_due
    rfl

end firstCycle

theorem refMessagesIgnoreCount_of_rows (rows : Obligations.ScheduleRowsComplete) : RefMessagesIgnoreCount := by
  intro level hlevel count ntu disc hntu
  obtain ⟨-, -, -, -, -, cycle, -⟩ := rows
  have stated := cycle 0 31 true true (firstCycle level count ntu disc)
  rw [firstCycle_elapse] at stated
  have ends := firstCycle_sends.symm.trans
    (stated _ _ (BitVec.ofNat 64 ntu) firstCycle_sched rfl rfl rfl firstCycle_runs firstCycle_due true rfl _ rfl)
  rw [if_pos rfl] at ends
  have frames := (State.takeOff_nowFrame (by decide)).symm.trans
    ((congrArg (fun u => (u.chan 31).nowFrame) (Host.Outcome.next.inj ends)).trans
      (State.takeOff_nowFrame (show 31 < 32 by decide)))
  have payloads := congrArg Frame.payload (Option.some.inj frames)
  rw [firstCycle_beginCycle_refFrame hlevel hntu, firstCycle_refFrame hlevel hntu] at payloads
  exact payloads.symm

theorem RefMessagesIgnoreCount.rows (same : RefMessagesIgnoreCount) : Obligations.ScheduleRowsComplete := by
  refine ⟨fun _ _ _ _ _ => execFiringTargetUpdate_retargets rfl, fun _ _ _ _ _ => ?retry, fun _ _ _ _ _ => ?first,
    fun _ _ _ _ _ => ?armStarts, fun _ _ _ _ _ => ?armLate, fun _ _ _ _ _ => ?cycle, fun _ _ _ => rfl,
    fun _ _ _ _ => execSchedReport_reports rfl, fun _ _ _ _ => execExclusiveWindowEnd_refills rfl, fun _ _ _ => rfl⟩
  case retry =>
    rintro t d x scheduled flies waits inTime noPass sends running free go rfl
    exact execScheduledFire_retries rfl scheduled inTime noPass sends running free flies waits
  case first =>
    rintro t d x target scheduled grounded armed aims due inTime noPass sends running free go rfl
    exact execScheduledFire_fires rfl scheduled inTime noPass sends running free grounded armed aims due
  case armStarts =>
    rintro t x a target armed message unspent aims due inTime sends running free noPass u rfl
    exact execArmFire_starts rfl armed message unspent aims due inTime sends running free noPass
  case armLate =>
    rintro t x a target armed message unspent aims due late u rfl
    exact execArmFire_misses rfl armed message unspent aims due late
  case cycle =>
    rintro t d r due scheduled rfl hdue time runs passed ok hok u rfl
    refine (execRefMessage_begins rfl scheduled hdue time runs passed hok).trans ?_
    rw [same.refFrame scheduled]
    rfl

/-- What O43 comes to, which is left unsettled: its clause about REF_MESSAGE names the reference message as it was before the new
basic cycle began, while the row sends that of the cycle that begins (R269). The two differ in the cycle count alone, and
whether the content depends on it is a free value of the model (`Config.refMessage`, log entry 12). -/
theorem scheduleRowsComplete_iff : Obligations.ScheduleRowsComplete ↔ RefMessagesIgnoreCount :=
  ⟨refMessagesIgnoreCount_of_rows, RefMessagesIgnoreCount.rows⟩

end Sys2Proof.Machine
end

section
/-! SUPPORT. The commands of signal sets (R284 to R286, R305, R306): what the handler of a good request answers. -/
namespace Sys2Proof.Machine

variable {r : Req} {s : State} {c : Nat}

/-! ### Staged sets (R285, R286, R305) -/

theorem hSigStage_stages_sets (good : s.sigMapBad r = none) :
    hSigStage r s =
      (let bs := s.bulkIn r
       let new := (chansOf (rd bs 4 4)).map fun c => (c, mapSet bs (rd bs 8 4) (rd bs 12 4) c)
       .done stStaged [] (s.restage r.part fun g =>
         { g with sigs := new.foldl (fun m x => putAssoc m x.1 x.2) g.sigs })) := by
  simp only [hSigStage, good]

/-- The removal of a signal set is staged as the empty set (R305). -/
theorem hSigClear_stages_empty (hc : c = r.u 0 1) (range : c ≤ 31) (own : s.mayOperate r.part .chan c = true)
    (live : s.retired c = false) (alone : s.stageBusy r.part (0x10000 + c) = false) :
    hSigClear r s =
      .done stStaged [] (s.restage r.part fun g => { g with sigs := putAssoc g.sigs c SigSet.empty }) := by
  subst hc
  unfold hSigClear
  rw [if_neg (Nat.not_lt.mpr range), if_neg (by simp [own]), if_neg (by simp [live]), if_neg (by simp [alone])]

/-! ### Reports (R305, R306) -/

/-- The sets that SIG_READ of partition `p` names by `which`: 0 the active ones, else those staged (R305). -/
def State.sigSetsOf (s : State) (p which : Nat) : List (Nat × SigSet) :=
  if which = 0 then (s.myChans p).map fun c => (c, (s.chan c).sigs)
  else (s.myChans p).filterMap fun c => (s.stagedSigs c).map fun x => (c, x)

theorem State.sigSetsOf_active {p which : Nat} (active : which = 0) :
    s.sigSetsOf p which = (s.myChans p).map fun c => (c, (s.chan c).sigs) := if_pos active

theorem State.sigSetsOf_staged {p which : Nat} (staged : which = 1) :
    s.sigSetsOf p which = (s.myChans p).filterMap fun c => (s.stagedSigs c).map fun x => (c, x) :=
  if_neg (by omega)

/-- Only a read of the staged sets is refused where there is none. -/
theorem hSigRead_writes_map {bs : List Byte} (which : r.u 0 1 ≤ 1)
    (some_staged : r.u 0 1 = 1 → (s.sigSetsOf r.part (r.u 0 1)).isEmpty = false)
    (hbs : bs = mapBytes (s.sigSetsOf r.part (r.u 0 1))) (fits : bs.length ≤ r.bulkLen) (long : r.bulkLen ≠ 0) :
    hSigRead r s = .done stOk (le 4 bs.length) (s.storeWrite (s.bulkBase r.part + r.bulkOff) bs) := by
  subst hbs
  calc hSigRead r s
      = if r.u 0 1 = 1 && (s.sigSetsOf r.part (r.u 0 1)).isEmpty then .refuse stState 16
        else bulkReply r (mapBytes (s.sigSetsOf r.part (r.u 0 1))) s := if_neg (Nat.not_lt.mpr which)
    _ = bulkReply r (mapBytes (s.sigSetsOf r.part (r.u 0 1))) s := if_neg (by simpa using some_staged)
    _ = _ := bulkReply_fits fits long

/-- Only CLEAR asks for the right to operate the channel (R306). -/
theorem hSigStatus_reports (hc : c = r.u 0 1) (range : c ≤ 31) (live : s.retired c = false)
    (own : bitOf (r.u 1 1) 0 = true → s.mayOperate r.part .chan c = true) :
    hSigStatus r s = .done stOk (s.sigStatus c) (if bitOf (r.u 1 1) 0 then s.modSigStat c fun _ =>
      { rxUpdates := 0, txPacks := 0, short := 0, sat := 0, staleEntries := 0 } else s) := by
  subst hc
  unfold hSigStatus
  rw [if_neg (Nat.not_lt.mpr range)]
  exact (if_neg (by simpa using own)).trans (if_neg (by simp [live]))

/-- Settles O30: each request passes the checks of its handler. -/
theorem signalCommandsComplete : Obligations.SignalCommandsComplete := by
  refine ⟨fun _ _ _ hs good => mailbox_done hs (hSigStage_stages_sets good),
    fun _ _ _ hs _ hc range own live alone => mailbox_done hs (hSigClear_stages_empty hc range own live alone),
    fun _ _ _ hs active _ hbs fits long => ?active, fun _ _ _ hs staged _ hsets filled fits long => ?staged,
    fun _ _ _ hs _ hc range live own => mailbox_done hs (hSigStatus_reports hc range live own)⟩
  case active =>
    rw [← State.sigSetsOf_active active] at hbs
    exact mailbox_done hs (hSigRead_writes_map (by omega) (by omega) hbs fits long)
  case staged =>
    rw [← State.sigSetsOf_staged staged] at hsets
    subst hsets
    exact mailbox_done hs (hSigRead_writes_map staged.le (fun _ => filled) rfl fits long)

end Sys2Proof.Machine
end

section
/-! SUPPORT. The commands of axis contexts (R317, R326, R337, R341): what the handler of a good request answers. -/
namespace Sys2Proof.Machine

variable {r : Req} {s : State} {a : Nat}

/-- A list of checks none of which applies names no offset. -/
theorem firstBad_eq_none {l : List (Bool × Nat)} : firstBad l = none ↔ (l.all fun e => !e.1) = true := by
  simp [firstBad]

/-! ### AX_DEFINE (R341) -/

/-- The feedforward link that AX_DEFINE gives: only its EXPERT form names one. -/
def axVffLink (r : Req) : Nat := if r.form = 1 then r.u 16 4 else 0xFFFFFFFF

theorem axVffLink_inRange (expert : r.form = 1 → r.u 16 4 ≤ 0x3FFFF ∨ r.u 16 4 = 0xFFFFFFFF) :
    axVffLink r ≤ 0x3FFFF ∨ axVffLink r = 0xFFFFFFFF := by
  unfold axVffLink
  split
  · next form => exact expert form
  · exact .inr rfl

/-- The parameters of a context that AX_DEFINE stages, with their values. -/
def axDefineKeys (r : Req) : List (Nat × Nat) :=
  [(K.axChan, r.u 1 1), (K.axObj, r.u 2 1), (K.axDisableObj, r.u 3 1), (K.axIoFrac, r.u 4 1), (K.axSpSig, r.u 8 4),
    (K.axFbSig, r.u 12 4), (K.axVffSig, axVffLink r)]

theorem hAxDefine_stages_keys (ha : a = r.u 0 1) (range : a ≤ 127) (chan : r.u 1 1 ≤ 31 ∨ r.u 1 1 = 0xFF)
    (obj : r.u 2 1 ≤ 127) (disable : r.u 3 1 ≤ 127 ∨ r.u 3 1 = 0xFF) (frac : r.u 4 1 ≤ 32) (sp : r.u 8 4 ≤ 0x3FFFF)
    (fb : r.u 12 4 ≤ 0x3FFFF ∨ r.u 12 4 = 0xFFFFFFFF)
    (vff : r.form = 1 → r.u 16 4 ≤ 0x3FFFF ∨ r.u 16 4 = 0xFFFFFFFF)
    (own : s.mayOperate r.part .axis a = true) (expert : r.form = 1 → s.expertOn r.part .axis a = true)
    (alone : s.stageBusy r.part (resKey .axis a) = false) :
    hAxDefine r s =
      .done stStaged [] (s.restage r.part fun g => (axDefineKeys r).foldl (fun h e => h.setPar e.1 a e.2) g) := by
  have link := axVffLink_inRange vff
  unfold hAxDefine
  dsimp only
  rw [← ha, ← axVffLink, firstBad_eq_none.mpr ?values]
  case values => simpa [imp_iff_not_or] using ⟨range, chan, obj, disable, frac, sp, fb, link⟩
  dsimp only
  rw [if_neg (by simp [own]), if_neg (by simpa using expert), if_neg (by simp [alone])]
  rfl

/-! ### AX_START (R317) -/

/-- The feedback signal of a context as a position, and whether it saturates. -/
def State.axFeedback (s : State) (a : Nat) : Int × Bool :=
  sat64 ((s.sigRec (s.par K.axFbSig a)).value.toInt * 2 ^ (32 - s.par K.axIoFrac a))

/-- The position at which AX_START starts, as its init names it. -/
def State.axStartPos (s : State) (r : Req) (a : Nat) : Int :=
  if r.u 2 1 = 0 then (s.axFeedback a).1 else if r.u 2 1 = 1 then sgn 64 (r.u 8 8) else (s.axis a).p

/-- Context `a` started at `p` as AX_START asks: at rest, with the counts of its feedback anew, and in TRACK or on its way to
the position of the request. -/
def State.axStarted (s : State) (r : Req) (a : Nat) (p : Int) : State :=
  let u := ((s.axSat a (flag 3 (r.u 2 1 = 0 && (s.axFeedback a).2))).modAxis a fun y =>
    { y with p := p, v := 0, a := 0, reaction := 0, misses := 0, freezes := 0, devs := 0, fbSeen := false,
             supervised := false, due := [], tPrev := s.clk.time, disableDue := false, release := false,
             plan := [], clock := 0 }).axLimits a
  if r.u 1 1 = 1 then (u.modAxis a (·.setCond 0 false)).axState a .track 1 else u.axTarget a (sgn 64 (r.u 16 8)) 1

/-- Which parameters leave a context INACTIVE and redefined, so that it does not start, is log entry 105. -/
theorem hAxStart_starts (ha : a = r.u 0 1) (range : a ≤ 127) (mode : r.u 1 1 = 1 ∨ r.u 1 1 = 2) (init : r.u 2 1 ≤ 2)
    (own : s.mayOperate r.part .axis a = true) (defined : s.axDefined a = true) (notTrack : (s.axis a).st ≠ .track)
    (notTarget : (s.axis a).st ≠ .target) (notStopping : (s.axis a).st ≠ .stopping)
    (kept : (s.axis a).st = .inactive → (s.axis a).redefined = false)
    (feedback : r.u 2 1 = 0 → s.par K.axFbSig a ≠ 0xFFFFFFFF ∧ (s.sigRec (s.par K.axFbSig a)).valid = true)
    (last : r.u 2 1 = 2 → (s.axis a).st ≠ .inactive ∨ (s.axis a).ran = true) :
    hAxStart r s = .done stOk [] (s.axStarted r a (s.axStartPos r a)) := by
  unfold hAxStart
  dsimp only
  rw [← ha, firstBad_eq_none.mpr ?values]
  case values => simpa [imp_iff_not_or] using ⟨range, mode, init⟩
  dsimp only
  rw [if_neg (by simp [own]), if_neg ?state, if_neg ?position]
  case state => simpa [defined, notTrack, notTarget, notStopping] using kept
  case position =>
    simpa [imp_iff_not_or, or_assoc] using ⟨imp_iff_not_or.mp feedback, imp_iff_not_or.mp last⟩
  rfl

/-! ### AX_STOP (R326) -/

theorem hAxStop_all (all : r.u 0 1 = 0xFF) :
    hAxStop r s = .done stOk [] ((List.range 128).foldl (fun u k =>
      if s.par K.axOwner k = r.part then u.axStopCmd k (bitOf (r.u 1 1) 0) else u) s) := if_pos all

theorem hAxStop_one (range : r.u 0 1 ≤ 127) (own : s.mayOperate r.part .axis (r.u 0 1) = true) :
    hAxStop r s = .done stOk [] (s.axStopCmd (r.u 0 1) (bitOf (r.u 1 1) 0)) := by
  unfold hAxStop
  rw [if_neg (by omega), if_neg (Nat.not_lt.mpr range), if_neg (by simp [own])]

/-! ### AX_STATUS (R337) -/

/-- Only ACK asks for the right to operate the context. -/
theorem hAxStatus_reports (range : r.u 0 1 ≤ 127)
    (own : bitOf (r.u 1 1) 0 = true → s.mayOperate r.part .axis (r.u 0 1) = true) :
    hAxStatus r s = .done stOk (s.axStatus (r.u 0 1))
      (if bitOf (r.u 1 1) 0 then s.modAxis (r.u 0 1) fun y => { y with flags := 0, devMax := 0 } else s) := by
  unfold hAxStatus
  rw [if_neg (Nat.not_lt.mpr range)]
  exact if_neg (by simpa using own)

/-- Settles O31: each request passes the checks of its handler. -/
theorem axisCommandsComplete : Obligations.AxisCommandsComplete := by
  refine ⟨fun _ _ _ hs _ ha range chan obj disable frac sp fb vff own expert alone =>
      mailbox_done hs (hAxDefine_stages_keys ha range chan obj disable frac sp fb vff own expert alone),
    fun _ _ _ hs _ ha range mode init own defined notTrack notTarget notStopping kept feedback last _ hp => ?start,
    fun _ _ _ hs all => mailbox_done hs (hAxStop_all all),
    fun _ _ _ hs range own => mailbox_done hs (hAxStop_one range own),
    fun _ _ _ hs range own => mailbox_done hs (hAxStatus_reports range own)⟩
  case start =>
    subst hp
    exact mailbox_done hs
      (hAxStart_starts ha range mode init own defined notTrack notTarget notStopping kept feedback last)

end Sys2Proof.Machine
end

section
/-! SUPPORT. The report on a configuration (R355): what the handler of a good request answers. -/
namespace Sys2Proof.Machine

variable {r : Req} {s : State}

theorem hAdmitReport_writes_report {bs : List Byte} (which : r.u 0 1 ≤ 1)
    (staged : r.u 0 1 = 1 → (s.stage r.part).any = true) (fits : 1072 ≤ r.bulkLen)
    (hbs : bs = s.admitReport (if r.u 0 1 = 1 then s.stage r.part else Stage.empty)) :
    hAdmitReport r s =
      .done stOk (le 4 1072 ++ [bs[6]?.getD 0] ++ zs 3) (s.storeWrite (s.bulkBase r.part + r.bulkOff) bs) := by
  subst hbs
  unfold hAdmitReport
  dsimp only
  rw [if_neg (Nat.not_lt.mpr which), if_neg (by simpa using staged), if_neg (Nat.not_lt.mpr fits)]

/-- Settles O23: the request passes the checks of its handler. -/
theorem admitReportCompletes : Obligations.AdmitReportCompletes :=
  fun _ _ _ hs which staged fits _ hbs => mailbox_done hs (hAdmitReport_writes_report which staged fits hbs)

end Sys2Proof.Machine
end

section
/-! SUPPORT. A step, the state of reset, and what the rows of power and of starts alone change (R394 to R396, R404, R410): the
statements about every command. -/
namespace Sys2Proof.Machine

variable {i : Instr} {s t : State}

/-! ### A step and the state of reset -/

/-- Settles O1: a step takes the front command off the queue before it runs it. -/
theorem stepRunsFront : Obligations.StepRunsFront :=
  ⟨fun _ _ => rfl, fun s idle => by rw [step, idle]⟩

/-- Settles O2: nothing is stored, logged or granted, and every partition's window is as after reset. -/
theorem invReset : Obligations.InvReset := ⟨rfl, Nat.zero_le _, State.reset_parts, rfl, rfl⟩

/-- Settles O4: every command is safe, and so leaves the queue alone. -/
theorem execLeavesQueue : Obligations.ExecLeavesQueue := fun i s t row => (exec_safe i s t row).queue

/-! ### What only the rows of power and of starts change -/

/-- The straps in force are the same. -/
def StrapsKept (s t : State) : Prop := t.dev.straps = s.dev.straps

/-- The level of PORST_N is the same. -/
def PorstKept (s t : State) : Prop := t.dev.porst = s.dev.porst

/-- The number of starts is the same. -/
def BootKept (s t : State) : Prop := t.keep.boot = s.keep.boot

theorem StrapsKept.quietRel : QuietRel StrapsKept := ⟨fun h k => Eq.trans k h, fun h => h.quiet.straps⟩
theorem PorstKept.quietRel : QuietRel PorstKept := ⟨fun h k => Eq.trans k h, fun h => h.quiet.porst⟩
theorem BootKept.quietRel : QuietRel BootKept := ⟨fun h k => Eq.trans k h, fun h => h.quiet.boot⟩

/-- From `s` to `t` only rights, links, the 1.8 V and 3.3 V rails and the TAP instruction changed. -/
def MinorOnly (s t : State) : Prop :=
  t = { s with
    expert := t.expert, revoked := t.revoked, linksDown := t.linksDown
    dev := { s.dev with v18 := t.dev.v18, v33 := t.dev.v33, tap := t.dev.tap } }

theorem MinorOnly.strapsKept (h : MinorOnly s t) : StrapsKept s t := by rw [h]; rfl
theorem MinorOnly.porstKept (h : MinorOnly s t) : PorstKept s t := by rw [h]; rfl
theorem MinorOnly.bootKept (h : MinorOnly s t) : BootKept s t := by rw [h]; rfl

theorem State.setRights_minorOnly (on : Bool) (s : State) (c : PRes) (k p : Nat) : MinorOnly s (s.setRights c k p on) := by
  unfold State.setRights
  dsimp only
  split <;> rfl

/-- What a relation asks of the rows of power and of starts, every command meets, if quiet and minor changes meet it. -/
theorem QuietRel.exec_leaves {R : State → State → Prop} (rel : QuietRel R) (minor : ∀ {a b}, MinorOnly a b → R a b)
    (on : ∀ dt b o, i = .powerOnReset dt b o → Leaves R s (execPowerOnReset dt b o s))
    (fall : ∀ dt, i = .porstNFall dt → Leaves R s (execPorstNFall dt s))
    (fail : ∀ dt, i = .powerFail dt → Leaves R s (execPowerFail dt s))
    (reset : ∀ dt o, i = .deviceReset dt o → Leaves R s (execDeviceReset dt o s)) : Leaves R s (exec i s) := by
  have time : ∀ dt, R s (s.elapse dt) := fun dt => rel.quiet (State.elapse_keeps (Keeps.refl s))
  have rights : ∀ (on : Bool) (t : State) c k p, R t (t.setRights c k p on) :=
    fun on t c k p => minor (State.setRights_minorOnly on t c k p)
  have bound := exec_bound i s
  unfold Instr.Bound at bound
  split at bound
  case h_1 => exact rel.mailbox (rel.rightsCmd (rights true))
  case h_2 => exact rel.mailbox (rel.rightsCmd (rights false))
  case h_3 => exact on _ _ _ rfl
  case h_4 => exact fall _ rfl
  case h_5 => exact fail _ rfl
  case h_6 => exact reset _ _ rfl
  case h_7 dt link =>
    have down : R (s.elapse dt) { s.elapse dt with linksDown := (s.elapse dt).linksDown ++ [link] } := minor rfl
    exact ite_row (fun _ => .next (rel.trans (time dt) (rel.trans down
      (rel.quiet (State.resetLink_keeps (Keeps.refl _)))))) fun _ => .next (time dt)
  case h_8 dt link => exact .next (rel.trans (time dt) (minor rfl))
  case h_9 dt r inside => exact .next (rel.trans (time dt) (minor (by cases r <;> rfl)))
  case h_10 dt k => exact .next (rel.trans (time dt) (minor rfl))
  case h_11 => exact fun t row => rel.quiet (bound t row)

/-- A device that goes into reset keeps its straps (R394, R395). -/
theorem State.hold_strapsKept (t : State) : StrapsKept t t.hold := rfl

/-- To go into reset is not what lowers PORST_N (R394). -/
theorem State.hold_porstKept (t : State) : PorstKept t t.hold := rfl

theorem State.wiped_boot (t : State) : t.wiped.keep.boot = t.keep.boot := by
  unfold State.wiped
  dsimp only
  split
  · exact Keep.setSlot_boot ..
  · rfl

/-- The number of starts outlives a loss of power (R404). -/
theorem State.hold_bootKept (t : State) : BootKept t t.hold := t.wiped_boot

theorem State.bootStep1_dev {origin : ResetOrigin} {first : Nat} (t : State) :
    (t.bootStep1 origin first).dev.straps = t.dev.straps ∧ (t.bootStep1 origin first).dev.porst = t.dev.porst := by
  unfold State.bootStep1
  dsimp only
  split <;> exact ⟨rfl, rfl⟩

/-- A start takes the straps and the level of PORST_N as it finds them (R395, R410). -/
theorem State.start_strapsKept {origin : ResetOrigin} {o : BootObs} (t : State) : StrapsKept t (t.start origin o) :=
  StrapsKept.quietRel.trans (State.bootStep1_dev t.wiped).1 (StrapsKept.quietRel.quiet (State.bootOn_keeps (Keeps.refl _)))

theorem State.start_porstKept {origin : ResetOrigin} {o : BootObs} (t : State) : PorstKept t (t.start origin o) :=
  PorstKept.quietRel.trans (State.bootStep1_dev t.wiped).2 (PorstKept.quietRel.quiet (State.bootOn_keeps (Keeps.refl _)))

/-- DEVICE_RESET starts the device or lets time pass. -/
theorem execDeviceReset_leaves {R : State → State → Prop} {dt : Nat} {o : BootObs} (time : R s (s.elapse dt))
    (start : ∀ origin, R s ((s.elapse dt).start origin o)) : Leaves R s (execDeviceReset dt o s) := by
  unfold execDeviceReset
  dsimp only
  split
  case h_1 | h_5 => exact .next time
  all_goals exact .next (start _)

/-- Settles O8: a loss of power and a device reset keep the straps, and all but PORST_N_FALL the level. -/
theorem strapsChangeOnlyAtPowerOn : Obligations.StrapsChangeOnlyAtPowerOn := by
  intro i s t noPowerOn row
  have straps (dt : Nat) : StrapsKept s (s.elapse dt) := StrapsKept.quietRel.quiet (State.elapse_keeps (Keeps.refl s))
  have porst (dt : Nat) : PorstKept s (s.elapse dt) := PorstKept.quietRel.quiet (State.elapse_keeps (Keeps.refl s))
  constructor
  · exact StrapsKept.quietRel.exec_leaves MinorOnly.strapsKept (fun _ _ _ e => absurd e (noPowerOn _ _ _))
      (fun dt _ => ite_row (fun _ => .next (StrapsKept.quietRel.trans (straps dt) (State.hold_strapsKept _)))
        fun _ => .next (straps dt))
      (fun dt _ => .next (StrapsKept.quietRel.trans (straps dt) (State.hold_strapsKept _)))
      (fun dt _ _ => execDeviceReset_leaves (straps dt) fun _ =>
        StrapsKept.quietRel.trans (straps dt) (State.start_strapsKept _)) t row
  · intro noFall
    exact PorstKept.quietRel.exec_leaves MinorOnly.porstKept (fun _ _ _ e => absurd e (noPowerOn _ _ _))
      (fun _ e => absurd e (noFall _))
      (fun dt _ => .next (PorstKept.quietRel.trans (porst dt) (State.hold_porstKept _)))
      (fun dt _ _ => execDeviceReset_leaves (porst dt) fun _ =>
        PorstKept.quietRel.trans (porst dt) (State.start_porstKept _)) t row

/-- Settles O9: the keep store outlives a loss of power, and what is no start does not count one. -/
theorem startsAreCounted : Obligations.StartsAreCounted := by
  intro i s t noPowerOn noReset row
  have time (dt : Nat) : BootKept s (s.elapse dt) := BootKept.quietRel.quiet (State.elapse_keeps (Keeps.refl s))
  exact BootKept.quietRel.exec_leaves MinorOnly.bootKept (fun _ _ _ e => absurd e (noPowerOn _ _ _))
    (fun dt _ => ite_row (fun _ => .next (BootKept.quietRel.trans (time dt) (State.hold_bootKept _))) fun _ => .next (time dt))
    (fun dt _ => .next (BootKept.quietRel.trans (time dt) (State.hold_bootKept _)))
    (fun _ _ e => absurd e (noReset _ _)) t row

end Sys2Proof.Machine
end

section
/-! SUPPORT. The commands of the fault core (R209, R368, R371, R372, R378, R380, R384 to R387, R391): what the handler of a good
request answers. -/
namespace Sys2Proof.Machine

variable {r : Req} {s : State} {k c : Nat}

/-! ### Reports (R384, R385, R387, R391) -/

/-- With ACK the latched part of the record is cleared (R368). -/
theorem hFaultRead_reports (hk : k = r.u 0 2) (defined : sourceDefined k = true) (may : s.mayReadSrc r.part k = true) :
    hFaultRead r s = .done stOk (s.faultRecord k) (if bitOf (r.u 2 1) 0 then s.modRec k s.ackRec else s) := by
  subst hk
  unfold hFaultRead
  dsimp only
  rw [if_neg (by simp [defined]), if_neg (by simp [may])]

/-- LOG_READ answers its count and the bounds of the log, as log entries 100 and 143 choose. -/
theorem hLogRead_writes_records {xs : List LogRec} (fits : 32 * r.u 4 2 ≤ r.bulkLen)
    (hxs : xs = (s.keep.log.filter fun x =>
      0 ≤ (x.seq - BitVec.ofNat 32 (r.u 0 4)).toInt && s.mayReadLog r.part x).take (r.u 4 2)) :
    hLogRead r s = .done stOk
      (le 4 xs.length ++ le 4 ((s.keep.log.head?.map fun x => x.seq.toNat).getD 0) ++ le 4 s.logNewest ++ le 4 s.keep.logLost)
      (s.storeWrite (s.bulkBase r.part + r.bulkOff) (xs.map LogRec.bytes).flatten) := by
  subst hxs
  exact if_neg (Nat.not_lt.mpr fits)

/-- Settles O35: each request passes the checks of its handler. -/
theorem faultReportsComplete : Obligations.FaultReportsComplete :=
  ⟨fun _ _ _ hs => mailbox_done hs rfl,
   fun _ _ _ hs _ hk defined may => mailbox_done hs (hFaultRead_reports hk defined may),
   fun _ _ _ hs fits _ hxs => mailbox_done hs (hLogRead_writes_records fits hxs)⟩

/-! ### The end of a fault (R371, R380) -/

theorem hFaultClear_ends (hk : k = r.u 0 2) (defined : sourceDefined k = true) (own : r.part = 0) (noChan : 0x20 ≤ k)
    (noUnit0 : k ≠ 0x72) (noUnit1 : k ≠ 0x73) (fault : (s.frec k).st = .fault) (ended : (s.frec k).current = false) :
    hFaultClear r s = .done stOk [] (s.leaveFault k 1) := by
  subst hk
  unfold hFaultClear
  dsimp only
  rw [if_neg (by simp [defined]), if_neg (not_not.mpr own), if_neg (by simp [Nat.not_lt.mpr noChan, noUnit0, noUnit1]),
    if_neg (by simp [fault, ended])]

theorem hFaultPinRelease_releases (own : r.part = 0) (unforced : s.pinForce = false) :
    hFaultPinRelease r s =
      .done stOk [] (({ s with fc := { s.fc with pinHeld := false } }.pinSettle s).log 0x07 0 0 0 0 0) := by
  unfold hFaultPinRelease
  rw [if_neg (not_not.mpr own), if_neg (by simp [unforced])]

/-! ### Re-qualification and injection (R209, R372, R378) -/

section requalify

variable (idle : (s.longs.any fun l => l.code = 0x803 && l.res = k) = false)
include idle

/-- A re-qualification of a channel waits for its standby release (R209, R412; log entry 114). -/
theorem hFaultRequalify_chan (hk : k = r.u 0 2) (chan : k < 0x20) (mode : r.u 2 1 ≤ 4)
    (own : s.mayOperate r.part .chan k = true) (free : s.chanInUse k = false) (retired : (s.chan k).st = .retired)
    (admitted : s.admitOpen k = 0) :
    hFaultRequalify r s = .later (r.long k (r.u 2 1) false) (s.wantRelease k (modeOf (r.u 2 1)) 4) := by
  subst hk
  unfold hFaultRequalify
  dsimp only
  rw [if_neg (by omega), if_pos chan, if_neg (Nat.not_lt.mpr mode), if_neg (by simp [own]), if_neg (by simp [idle, free]),
    if_neg (not_not.mpr retired), if_neg (not_not.mpr admitted)]

theorem hFaultRequalify_unit (hk : k = r.u 0 2) (unit : k = 0x72 ∨ k = 0x73) (mode : r.u 2 1 = 0) (own : r.part = 0)
    (out : s.unitOk (k % 2) = false) : hFaultRequalify r s = .later (r.long k 0 false) s := by
  subst hk
  unfold hFaultRequalify
  dsimp only
  rw [if_neg (by omega), if_neg (by omega), if_pos (by simpa using unit), if_neg (not_not.mpr mode),
    if_neg (not_not.mpr own), if_neg (by simp [idle]), if_neg (by simp [out])]

end requalify

theorem hFaultInject_starts (hk : k = r.u 0 2) (defined : sourceDefined k = true) (range : k ≤ 0x15F)
    (pattern : checkCase k (r.u 2 1) = true ∨ 5 ≤ r.u 2 1)
    (index : checkCase k (r.u 2 1) = true → (k = 0x27 → 1 ≤ r.u 4 1 ∧ r.u 4 1 ≤ 7) ∧ (k = 0x20 ∨ k = 0x21 → r.u 4 1 ≤ 15))
    (own : r.part = 0) (free : s.fc.inject = none) :
    hFaultInject r s = .later (r.long k 0 false)
      { s with fc := { s.fc with inject := some (k, r.u 2 1, r.u 3 1, r.u 4 1, s.now) } } := by
  subst hk
  unfold hFaultInject
  dsimp only
  rw [if_neg (by simp [defined, Nat.not_lt.mpr range]), if_neg ?pattern, if_neg ?index, if_neg (not_not.mpr own),
    if_neg (by simp [free])]
  case pattern => simpa [imp_iff_or_not, Nat.not_lt, or_comm] using pattern
  case index =>
    simp only [Bool.and_eq_true, Bool.or_eq_true, decide_eq_true_eq]
    rintro ⟨check, ⟨fifo, bad⟩ | ⟨store, beyond⟩⟩
    · have := (index check).1 fifo
      omega
    · have := (index check).2 store
      omega

/-- Settles O36: each request passes the checks of its handler. -/
theorem faultCommandsComplete : Obligations.FaultCommandsComplete :=
  ⟨fun _ _ _ hs _ hk defined own noChan noUnit0 noUnit1 fault ended =>
      mailbox_done hs (hFaultClear_ends hk defined own noChan noUnit0 noUnit1 fault ended),
   fun _ _ _ hs _ hk chan mode own idle free retired admitted =>
      mailbox_later hs (hFaultRequalify_chan idle hk chan mode own free retired admitted),
   fun _ _ _ hs _ hk unit mode own idle out => mailbox_later hs (hFaultRequalify_unit idle hk unit mode own out),
   fun _ _ _ hs _ hk defined range pattern index own free =>
      mailbox_later hs (hFaultInject_starts hk defined range pattern index own free),
   fun _ _ _ hs own unforced => mailbox_done hs (hFaultPinRelease_releases own unforced)⟩

end Sys2Proof.Machine
end

section
/-! SUPPORT. The rows of the fault collector (R359, R360, R367, R370, R373, R377, R378, R382) and of re-qualifications (R209, R210,
R372): what each leaves where its guards hold. -/
namespace Sys2Proof.Machine

variable {dt : Nat} {k : Fin 512} {s t : State}

/-! ### What the passage of time leaves to the rows -/

theorem State.logWrap_clk (n : Nat) (v w : W64) (s : State) : (s.logWrap n v w).clk = s.clk := by
  unfold State.logWrap
  split
  · exact s.log_clk ..
  · split
    · exact s.log_clk ..
    · rfl

/-- `dt` ANG cycles are 10 ns each (R55). -/
theorem State.elapse_now (s : State) (dt : Nat) : (s.elapse dt).now = s.now + 10 * dt := by
  have fold (l : List Nat) (f g : Nat → W64) (u : State) :
      (l.foldl (fun u n => u.logWrap n (f n) (g n)) u).clk = u.clk := by
    induction l generalizing u with
    | nil => rfl
    | cons n l ih => exact (ih _).trans (State.logWrap_clk ..)
  have cyc : (s.elapse dt).clk.cyc = s.clk.cyc + dt := by
    unfold State.elapse
    dsimp only
    split
    · rfl
    · exact congrArg Clock.cyc (fold _ (fun n => s.lcVal n) _ _)
  rw [State.now, cyc, State.now]
  omega

theorem State.elapse_fc (s : State) (dt : Nat) : (s.elapse dt).fc = s.fc := by rw [State.elapse_time s dt]

section rows

variable (ht : s.elapse dt = t)
include ht

/-! ### Occurrences (R359, R360, R367) -/

section occurrence

variable (defined : sourceDefined k = true) (up : t.dev.mode ≠ .held)
include defined up

/-- The lane of a parity error is log entry 142. -/
theorem execFaultOccurrence_latches {x : Occ} {u : State}
    (hu : u = if k.val = 0x27 then t.parityError x.detail.toNat else t) :
    execFaultOccurrence dt k (some x) s = .next (u.latch
      { src := k, sub := x.sub.toNat, cls := u.occClass k x.sub.toNat, detail := x.detail, current := x.persists,
        owner := u.srcOwner k, inj := false, overlap := u.injecting k, wire := false, mask := 63 }) := by
  subst hu
  unfold execFaultOccurrence
  rw [ht]
  exact if_neg (by simp [defined, up])

theorem execFaultOccurrence_takes {x : Raise} (waits : t.fc.raised.find? (fun r => r.src = k.val) = some x) :
    execFaultOccurrence dt k none s = .next (t.takeRaise x) := by
  unfold execFaultOccurrence
  rw [ht]
  dsimp only
  rw [if_neg (by simp [defined, up]), waits]

theorem execInvalidPair_latches : execInvalidPair dt k s = .next (t.wireFault k true false 63) := by
  unfold execInvalidPair
  rw [ht]
  exact if_neg (by simp [defined, up])

end occurrence

/-! ### Ends of faults (R360, R370, R373, R377) -/

theorem execFaultLineClear_clears (current : (t.frec k).current = true)
    (ended : (t.fc.conds.any fun c => decide (c.1 = k.val)) = false) :
    execFaultLineClear dt k s = .next (t.currentClear k) := by
  unfold execFaultLineClear
  rw [ht]
  exact if_pos (by simp only [current, ended, Bool.not_false, Bool.and_self])

theorem execGraceExpired_confirms {x : FRec} {react : Nat} (hx : x = t.frec k) (grace : x.st = .grace)
    (due : x.graceAt + 1000 * t.par K.faultGrace k ≤ t.now)
    (hr : react = t.reactSet (t.configured k 0 x.detail.toNat)) :
    execGraceExpired dt k s = .next (((t.modRec k fun y => { y with st := .fault }).logFault 0x02 k x.lastCause
      (react &&& 62) x.count).takeReactions k (react &&& 62) 2 (bitOf react 0)) := by
  subst hr hx
  unfold execGraceExpired
  rw [ht]
  exact if_neg (by simp [grace, State.passed, due])

theorem execQuietTimeExpired_closes (fault : (t.frec k).st = .fault) (transient : (t.frec k).cls < 2)
    (ended : (t.frec k).current = false) (due : (t.frec k).quietAt + 1000000 * t.par K.faultQuietTime 0 ≤ t.now) :
    execQuietTimeExpired dt k s = .next (t.leaveFault k 0) := by
  unfold execQuietTimeExpired
  rw [ht]
  exact if_pos (by simp [fault, transient, ended, State.passed, due])

theorem execChipReset_waits {u : State} (due : t.fc.chipDue = true) (hu : u = t.supervise) :
    execChipReset dt s =
      .next { u with fc := { u.fc with chipDue := false }, dev := { u.dev with resetDue := some .chip } } := by
  subst hu
  unfold execChipReset
  rw [ht]
  exact if_pos due

/-! ### ALIVE (R382) -/

theorem execAliveRenewal_renews : execAliveRenewal dt s = .next { t with fc := { t.fc with
    renewAt := t.now, aliveMiss := false, aliveAt := if t.fc.aliveMiss then upTo 500000 t.now else t.fc.aliveAt } } := by
  subst ht
  rfl

theorem execAliveRenewalMissed_stops (ready : t.dev.mode = .ready) (first : t.fc.aliveMiss = false)
    (due : t.fc.renewAt + 2000000 ≤ t.now) :
    execAliveRenewalMissed dt s = .next ({ t with fc := { t.fc with aliveMiss := true } }.raiseU 0x107 0 2 0 false 0) := by
  unfold execAliveRenewalMissed
  rw [ht]
  exact if_pos (by simp [ready, first, State.passed, due])

/-! ### Injections (R378) -/

section inject

variable {src pat mask idx t0 : Nat} (runs : t.fc.inject = some (src, pat, mask, idx, t0))
include runs

theorem execInjectDone_pair {v : Nat} (pair : checkCase src pat = false) :
    execInjectDone dt (some v) s = .next (((t.wireFault src false true (if v = 0 then mask else 63)).modRec src fun x =>
      { x with overlap := x.overlap || decide (v ≠ 0) }).injectEnd src pat (if v = 0 then 0 else 2) v) := by
  unfold execInjectDone
  rw [ht]
  simp only [runs, pair, Bool.false_eq_true, if_false]

theorem execInjectDone_check {v : Nat} (check : checkCase src pat = true) :
    execInjectDone dt (some v) s = .next ((t.latch
      { src := src, sub := 0, cls := if v = 0 then srcClass src 0 else t.occClass src 0, detail := 0, current := false,
        owner := t.srcOwner src, inj := true, overlap := decide (v ≠ 0), wire := false,
        mask := if v = 0 then mask else 63 }).injectEnd src pat (if v = 0 then 0 else 2) v) := by
  unfold execInjectDone
  rw [ht]
  simp only [runs, check, if_true]

theorem execInjectDone_expires (due : t0 + 10000000 ≤ t.now) :
    execInjectDone dt none s = .next ((t.raise 0x122 0 2 src false 0).injectEnd src pat 1 0) := by
  unfold execInjectDone
  rw [ht]
  simp only [runs]
  exact if_pos (by simp [State.passed, due])

end inject

end rows

/-! ### Re-qualifications (R209, R210, R372) -/

section requalify

variable {c : Fin 32} {l : Long} {why loopMin loopMax : Nat}

/-- What does not read the self-test of a channel is the same once loop delays have joined those of the test. -/
theorem State.testRest_same {α : Type} (p : State → α) (c lo hi : Nat)
    (e : ∀ f : Chan → Chan, (∀ x, f x = { x with test := (f x).test }) → p (s.modChan c f) = p s) :
    p (s.testRest c lo hi) = p s := by
  unfold State.testRest
  split
  · split
    · rfl
    · exact e _ fun _ => rfl
  · rfl

@[simp] theorem State.testRest_longs (c lo hi : Nat) : (s.testRest c lo hi).longs = s.longs :=
  State.testRest_same State.longs c lo hi fun _ _ => rfl
@[simp] theorem State.testRest_now (c lo hi : Nat) : (s.testRest c lo hi).now = s.now :=
  State.testRest_same State.now c lo hi fun _ _ => rfl
@[simp] theorem State.testRest_chanOwner (c lo hi j : Nat) : (s.testRest c lo hi).chanOwner j = s.chanOwner j :=
  State.testRest_same (State.chanOwner · j) c lo hi fun _ _ => rfl

@[simp] theorem State.testRest_st (c lo hi : Nat) : ((s.testRest c lo hi).chan c).st = (s.chan c).st :=
  State.testRest_same (fun t => (t.chan c).st) c lo hi fun f hf => by
    rw [State.modChan_chan, hf]
    split <;> rfl
@[simp] theorem State.testRest_passDue (c lo hi : Nat) : ((s.testRest c lo hi).chan c).passDue = (s.chan c).passDue :=
  State.testRest_same (fun t => (t.chan c).passDue) c lo hi fun f hf => by
    rw [State.modChan_chan, hf]
    split <;> rfl

/-- Once 1 s has passed the command ends with TIMEOUT (R89). -/
theorem execRequalifyDone_expires (ht : s.elapse dt = t)
    (found : (t.longs.find? fun l => l.code = 0x803 && l.res = c.val) = some l) (late : l.t0 + 1000000000 ≤ t.now)
    (undecided : (t.chan c).passDue = none) :
    execRequalifyDone dt (.chan c) why loopMin loopMax s =
      .next (((t.dropRelease c).pinsIdle c).finish l stTimeout 0 []) := by
  unfold execRequalifyDone
  rw [ht]
  simp only [found]
  rw [if_neg (by simp [undecided]), if_pos (by simp [State.passed, late])]

section result

variable (ht : (s.elapse dt).testRest c loopMin loopMax = t)
  (found : (t.longs.find? fun l => l.code = 0x803 && l.res = c.val) = some l) (intime : t.now < l.t0 + 1000000000)
  (retired : (t.chan c).st = .retired) (undecided : (t.chan c).passDue = none)
include ht found intime retired undecided

/-- A result that the stage of the self-test allows is taken (log entry 114). -/
theorem execRequalifyDone_takes (ends : t.testEnds c why = true) :
    execRequalifyDone dt (.chan c) why loopMin loopMax s = .next (
      let u := (t.dropRelease c).pinsIdle c
      let loops := (t.chan c).testLoops
      if why = 3 then (u.requalEvent c 3 loops.1 loops.2).finish l stTimeout 0 []
      else if why = 0 then t.modChan c fun x => { x with passDue := some (l.arg, loops.1, loops.2) }
      else ((u.raise c 0x13 2 why false (t.chanOwner c)).requalEvent c why loops.1 loops.2).finish l stOk 0 (le 1 why)) := by
  subst ht
  simp only [State.testRest_longs, State.testRest_now, State.testRest_st, State.testRest_passDue,
    State.testRest_chanOwner] at found intime retired undecided ⊢
  unfold execRequalifyDone
  dsimp only
  rw [found]
  dsimp only
  rw [if_neg (by simp [undecided]), if_neg (by simp [State.passed, intime]), if_neg (by simp [retired, ends])]
  simp only [apply_ite Host.Outcome.next]

/-- A pass takes effect at the next tick boundary (R210). -/
theorem execRequalifyDone_passes {r : TestRun} (testing : (t.chan c).phase = .testing) (runs : (t.chan c).test = some r)
    (sent : r.sent = t.testCount c) (good : r.bad = false) :
    execRequalifyDone dt (.chan c) 0 loopMin loopMax s = .next (t.modChan c fun x =>
      { x with passDue := some (l.arg, r.loMin, if r.loMin = 0xFFFF then 0xFFFF else r.loMax) }) := by
  have ends : t.testEnds c 0 = true := by simp [State.testEnds, testing, runs, sent, good]
  rw [execRequalifyDone_takes ht found intime retired undecided ends]
  simp only [Chan.testLoops, runs]
  rfl

/-- A result 3 sends its event and raises nothing (log entry 114). -/
theorem execRequalifyDone_fails {v : State} {lo hi : Nat} (ends : t.testEnds c why = true) (failed : why ≠ 0)
    (hv : v = (t.dropRelease c).pinsIdle c) (loops : (lo, hi) = (t.chan c).testLoops) :
    execRequalifyDone dt (.chan c) why loopMin loopMax s = .next (
      if why = 3 then (v.requalEvent c 3 lo hi).finish l stTimeout 0 []
      else ((v.raise c 0x13 2 why false (t.chanOwner c)).requalEvent c why lo hi).finish l stOk 0 (le 1 why)) := by
  subst hv
  rw [execRequalifyDone_takes ht found intime retired undecided ends, ← loops]
  simp only [failed, if_false]

end result

theorem execRequalifyDone_unit {u : Fin 2} {ok : Bool × Bool} (ht : s.elapse dt = t)
    (found : (t.longs.find? fun l => l.code = 0x803 && l.res = 0x72 + u.val) = some l)
    (intime : t.now < l.t0 + 1000000000)
    (hok : ok = if u.val = 0 then (true, t.dev.unitsOk.2) else (t.dev.unitsOk.1, true)) :
    execRequalifyDone dt (.unit u) 0 loopMin loopMax s = .next (({ t with
      dev := { t.dev with unitsOk := ok }
      keep := { t.keep with units := t.keep.units.filter (· ≠ u.val) } }.requalExit (0x72 + u.val)).finish l stOk 0
        (le 1 0)) := by
  subst hok
  unfold execRequalifyDone
  rw [ht]
  simp only [found]
  rw [if_neg (by simp [State.passed, intime])]
  rfl

end requalify

/-- Settles O45: the guards of each row hold. -/
theorem faultRowsComplete : Obligations.FaultRowsComplete :=
  ⟨fun _ _ _ _ defined up _ hu => execFaultOccurrence_latches rfl defined up hu,
   fun _ _ _ defined up _ waits => execFaultOccurrence_takes rfl defined up waits,
   fun _ _ _ defined up => execInvalidPair_latches rfl defined up,
   fun _ _ _ => execFaultLineClear_clears rfl,
   fun _ _ _ _ hx grace due _ hr => execGraceExpired_confirms rfl hx grace due hr,
   fun _ _ _ => execQuietTimeExpired_closes rfl,
   fun _ _ due _ hu => execChipReset_waits rfl due hu,
   fun _ _ => execAliveRenewal_renews rfl,
   fun _ _ => execAliveRenewalMissed_stops rfl,
   fun _ _ _ _ _ _ _ _ runs => execInjectDone_pair rfl runs,
   fun _ _ _ _ _ _ _ _ runs => execInjectDone_check rfl runs,
   fun _ _ _ _ _ _ _ runs => execInjectDone_expires rfl runs,
   fun _ _ _ _ _ _ _ found intime retired undecided testing runs sent good =>
     execRequalifyDone_passes rfl found intime retired undecided testing runs sent good,
   fun _ _ _ _ _ _ _ found intime retired undecided ends failed _ _ _ hv loops =>
     execRequalifyDone_fails rfl found intime retired undecided ends failed hv loops,
   fun _ _ _ _ _ _ _ found => execRequalifyDone_expires rfl found,
   fun _ _ lo hi _ _ found intime _ hok =>
     execRequalifyDone_unit (loopMin := lo) (loopMax := hi) rfl found intime hok⟩

/-! ### A missed renewal (R382) -/

/-- A renewal that is not 2 ms old is not missed. -/
theorem execAliveRenewalMissed_early (renewed : s.fc.renewAt = s.now) (soon : 10 * dt < 2000000) :
    execAliveRenewalMissed dt s = .next (s.elapse dt) :=
  if_neg (by simp [State.passed, State.elapse_now, State.elapse_fc, renewed, soon])

/-- A missed renewal holds ALIVE low. -/
theorem State.alive_low (missed : s.fc.aliveMiss = true) (ready : s.dev.mode = .ready) : s.alive = .low := by
  simp [State.alive, missed, ready]

/-- Settles O57: the raise is all that changes beside `aliveMiss`, and a renewal moves the limit 2 ms on. -/
theorem missedRenewalStopsAlive : Obligations.MissedRenewalStopsAlive := by
  refine ⟨fun dt s ready first due => ?stops, fun _ => State.alive_low, fun dt dt' s u renewed => ?renews⟩
  case stops =>
    exact ⟨_, _, execAliveRenewalMissed_stops rfl ready first due, State.alive_low rfl ready, rfl, rfl, rfl⟩
  case renews =>
    cases renewed
    exact ⟨rfl, execAliveRenewalMissed_early rfl⟩

end Sys2Proof.Machine
end

section
/-! SUPPORT. The commands of the start (R399 to R401, R404, R419, R420): what the handler of a good request answers, and what Rusk
mode serves (R407). -/
namespace Sys2Proof.Machine

variable {d : CmdDef} {i : Instr} {dt n : Nat} {m : Mbox} {r : Req} {s : State}

/-! ### Reports (R404, R420) -/

/-- BOOT_RECORDS answers the count of its records, as log entry 143 chooses. -/
theorem hBootRecords_writes_newest {xs : List BootRec} (hn : n = r.u 0 1) (nonzero : 1 ≤ n) (range : n ≤ 64)
    (fits : 32 * n ≤ r.bulkLen) (hxs : xs = s.keep.recs.drop (s.keep.recs.length - n)) :
    hBootRecords r s = .done stOk (le 1 xs.length ++ zs 7)
      (s.storeWrite (s.bulkBase r.part + r.bulkOff) (xs.map BootRec.bytes).flatten) := by
  subst hxs hn
  exact (if_neg (by simp [Nat.not_lt.mpr range, Nat.ne_of_gt nonzero])).trans (if_neg (Nat.not_lt.mpr fits))

/-! ### FW_LOAD (R401, R419) -/

/-- What an image says of the firmware it holds (Table 13.3). -/
def imageSlot (bs : List Byte) : FwSlot :=
  { code := 0, mboxVer := rd bs 11 1, major := rd bs 9 1, minor := rd bs 10 1, build := rd bs 16 4 }

/-- The image is checked whole once its slot may be written and its bytes lie in the bulk range. -/
theorem hFwLoad_checks (hn : n = r.u 0 1) (slot : n = 1 ∨ n = 2) (own : r.part = 0) (free : s.loading = false)
    (idle : s.dev.runSlot ≠ n) (header : 512 ≤ r.bulkLen)
    (clean : s.poisoned (s.bulkBase r.part + r.bulkOff) r.bulkLen = false)
    (whole : 512 + rd (s.bulkIn r) 12 4 ≤ r.bulkLen) :
    hFwLoad r s = match imageCheck (s.bulkIn r) with
      | some (_, off) => .refuse stIntegrity off
      | none => .later (r.long n 0 false)
          { s with keep := { s.keep with writing := some (n, imageSlot (s.bulkIn r)) } } := by
  subst hn
  unfold hFwLoad
  dsimp only
  rw [if_neg (by simpa using or_iff_not_imp_left.mp slot), if_neg (not_not.mpr own), if_neg (by simp [free]), if_neg idle,
    if_neg (Nat.not_lt.mpr header), if_neg (by simp [clean]), if_neg (by simp [Nat.not_lt.mpr whole])]
  rfl

/-! ### FW_SELECT, BOOT_CLEAR_FAILURES and DEV_RESTART (R399, R419) -/

theorem hFwSelect_prefers (hn : n = r.u 0 1) (slot : n = 1 ∨ n = 2) (own : r.part = 0)
    (good : (if n = 1 then s.dev.resultA else s.dev.resultB) = 0)
    (unwritten : (s.keep.writing.any fun w => w.1 = n) = false) :
    hFwSelect r s = .done stOk [] ({ s with keep := { s.keep with pref := n } }.log 0x23 0 n 0 0 0) := by
  subst hn
  unfold hFwSelect
  dsimp only
  rw [if_neg (by simpa using or_iff_not_imp_left.mp slot), if_neg (not_not.mpr own), if_neg (by simp [unwritten]),
    if_neg (not_not.mpr good)]

theorem hBootClearFailures_clears (own : r.part = 0) :
    hBootClearFailures r s = .done stOk [] ({ s with keep := { s.keep with fails := 0 } }.log 0x24 0 0 0 0 s.keep.fails) :=
  if_neg (not_not.mpr own)

/-- MAKE_PREFERRED acts at the command and is not logged (log entry 121). -/
theorem hDevRestart_restarts (hn : n = r.u 0 1) (range : n ≤ 2) (own : r.part = 0) (free : s.loading = false) :
    hDevRestart r s = .done stOk [] { s with
      keep := { s.keep with pref := if bitOf (r.u 1 1) 0 && n ≠ 0 then n else s.keep.pref }
      dev := { s.dev with restartSlot := n, restartAt := some (s.now + 1000000) } } := by
  subst hn
  unfold hDevRestart
  dsimp only
  rw [if_neg (Nat.not_lt.mpr range), if_neg (not_not.mpr own), if_neg (by simp [free])]

/-- Settles O37: each request passes the checks of its handler, and the image those of R401 or not. -/
theorem bootCommandsComplete : Obligations.BootCommandsComplete := by
  refine ⟨fun _ _ _ hs => mailbox_done hs rfl,
    fun _ _ _ hs _ hn nonzero range fits _ hxs => mailbox_done hs (hBootRecords_writes_newest hn nonzero range fits hxs),
    fun dt m s hs n hn slot own free idle header clean whole f hf => ?load,
    fun _ _ _ hs _ hn slot own good unwritten => mailbox_done hs (hFwSelect_prefers hn slot own good unwritten),
    fun _ _ _ hs own => mailbox_done hs (hBootClearFailures_clears own),
    fun _ _ _ hs _ hn range own free => mailbox_done hs (hDevRestart_restarts hn range own free)⟩
  case load =>
    subst hf
    have checks := hFwLoad_checks hn slot own free idle header clean whole
    split
    next good =>
      rw [good] at checks
      exact mailbox_later hs checks
    next off bad =>
      rw [bad] at checks
      exact mailbox_refused hs checks

/-! ### What Rusk mode serves (R407) -/

/-- Six commands of the table have the mark of Rusk mode. -/
theorem request_rusk_iff (hi : i.request = some (d, dt, m)) :
    d.rusk = true ↔ i = .getInfo dt m ∨ i = .bootStatus dt m ∨ i = .bootRecords dt m ∨ i = .fwLoad dt m ∨
      i = .bootClearFailures dt m ∨ i = .devRestart dt m := by
  cases i
  case getInfo | bootStatus | bootRecords | fwLoad | bootClearFailures | devRestart =>
    cases hi
    exact iff_of_true rfl (by simp)
  all_goals cases hi <;> exact iff_of_false Bool.false_ne_true (by simp)

theorem State.irq_dev (s : State) (p k : Nat) : (s.irq p k).dev = s.dev := by
  unfold State.irq
  dsimp only
  split
  · split <;> rfl
  · rfl

theorem State.irqCause_dev (s : State) (p k : Nat) : (s.irqCause p k).dev = s.dev := by
  unfold State.irqCause
  split
  · rfl
  · exact State.irq_dev ..

theorem State.countIgnored_dev (s : State) (p : Nat) : (s.countIgnored p).dev = s.dev := State.irqCause_dev ..

theorem State.refuseCtrl_dev (s : State) (p off : Nat) : (s.refuseCtrl p off).dev = s.dev := State.irqCause_dev ..

/-- To hand a request in leaves the device in its mode. -/
theorem State.submit_dev (s : State) (p slot code : Nat) (q : Request) : (s.submit p slot code q).dev = s.dev := by
  unfold State.submit State.doorbell
  split
  · exact (State.countIgnored_dev ..).trans (State.refuseCtrl_dev ..)
  · split
    · exact State.countIgnored_dev ..
    · rfl

theorem State.inHand_mode (s : State) (code dt : Nat) (m : Mbox) :
    (s.inHand code dt m).dev.mode = (s.elapse dt).dev.mode := by
  show (s.offered code dt m).dev.mode = _
  unfold State.offered
  dsimp only
  split
  · rfl
  · rw [State.submit_dev]

/-- Settles O59: the checks of R86 refuse what Rusk mode does not serve, and unknown codes are answered as they come to the
front. -/
theorem ruskServesSixCommands : Obligations.RuskServesSixCommands := by
  refine ⟨fun i d dt m hi => ⟨request_rusk_iff hi, fun s unserved rusk reach front turn fits => ?unserved⟩,
    fun s p n a rest front unknown free held fits => ?unknown⟩
  case unserved =>
    obtain ⟨h, row⟩ := exec_eq_mailbox (s := s) hi
    exact row.trans (mailbox_checked reach front turn
      (CmdDef.check_rusk fits ((State.inHand_mode ..).trans rusk) unserved))
  case unknown =>
    rw [State.drain, front]
    dsimp only
    rw [if_neg (by simp [unknown, free, held])]
    simp only [Nat.not_lt.mpr fits, if_false]

end Sys2Proof.Machine
end

section
/-! SUPPORT. The rows of power, resets and starts (R394 to R396, R403, R409 to R411, R413, R419, R445, R458): what each leaves where
its guards hold, and what a loss of power leaves. -/
namespace Sys2Proof.Machine

variable {dt : Nat} {k : Fin 6} {o : BootObs} {s t : State}

section rows

variable (ht : s.elapse dt = t)
include ht

/-! ### PORST_N and device resets (R395, R396, R410) -/

/-- The rails, and the TAP instruction at the rise of PORST_N, are log entry 123. -/
theorem execPowerOnReset_starts {straps : Straps} (low : t.dev.porst = false) :
    execPowerOnReset dt straps o s = .next ({ t with
      dev := { t.dev with
        porst := true, straps := straps, v08 := true, v18 := true, v33 := true,
        tap := if tapDrives t.dev.tap then .idcode else t.dev.tap } }.start .porst o) := by
  unfold execPowerOnReset
  rw [ht]
  exact if_neg (by simp [low])

theorem execPorstNFall_holds (high : t.dev.porst = true) :
    execPorstNFall dt s = .next ({ t with dev := { t.dev with porst := false } }.hold) := by
  unfold execPorstNFall
  rw [ht]
  exact if_pos high

theorem execPowerFail_holds : execPowerFail dt s = .next ({ t with dev := { t.dev with v08 := false } }.hold) := by
  subst ht
  rfl

theorem execDeviceReset_starts {x : ResetOrigin} (up : t.dev.mode ≠ .held) (due : t.resetOrigin = some x) :
    execDeviceReset dt o s = .next (t.start x o) := by
  unfold execDeviceReset
  rw [ht]
  dsimp only
  rw [due]
  cases mode : t.dev.mode with
  | held => exact absurd mode up
  | boot | ready | rusk => rfl

/-! ### The end of a start (R403) -/

theorem execReadyTimeout_fails (starts : t.starting = true) (late : 2000000000 ≤ t.now) :
    execReadyTimeout dt s = .next (t.failStart 1 0 0) := by
  unfold execReadyTimeout
  rw [ht]
  exact if_pos (by simp [starts, late])

theorem execWatchdog_fails (starts : t.starting = true) : execWatchdog dt k s = .next (t.failStart 2 0 k) := by
  have boot : t.dev.mode = .boot := by
    simp only [State.starting, Bool.and_eq_true, decide_eq_true_eq] at starts
    exact starts.1
  unfold execWatchdog
  rw [ht]
  simp only [boot, starts, if_true]

/-- A watchdog in Rusk mode is log entry 122. -/
theorem execWatchdog_raises (runs : t.dev.mode = .ready ∨ t.dev.mode = .rusk) :
    execWatchdog dt k s = .next (t.raise 0x106 0 2 k false 0) := by
  unfold execWatchdog
  rw [ht]
  rcases runs with mode | mode <;> simp only [mode]

/-! ### The end of FW_LOAD, tokens, rails and the TAP (R413, R419, R445, R458) -/

theorem execFwLoadDone_writes {n : Nat} {f : FwSlot} {d : Dev} {u : State} (writes : t.keep.writing = some (n, f))
    (hd : d = if n = 1 then { t.dev with resultA := 0 } else { t.dev with resultB := 0 })
    (hu : u = { t with keep := { t.keep.setSlot n f with writing := none }, dev := d }.log 0x22 0 n 0 0 (f.build % 65536)) :
    execFwLoadDone dt s = .next (
      match u.longs.find? fun l => l.code = 0x902 with
      | some l => (u.relayDone l.part l.slot).finish l stOk 0 []
      | none => u) := by
  subst hu hd
  unfold execFwLoadDone
  rw [ht]
  simp only [writes] <;> rfl

theorem execTokenRefill_refills (ready : t.dev.mode = .ready) (due : (t.budget.mark + 1) * 1000000 ≤ t.now) :
    execTokenRefill dt s = .next { t with budget := { t.budget with
      mark := t.budget.mark + 1
      tokens := min (t.par K.powerStartBurst 0) (t.budget.tokens + t.par K.powerStartTokensPerMs 0) } } := by
  unfold execTokenRefill
  rw [ht]
  exact if_pos (by simp [ready, due])

end rows

/-- Settles O46: the guards of each row hold. -/
theorem powerAndStartRowsComplete : Obligations.PowerAndStartRowsComplete :=
  ⟨fun _ _ _ _ => execPowerOnReset_starts rfl, fun _ _ => execPorstNFall_holds rfl, fun _ _ => execPowerFail_holds rfl,
   fun _ _ _ up _ due => execDeviceReset_starts rfl up due, fun _ _ => execReadyTimeout_fails rfl,
   fun _ _ _ => execWatchdog_fails rfl, fun _ _ _ => execWatchdog_raises rfl,
   fun _ _ _ _ writes _ hd _ hu => execFwLoadDone_writes rfl writes hd hu, fun _ _ => execTokenRefill_refills rfl,
   fun _ _ _ => rfl, fun _ _ _ => rfl, fun _ _ _ => rfl⟩

/-! ### What a loss of power leaves (R394, R409, R411) -/

section keep

variable (k : Keep) (n : Nat) (x : FwSlot)

theorem Keep.slot_setSlot : (k.setSlot n x).slot n = x := by
  unfold Keep.setSlot Keep.slot
  split <;> rfl

/-- A write of a slot leaves the other slot and the rest of the keep store as they are. -/
theorem Keep.setSlot_only :
    k.setSlot n x = { k with slotA := (k.setSlot n x).slotA, slotB := (k.setSlot n x).slotB } ∧
      (n = 1 → (k.setSlot n x).slotB = k.slotB) ∧ (n ≠ 1 → (k.setSlot n x).slotA = k.slotA) := by
  unfold Keep.setSlot
  split
  next first => exact ⟨rfl, fun _ => rfl, fun other => absurd first other⟩
  next other => exact ⟨rfl, fun first => absurd first other, fun _ => rfl⟩

end keep

/-- Everything but the keep store, the straps, the rails and the TAP is as after reset (R394). -/
theorem State.hold_only (t : State) :
    t.hold = { State.reset with
      keep := t.hold.keep
      dev := { Dev.reset with
        porst := t.dev.porst, straps := t.dev.straps, v08 := t.dev.v08, v18 := t.dev.v18, v33 := t.dev.v33,
        tap := t.dev.tap }
      out := t.out, fresh := t.fresh, pending := t.pending } := rfl

/-- What slot `n` holds after a write that is abandoned (R411): its result code is one that is not OK (log entry 21). -/
def Keep.abandoned (k : Keep) (n : Nat) : FwSlot :=
  { k.slot n with code := 1 + Config.abandonedSlot k.boot % 6 }

theorem State.wiped_keep_idle (idle : t.keep.writing = none) : t.wiped.keep = t.keep := by
  unfold State.wiped
  dsimp only
  rw [idle]

theorem State.wiped_keep_writing {n : Nat} {f : FwSlot} (writes : t.keep.writing = some (n, f)) :
    t.wiped.keep = { t.keep.setSlot n (t.keep.abandoned n) with writing := none } := by
  unfold State.wiped
  dsimp only
  rw [writes]
  rfl

/-- No start runs any more, and an abandoned write is noted (R394). -/
theorem State.hold_keep_eq (t : State) : t.hold.keep =
    { t.wiped.keep with interrupted := t.keep.interrupted || t.keep.writing.isSome, isOpen := false } := rfl

/-- What a loss of power does to the keep store (R394, R409, R411). -/
theorem State.hold_keep (t : State) :
    t.hold.keep = { t.keep with
      slotA := t.hold.keep.slotA, slotB := t.hold.keep.slotB, writing := none, isOpen := false
      interrupted := t.hold.keep.interrupted } ∧
    (t.keep.writing = none → t.hold.keep.slotA = t.keep.slotA ∧ t.hold.keep.slotB = t.keep.slotB ∧
      t.hold.keep.interrupted = t.keep.interrupted) ∧
    (∀ n f, t.keep.writing = some (n, f) → t.hold.keep.interrupted = true ∧ (t.hold.keep.slot n).code ≠ 0 ∧
      (n = 1 → t.hold.keep.slotB = t.keep.slotB) ∧ (n ≠ 1 → t.hold.keep.slotA = t.keep.slotA)) := by
  rw [State.hold_keep_eq]
  cases writing : t.keep.writing with
  | none =>
    rw [State.wiped_keep_idle writing, ← writing]
    exact ⟨rfl, fun _ => ⟨rfl, rfl, by simp [writing]⟩, by simp [writing]⟩
  | some w =>
    obtain ⟨n, f⟩ := w
    obtain ⟨rest, first, second⟩ := Keep.setSlot_only t.keep n (t.keep.abandoned n)
    have invalid : ((t.keep.setSlot n (t.keep.abandoned n)).slot n).code ≠ 0 := by
      rw [Keep.slot_setSlot]
      exact Nat.ne_of_gt (Nat.add_pos_left Nat.one_pos _)
    rw [State.wiped_keep_writing writing]
    refine ⟨by rw [rest], nofun, ?_⟩
    rintro _ _ ⟨⟩
    exact ⟨by simp, invalid, first, second⟩

/-- Settles O60: both rows hold the device in reset. -/
theorem powerLossKeepsOnlyTheKeepStore : Obligations.PowerLossKeepsOnlyTheKeepStore := by
  intro dt s i t lost
  rcases lost with ⟨rfl, high⟩ | rfl
  · refine ⟨_, execPorstNFall_holds rfl high, rfl, rfl, State.hold_only _, fun _ => ⟨rfl, rfl⟩, by simp, ?_⟩
    exact State.hold_keep { t with dev := { t.dev with porst := false } }
  · refine ⟨_, execPowerFail_holds rfl, rfl, rfl, State.hold_only _, by simp, fun _ => ⟨rfl, rfl⟩, ?_⟩
    exact State.hold_keep { t with dev := { t.dev with v08 := false } }

end Sys2Proof.Machine
end

section
/-! SUPPORT. The commands of the start budget and of ageing (R421, R430, R436, R441), and the rows of the monitors and the planner
(R423, R425, R426, R434, R435): what each answers or leaves where its guards hold. -/
namespace Sys2Proof.Machine

variable {dt : Nat} {r : Req} {s t : State}

/-! ### Commands (R421, R436, R441) -/

theorem hBudgetStatus_reports (own : bitOf (r.u 0 1) 0 = true → r.part = 0) :
    hBudgetStatus r s = .done stOk
      (let b := s.budget
       let stb := (b.waiting.filter (·.obj.isNone)).length
       le 2 b.tokens ++ le 2 b.waiting.length ++ le 4 b.granted.toNat ++ le 4 b.deferred.toNat ++
         le 4 b.withdrawn.toNat ++ le 4 b.waitMax ++ le 2 stb ++ le 2 (b.waiting.length - stb) ++ zs 8)
      (if bitOf (r.u 0 1) 0 then
        { s with budget := { s.budget with granted := 0, deferred := 0, withdrawn := 0, waitMax := 0 } } else s) :=
  if_neg (by simpa using own)

/-- AGE_HISTORY answers its count and the bounds of the ring, as log entries 100 and 143 choose. -/
theorem hAgeHistory_writes_records {xs ys : List Hist} (ring : r.u 0 1 ≤ 1) (fits : 32 * r.u 2 2 ≤ r.bulkLen)
    (hxs : xs = if r.u 0 1 = 0 then s.keep.daily else s.keep.long)
    (hys : ys = (xs.filter fun x => 0 ≤ (x.seq - BitVec.ofNat 32 (r.u 4 4)).toInt).take (r.u 2 2)) :
    hAgeHistory r s = .done stOk
      (le 4 ys.length ++ le 4 ((xs.head?.map fun x => x.seq.toNat).getD 0) ++
        le 4 ((xs.getLast?.map fun x => x.seq.toNat).getD 0))
      (s.storeWrite (s.bulkBase r.part + r.bulkOff) (ys.map Hist.bytes).flatten) := by
  subst hys hxs
  exact (if_neg (Nat.not_lt.mpr ring)).trans (if_neg (Nat.not_lt.mpr fits))

/-- Settles O38: each request passes the checks of its handler. -/
theorem ageAndBudgetCommandsComplete : Obligations.AgeAndBudgetCommandsComplete :=
  ⟨fun _ _ _ hs own => mailbox_done hs (hBudgetStatus_reports own),
   fun _ _ _ hs fits => mailbox_done hs (if_neg (Nat.not_lt.mpr fits)),
   fun _ _ _ hs ring fits _ hxs _ hys => mailbox_done hs (hAgeHistory_writes_records ring fits hxs hys),
   fun _ _ _ hs _ hc range own live free notClosed =>
     mailbox_done hs (hAgeClearHist_clears hc range own live free notClosed)⟩

/-! ### Rows (R423, R425, R426, R434, R435) -/

section rows

variable (ht : s.elapse dt = t) (ready : t.dev.mode = .ready)
include ht ready

theorem execCoreFreqChange_applies : execCoreFreqChange dt s = .next t.applyCore := by
  unfold execCoreFreqChange
  rw [ht]
  exact if_pos ready

section due

variable (unheld : t.supHeld = false)
include unheld

/-- A CORE slack below half the guard asks for a slower clock, unless such a change waits already (R425, rule 2). -/
theorem execMonitorSample_takes {x : Sample} {below : Int → Bool} {u : State} (due : t.age.sampleAt + 1000000 ≤ t.now)
    (hb : below = fun v => decide (2 * v < (t.par K.ageCoreGuard 0 : Int)))
    (hu : u = (({ t with age := t.age.take x t.now }.lifetime x).levels x).lowSlack x.slack below) :
    execMonitorSample dt x s = .next (
      if below (dom x.slack 0) = true ∧ Config.coreFloor < t.age.mhz ∧ ¬(t.age.wantFast = true ∧ t.age.want.isSome = true)
      then u.wantCore (t.age.mhz - 10) 2 0 true else u) := by
  subst hu hb
  unfold execMonitorSample
  rw [ht]
  dsimp only
  rw [if_neg (by simp [ready, unheld, State.passed, due])]
  exact congrArg Host.Outcome.next (if_congr (by simp [and_assoc, imp_iff_not_or]) rfl rfl)

theorem execPlan_decides {u v : State} (due : t.age.planAt + 1000000000 * t.par K.agePlanPeriod 0 ≤ t.now)
    (hu : u = if t.age.slackPer.isEmpty then t else
      t.lowSlack t.age.slackPer fun x => decide (x < (t.par K.ageCoreGuard 0 : Int)))
    (hv : v = u.planCore.planChannels.planRows) :
    execPlan dt s = .next { v with age := { v.age with
      perLast := dom t.age.slackPer 0, perLastMhz := t.age.perMhz, slackPer := [], lastPlan := t.clk.time
      planAt := t.age.planAt + 1000000000 * t.par K.agePlanPeriod 0 } } := by
  subst hv hu
  unfold execPlan
  rw [ht]
  exact if_neg (by simp [ready, unheld, State.passed, due])

theorem execHistorySummary_adds {u v w z : State}
    (due : t.age.sumAt + 3600000000000 * t.par K.ageSummaryPeriod 0 ≤ t.now)
    (hu : u = subjects.foldl (fun y x => y.histDaily (t.summary x.1 x.2)) t)
    (hv : v = { u with keep := { u.keep with summaries := t.keep.summaries + 1 } })
    (hw : w = (List.range 32).foldl State.takeDrift
      (if (t.keep.summaries + 1) % 30 = 0 then subjects.foldl (fun y x => y.histLong (v.longRecord x.1 x.2)) v else v))
    (hz : z = (List.range 32).foldl (fun y c => y.modChan c fun ch =>
      { ch with age := { ch.age with loopMin := 0xFFFF, loopMax := 0, tdcOutPer := 0 } }) w) :
    execHistorySummary dt s = .next { z with age := { z.age with
      slackSum := [], sumN := 0, slackLow := [], ceSum := t.store.ce, ueSum := t.store.ue
      sumAt := t.age.sumAt + 3600000000000 * t.par K.ageSummaryPeriod 0 } } := by
  rw [hz, hw, hv, hu]
  unfold execHistorySummary
  rw [ht]
  dsimp only
  rw [if_neg (by simp [ready, unheld, State.passed, due])]

/-- The values that a refresh decision names are log entry 24. -/
theorem execKsScan_reports_or_refreshes {x : KsScan} {u : State}
    (due : t.age.ksAt + 3600000000000 * t.par K.ageKsScan 0 ≤ t.now)
    (hu : u = { t with age := { t.age with
      margin := x.margin, ksAt := t.age.ksAt + 3600000000000 * t.par K.ageKsScan 0 } }) :
    execKsScan dt x s = .next (
      if t.par K.ageMode 0 ≠ 1 then
        x.weak.foldl (fun y w => y.noteDecision 5 1 (Config.refreshValues w).1 (Config.refreshValues w).2 w 1) u
      else
        let v := x.failed.foldl (fun y w => y.raise 0x142 0 2 w false 0) (x.weak.foldl State.refreshWord u)
        if x.weak.isEmpty then v else v.log 0x2B 0 0 0 0 x.weak.length) := by
  subst hu
  unfold execKsScan
  rw [ht]
  dsimp only
  rw [if_neg (by simp [ready, unheld, State.passed, due])]
  split <;> rfl

end due

end rows

/-- Settles O47: the guards of each row hold. -/
theorem ageRowsComplete : Obligations.AgeRowsComplete :=
  ⟨fun _ _ _ ready unheld due _ _ hb hu => execMonitorSample_takes rfl ready unheld due hb hu,
   fun _ _ => execCoreFreqChange_applies rfl,
   fun _ _ ready unheld due _ _ hu hv => execPlan_decides rfl ready unheld due hu hv,
   fun _ _ ready unheld due _ _ _ _ hu hv hw hz => execHistorySummary_adds rfl ready unheld due hu hv hw hz,
   fun _ _ _ ready unheld due _ hu => execKsScan_reports_or_refreshes rfl ready unheld due hu⟩

end Sys2Proof.Machine
end

section
/-! SUPPORT. The management port and the Alert Response Address (R437, R438): what each row answers, and what it changes. -/
namespace Sys2Proof.Machine

variable {dt : Nat} {wins : Bool} {bs : List Byte} {s t : State}

/-! ### Block reads (R437) -/

theorem State.blockRead_up (up : t.dev.mode ≠ .held) (bs : List Byte) :
    t.blockRead bs = { t with out := { bytes := bs, poisoned := false } } := if_neg up

theorem State.logBlock_some (up : t.dev.mode ≠ .held) (r : LogRec) :
    t.logBlock (some r) =
      { t with fc := { t.fc with mgLast := some r.seq }, out := { bytes := r.bytes, poisoned := false } } :=
  (if_neg up).trans (State.blockRead_up (t := { t with fc := { t.fc with mgLast := some r.seq } }) up _)

/-- Where no log record is as asked, no bytes are answered (log entry 100). -/
theorem State.logBlock_none (up : t.dev.mode ≠ .held) :
    t.logBlock none = { t with out := { bytes := [], poisoned := false } } := State.blockRead_up up _

section rows

variable (ht : s.elapse dt = t) (up : t.dev.mode ≠ .held)
include ht up

theorem execMgFaultLo_answers (hbs : bs = t.halfMap false fun x => x.st = .fault) :
    execMgFaultLo dt s = .next ({ t with out := { bytes := bs, poisoned := false } }.alertRead false) := by
  subst ht hbs
  rw [← State.blockRead_up up]
  rfl

theorem execMgFaultHi_answers (hbs : bs = t.halfMap true fun x => x.st = .fault) :
    execMgFaultHi dt s = .next ({ t with out := { bytes := bs, poisoned := false } }.alertRead true) := by
  subst ht hbs
  rw [← State.blockRead_up up]
  rfl

theorem execMgMargin_answers (measures : t.dev.mode ≠ .rusk) :
    execMgMargin dt s = .next { t with out := { bytes := t.ageHeader.take 32, poisoned := false } } := by
  subst ht
  unfold execMgMargin
  dsimp only
  rw [if_neg measures, State.blockRead_up up]

theorem execMgLogNewest_answers {r : LogRec} (newest : t.keep.log.getLast? = some r) :
    execMgLogNewest dt s = .next
      { t with fc := { t.fc with mgLast := some r.seq }, out := { bytes := r.bytes, poisoned := false } } := by
  subst ht
  unfold execMgLogNewest
  dsimp only
  rw [newest, State.logBlock_some up]

theorem execMgLogNewest_empty (empty : t.keep.log = []) :
    execMgLogNewest dt s = .next { t with out := { bytes := [], poisoned := false } } := by
  subst ht
  unfold execMgLogNewest
  dsimp only
  rw [empty, List.getLast?_nil, State.logBlock_none up]

theorem execMgLogPrev_answers {k : W32} {r : LogRec} (last : t.fc.mgLast = some k)
    (found : t.keep.log.find? (fun x => x.seq + 1 = k) = some r) :
    execMgLogPrev dt s = .next
      { t with fc := { t.fc with mgLast := some r.seq }, out := { bytes := r.bytes, poisoned := false } } := by
  subst ht
  unfold execMgLogPrev
  dsimp only
  rw [last, Option.bind_some, found, State.logBlock_some up]

theorem execMgLogPrev_empty (first : ∀ k r, t.fc.mgLast = some k → r ∈ t.keep.log → r.seq + 1 ≠ k) :
    execMgLogPrev dt s = .next { t with out := { bytes := [], poisoned := false } } := by
  subst ht
  have before : ((s.elapse dt).fc.mgLast.bind fun q => (s.elapse dt).keep.log.find? fun r => r.seq + 1 = q) = .none := by
    simpa [Option.bind_eq_none_iff] using fun k last r => first k r last
  unfold execMgLogPrev
  dsimp only
  rw [before, State.logBlock_none up]

/-! ### The Alert Response Address (R438) -/

theorem execAlertResponse_answers (alert : t.fc.alert = true) (due : t.fc.alertAns = false) :
    execAlertResponse dt true s = .next
      { t with fc := { t.fc with alertAns := true }, out := { bytes := [0xB8], poisoned := false } } := by
  unfold execAlertResponse
  rw [ht]
  dsimp only
  rw [if_pos (by simp [alert, due]), State.blockRead_up (t := { t with fc := { t.fc with alertAns := true } }) up]

/-- Without an alert, once it has answered (log entry 116), or where it loses the arbitration, the device keeps silent. -/
theorem execAlertResponse_silent (silent : t.fc.alert = false ∨ t.fc.alertAns = true ∨ wins = false) :
    execAlertResponse dt wins s = .next { t with out := { bytes := [], poisoned := false } } := by
  subst ht
  have guard : ¬((s.elapse dt).fc.alert && !(s.elapse dt).fc.alertAns && wins) = true := by
    rcases silent with alert | answered | lost <;> simp [*]
  exact (if_neg guard).trans (congrArg Host.Outcome.next (State.blockRead_up up _))

end rows

/-- Settles O48: out of reset each row answers its bytes. -/
theorem managementReadsComplete : Obligations.ManagementReadsComplete := by
  have read {t : State} {bs cs : List Byte} (up : t.dev.mode ≠ .held) (h : cs = bs) :
      (Host.Outcome.next (t.blockRead bs) : Host.Outcome State Fault Refusal) =
        .next { t with out := { bytes := cs, poisoned := false } } := by rw [h, State.blockRead_up up]
  refine ⟨fun _ _ up _ => read up, fun _ _ up _ => read up, fun _ _ up _ => execMgFaultLo_answers rfl up,
    fun _ _ up _ => execMgFaultHi_answers rfl up, fun _ _ up _ => read up, fun _ _ up _ => read up,
    fun _ _ => execMgMargin_answers rfl, fun dt s rusk => ?rusk, fun _ _ up _ => execMgLogNewest_answers rfl up,
    fun _ _ => execMgLogNewest_empty rfl, fun _ _ up _ _ => execMgLogPrev_answers rfl up,
    fun _ _ => execMgLogPrev_empty rfl, fun _ _ => execAlertResponse_answers rfl,
    fun _ _ _ => execAlertResponse_silent rfl⟩
  case rusk => exact read (by simp [rusk]) (if_pos rusk).symm

/-! ### What the management port changes (R437, R438) -/

/-- From `s` to `u` nothing changed but TIME, with the wraps it logs, the plane event rings, the bytes answered, the last log
record read and the state of ALERT_N. -/
def ReadsOnly (s u : State) : Prop :=
  u = { s with
    clk := u.clk, out := u.out, rings := u.rings
    keep := { s.keep with log := u.keep.log, logSeq := u.keep.logSeq, logLost := u.keep.logLost }
    fc := { s.fc with
      mgLast := u.fc.mgLast, alert := u.fc.alert, alertAns := u.fc.alertAns, alertLo := u.fc.alertLo,
      alertHi := u.fc.alertHi, alertAgain := u.fc.alertAgain } }

theorem OnlyTime.readsOnly (h : OnlyTime s t) : ReadsOnly s t := by
  unfold OnlyTime at h
  unfold ReadsOnly
  rw [h]

theorem ReadsOnly.trans {u : State} (h : ReadsOnly s t) (k : ReadsOnly t u) : ReadsOnly s u := by
  unfold ReadsOnly at *
  rw [k, h]

theorem State.blockRead_readsOnly (t : State) (bs : List Byte) : ReadsOnly t (t.blockRead bs) := by
  unfold State.blockRead
  split <;> rfl

theorem State.alertRead_readsOnly (t : State) (hi : Bool) : ReadsOnly t (t.alertRead hi) := by
  unfold State.alertRead
  dsimp only
  split
  · rfl
  · split <;> rfl

theorem State.logBlock_readsOnly (t : State) (x : Option LogRec) : ReadsOnly t (t.logBlock x) := by
  unfold State.logBlock
  split
  · split
    · rfl
    · exact ReadsOnly.trans (t := { t with fc := { t.fc with mgLast := _ } }) rfl (State.blockRead_readsOnly _ _)
  · exact State.blockRead_readsOnly ..

theorem execAlertResponse_readsOnly : Leaves ReadsOnly (s.elapse dt) (execAlertResponse dt wins s) := by
  refine ite_row (fun _ => .next ?_) fun _ => .next (State.blockRead_readsOnly ..)
  exact ReadsOnly.trans (t := { s.elapse dt with fc := { (s.elapse dt).fc with alertAns := true } }) rfl
    (State.blockRead_readsOnly _ _)

/-- Settles O53: each row is a block read, with what R438 says of ALERT_N or of the last log record. -/
theorem managementReadsOnlyReport : Obligations.ManagementReadsOnlyReport := by
  intro dt s u i row next
  have block (bs : List Byte) : ReadsOnly (s.elapse dt) ((s.elapse dt).blockRead bs) := State.blockRead_readsOnly ..
  have map (bs : List Byte) (hi : Bool) : ReadsOnly (s.elapse dt) (((s.elapse dt).blockRead bs).alertRead hi) :=
    (block bs).trans (State.alertRead_readsOnly ..)
  have reads : Leaves ReadsOnly (s.elapse dt) (exec i s) := by
    rcases row with rfl | rfl | rfl | rfl | rfl | rfl | rfl | rfl | rfl | ⟨wins, rfl⟩
    exacts [.next (block _), .next (block _), .next (map _ false), .next (map _ true), .next (block _), .next (block _),
      .next (block _), .next (State.logBlock_readsOnly ..), .next (State.logBlock_readsOnly ..), execAlertResponse_readsOnly]
  exact (State.elapse_time s dt).readsOnly.trans (reads u next)

/-! ### The release of ALERT_N (R373, R438) -/

/-- The state of ALERT_N once both fault maps have been read after the answer: released, or driven low again. -/
def Faults.alertReleased (x : Faults) : Faults :=
  { x with alert := x.alertAgain, alertAgain := false, alertAns := false, alertLo := false, alertHi := false }

theorem State.alertRead_unanswered {hi : Bool} (due : t.fc.alertAns = false) : (t.alertRead hi).fc = t.fc :=
  congrArg State.fc (if_pos (by simp [due]))

section answered

variable (up : t.dev.mode ≠ .held) (answered : t.fc.alertAns = true)
include up answered

theorem State.alertRead_lo_first (unread : t.fc.alertHi = false) :
    (t.alertRead false).fc = { t.fc with alertLo := true } := by
  simp [State.alertRead, up, answered, unread]

theorem State.alertRead_hi_first (unread : t.fc.alertLo = false) :
    (t.alertRead true).fc = { t.fc with alertHi := true } := by
  simp [State.alertRead, up, answered, unread]

theorem State.alertRead_lo_second (read : t.fc.alertHi = true) : (t.alertRead false).fc = t.fc.alertReleased := by
  simp [State.alertRead, up, answered, read, Faults.alertReleased]

theorem State.alertRead_hi_second (read : t.fc.alertLo = true) : (t.alertRead true).fc = t.fc.alertReleased := by
  simp [State.alertRead, up, answered, read, Faults.alertReleased]

end answered

/-- Settles O58: the bytes of a map do not bear on ALERT_N, only which maps have been read since the answer does. -/
theorem alertIsHeldUntilBothMapsAreRead : Obligations.AlertIsHeldUntilBothMapsAreRead := by
  intro dt s t up alert
  have lo := execMgFaultLo_answers (s := s) (dt := dt) rfl up rfl
  have hi := execMgFaultHi_answers (s := s) (dt := dt) rfl up rfl
  refine ⟨fun due => ⟨⟨_, execAlertResponse_silent rfl up (.inr (.inr rfl)), rfl, rfl⟩,
      ⟨_, execAlertResponse_answers rfl up alert due, rfl, rfl⟩, ⟨_, lo, State.alertRead_unanswered due⟩,
      ⟨_, hi, State.alertRead_unanswered due⟩⟩,
    fun answered unread => ⟨⟨_, lo, State.alertRead_lo_first up answered unread⟩,
      fun read => ⟨_, hi, State.alertRead_hi_second up answered read⟩⟩,
    fun answered unread => ⟨⟨_, hi, State.alertRead_hi_first up answered unread⟩,
      fun read => ⟨_, lo, State.alertRead_lo_second up answered read⟩⟩⟩

end Sys2Proof.Machine
end
